-- ==== Sys2Proof/Word.lean ====
section
/-!
DEFINITION. Word.lean: the word types. Registers are 32 bits wide (R4); packet, buffer and message
bytes are bytes. Nothing else of the model is a bit vector unless the spec shifts or masks it.
-/
namespace Sys2Proof

/-- A register word: 32 bits, bit 0 least significant (R4). -/
abbrev Word := BitVec 32

/-- A byte of a frame, a table entry, a message or a memory. -/
abbrev Byte := BitVec 8

end Sys2Proof
end

