-- ==== Sys2Proof/Syntax.lean ====
section
/-!
DEFINITION. Syntax.lean: the commands of the block, one constructor per row of spec/opcode_table.json, and
the operand types they carry. A command that the block itself produces (a timer, an engine finishing) is an
event whose operands hold only what the outside world or the electrical layer supplies: the bytes of a
frame, a sensor reading, what a host memory read returned.
-/
namespace Sys2Proof

/-- The agents of R394: host functions 1 to 8, sluices 17 to 32, the Vault 33, the debug access port 34. -/
inductive Agent where
  | pf0
  | vf (n : Fin 7)
  | sluice (r : Fin 16)
  | vault
  | dap
  deriving DecidableEq, Repr

/-- The agent's number (R394). `vf n` is VF(n + 1). -/
def Agent.num : Agent → Nat
  | .pf0 => 1
  | .vf n => 2 + n.val
  | .sluice r => 17 + r.val
  | .vault => 33
  | .dap => 34

/-- What the root of trust finds at a boot. The firmware slots and the directory of boot flash are outside the
device: for each slot 0 when its S0 image passes, or the failure code 1 to 6 of R506; PREF_SLOT and CFG_SLOT of the
directory (R523); and the known-answer test of the Vault that fails, if one does (R433). -/
structure Boot where
  fail0 : Fin 7 := 0
  fail1 : Fin 7 := 0
  pref : Fin 2 := 0
  cfgSlot : Fin 4 := 0
  kat : Option (Fin 16) := none
  deriving DecidableEq, Repr

/-- What the frozen-access port addresses (R513): an SRAM word by page, memory and word, or a register. -/
inductive FrozenTarget where
  | sram (pg mem word : Nat)
  | reg (off : Nat)
  deriving DecidableEq, Repr

/-- An IEEE 1149.1 instruction (R508): IDCODE, BYPASS, or another with its instruction code. -/
inductive ScanInstr where
  | idcode
  | bypass
  | other (code : Nat)
  deriving DecidableEq, Repr

/-- Where a table command comes from (R181, R225): the command registers of its page, written by an agent
(with the instance that TBL_CMD names), a sluice request, or a table DMA list of a function. -/
inductive TblSrc where
  | page (a : Agent) (inst : Fin 16)
  | sluice (r : Fin 16) (blk : List Byte)
  | list (f : Fin 8) (blk : List Byte)
  deriving DecidableEq, Repr


/-- A command block has 64 bytes (R181). -/
def TblSrc.blockOk : TblSrc → Bool
  | .page _ _ => true
  | .sluice _ blk => blk.length == 64
  | .list _ blk => blk.length == 64


/-- The commands, in the order of the opcode table; each names its governing rule. -/
inductive Instr where
  /-- REG_WRITE (R37) -/
  | regWrite (a : Agent) (off : Nat) (be : Fin 16) (v : Word)
  /-- RC_READ (R6) -/
  | rcRead (a : Agent) (off : Nat)
  /-- COUNTER_LO_READ (R36) -/
  | counterLoRead (a : Agent) (off : Nat)
  /-- INT_CAUSE_CLEAR (R44) -/
  | intCauseClear (a : Agent) (pg : Nat) (v : Word)
  /-- INT_FORCE (R38) -/
  | intForce (a : Agent) (pg : Nat) (v : Word)
  /-- ERR_ADDR_REARM (R46) -/
  | errAddrRearm (a : Agent) (pg : Nat)
  /-- ACC_INFO_REARM (R49) -/
  | accInfoRearm (a : Agent)
  /-- VEC_REARM (R54) -/
  | vecRearm (a : Agent) (v : Word)
  /-- SOFT_RST (R42) -/
  | softRst (a : Agent) (pg : Nat)
  /-- SOFT_RESET_DONE (R42) -/
  | softResetDone (pg : Nat)
  /-- SCRUB_NOW (R47) -/
  | scrubNow (a : Agent) (pg : Nat)
  /-- SCRUB_SLOT (R489) -/
  | scrubSlot (pg : Nat) (mem : Nat) (word : Nat) (last : Bool)
  /-- PORT_MODE_WRITE (R59) -/
  | portModeWrite (a : Agent) (p : Fin 144) (v : Word)
  /-- TX_EQ_WRITE (R66) -/
  | txEqWrite (a : Agent) (l : Fin 1152) (v : Word)
  /-- BRD_DLY_WRITE (R82) -/
  | brdDlyWrite (a : Agent) (l : Fin 1152) (tx : Bool) (v : Word)
  /-- RESTART (R68) -/
  | adaptRestart (a : Agent) (l : Fin 1152)
  /-- ADAPT_DONE (R68) -/
  | adaptDone (l : Fin 1152) (ctle : Fin 32) (taps : List Int)
  /-- CONT_ADAPT_TICK (R68) -/
  | contAdaptTick (l : Fin 1152) (moves : List Int) (vert : Byte) (horiz : Byte)
  /-- FEC_CODEWORD (R64) -/
  | fecCodeword (lp : Fin 1152) (errs : Nat)
  /-- FEC_DEGRADE_WINDOW (R64) -/
  | fecDegradeWindow (lp : Fin 1152)
  /-- HI_SER (R87) -/
  | hiSer (lp : Fin 1152)
  /-- HOST_REQ_WRITE (R70) -/
  | hostReqWrite (a : Agent) (lp : Fin 1152) (req : Fin 4)
  /-- PM_REQ_WRITE (R70) -/
  | pmReqWrite (a : Agent) (lp : Fin 1152) (quiet : Bool)
  /-- QUIET_IDLE_EXPIRY (R71) -/
  | quietIdleExpiry (lp : Fin 1152)
  /-- LANE_TRANSITION_DONE (R71) -/
  | laneTransitionDone (lp : Fin 1152)
  /-- PLL_STOP_DONE (R72) -/
  | pllStopDone (k : Fin 72)
  /-- PLL_UNLOCK (R85) -/
  | pllUnlock (k : Fin 72) (high : Bool)
  /-- PLL_LOCKED (R77) -/
  | pllLocked (k : Fin 72) (high : Bool)
  /-- RAW_EN_SET (R74) -/
  | rawEnSet (a : Agent) (l : Fin 1152)
  /-- RAW_EN_CLEAR (R77) -/
  | rawEnClear (a : Agent) (lp : Fin 1152)
  /-- SLIP (R75) -/
  | slip (a : Agent) (l : Fin 1152)
  /-- SLIP_DONE (R75) -/
  | slipDone (l : Fin 1152)
  /-- PRBS_WORD_CHECK (R76) -/
  | prbsWordCheck (l : Fin 1152) (errs : Fin 65)
  /-- PRBS_LOCK (R76) -/
  | prbsLock (l : Fin 1152)
  /-- PRBS_LOCK_LOST (R76) -/
  | prbsLockLost (l : Fin 1152)
  /-- ADMIN_UP_SET (R77) -/
  | adminUpSet (a : Agent) (lp : Fin 1152)
  /-- ADMIN_UP_CLEAR (R77) -/
  | adminUpClear (a : Agent) (lp : Fin 1152)
  /-- AN_COMPLETE (R77) -/
  | anComplete (lp : Fin 1152)
  /-- AN_FAIL (R62) -/
  | anFail (lp : Fin 1152)
  /-- TRAIN_DONE (R77) -/
  | trainDone (lp : Fin 1152)
  /-- TRAIN_TMO (R77) -/
  | trainTmo (lp : Fin 1152)
  /-- ADAPT_TIMEOUT (R77) -/
  | adaptTimeout (lp : Fin 1152)
  /-- ALIGN_LOCK (R77) -/
  | alignLock (lp : Fin 1152)
  /-- ALIGN_TIMEOUT (R569) -/
  | alignTimeout (lp : Fin 1152)
  /-- CAL_DONE (R82) -/
  | calDone (lp : Fin 1152) (rx : BitVec 24) (tx : BitVec 24)
  /-- LOSS_CONDITION (R79) -/
  | lossCondition (lp : Fin 1152) (j : Fin 8) (kind : Fin 4)
  /-- LINK_DOWN_HOLD_EXPIRY (R77) -/
  | linkDownHoldExpiry (lp : Fin 1152)
  /-- REMOTE_FAULT (R77) -/
  | remoteFault (lp : Fin 1152)
  /-- REMOTE_FAULT_CLEAR (R77) -/
  | remoteFaultClear (lp : Fin 1152)
  /-- FLUSH_DONE (R269) -/
  | flushDone (lp : Fin 1152)
  /-- FRAME_RECEIVE (R19) -/
  | frameReceive (lp : Fin 1152) (bytes : List Byte)
  /-- PARSE_WALK (R89) -/
  | parseWalk (src : Fin 1169)
  /-- FRAME_END (R261) -/
  | frameEnd (lp : Fin 1152)
  /-- LENGTH_MISMATCH (R232) -/
  | lengthMismatch (src : Fin 1169)
  /-- BEAT_BOUNDARY (R16) -/
  | beatBoundary
  /-- RECIRC_READY (R136) -/
  | recircReady (r : Fin 16)
  /-- CS_WRITE (R139) -/
  | csWrite (a : Agent) (r : Fin 16)
  /-- CS_READ (R139) -/
  | csRead (a : Agent) (r : Fin 16)
  /-- REPAIR (R140) -/
  | csRepair (a : Agent) (r : Fin 16)
  /-- MTR_WRITE (R146) -/
  | mtrWrite (a : Agent) (r : Fin 16) (i : BitVec 15)
  /-- MTR_READ (R146) -/
  | mtrRead (a : Agent) (r : Fin 16) (i : BitVec 15)
  /-- CNT_READ (R146) -/
  | cntRead (a : Agent) (r : Fin 16) (i : BitVec 16)
  /-- CNT_READ_CLEAR (R146) -/
  | cntReadClear (a : Agent) (r : Fin 16) (i : BitVec 16)
  /-- CNT_CLEAR (R146) -/
  | cntClear (a : Agent) (r : Fin 16) (i : BitVec 16)
  /-- IND_WRITE_ENTRY (R108) -/
  | indWriteEntry (a : Agent) (g : BitVec 12) (i : BitVec 9)
  /-- IND_READ_ENTRY (R108) -/
  | indReadEntry (a : Agent) (g : BitVec 12) (i : BitVec 9)
  /-- IND_WRITE_GROUP (R108) -/
  | indWriteGroup (a : Agent) (g : BitVec 12)
  /-- IND_READ_GROUP (R108) -/
  | indReadGroup (a : Agent) (g : BitVec 12)
  /-- SLUICE_WORD (R148) -/
  | sluiceWord (r : Fin 16)
  /-- REG_RD (R150) -/
  | sluRegRd (r : Fin 16)
  /-- REG_WR (R150) -/
  | sluRegWr (r : Fin 16)
  /-- FLUME_RD (R150) -/
  | sluFlumeRd (r : Fin 16)
  /-- FLUME_WR (R150) -/
  | sluFlumeWr (r : Fin 16)
  /-- HOST_RD (R150) -/
  | sluHostRd (r : Fin 16) (data : List Byte)
  /-- HOST_WR (R150) -/
  | sluHostWr (r : Fin 16)
  /-- TBL_CMD (R150) -/
  | sluTblCmd (r : Fin 16)
  /-- VAULT_JOB (R150) -/
  | sluVaultJob (r : Fin 16)
  /-- LOCK_TRY (R150) -/
  | sluLockTry (r : Fin 16)
  /-- LOCK_ACQ (R150) -/
  | sluLockAcq (r : Fin 16)
  /-- MBX_POST (R150) -/
  | sluMbxPost (r : Fin 16)
  /-- LEARN_POP (R150) -/
  | sluLearnPop (r : Fin 16)
  /-- INJECT (R152) -/
  | sluInject (r : Fin 16)
  /-- REQUEST_COMPLETE (R150) -/
  | requestComplete (r : Fin 16)
  /-- WAIT_TIMEOUT (R155) -/
  | waitTimeout (r : Fin 16) (t : Fin 4)
  /-- TIMER_EXPIRY (R156) -/
  | timerExpiry (r : Fin 16) (i : Fin 2)
  /-- TICK (R153) -/
  | tick
  /-- POLL_WATCHDOG (R160) -/
  | pollWatchdog (r : Fin 16) (t : Fin 4)
  /-- HEARTBEAT_WATCHDOG (R160) -/
  | heartbeatWatchdog (r : Fin 16)
  /-- SLUICE_RESTART (R162) -/
  | sluiceRestart (r : Fin 16)
  /-- START (R163) -/
  | sluStart (a : Agent) (r : Fin 16)
  /-- STOP (R163) -/
  | sluStop (a : Agent) (r : Fin 16)
  /-- IMG_CMD_GO (R165) -/
  | imgCmdGo (a : Agent) (r : Fin 16) (flume : Bool)
  /-- IMG_LOAD_DONE (R165) -/
  | imgLoadDone (r : Fin 16) (host : Option (List Byte))
  /-- SL_CS_WRITE (R167) -/
  | sluCsWrite (a : Agent) (r : Fin 16)
  /-- SL_CS_READ (R167) -/
  | sluCsRead (a : Agent) (r : Fin 16)
  /-- DS_DATA_ACCESS (R170) -/
  | dsDataAccess (a : Agent) (r : Fin 16) (w : Option Word)
  /-- EM_INSERT (R182) -/
  | emInsert (src : TblSrc)
  /-- EM_INSERT_RELOCATE (R190) -/
  | emInsertRelocate (i : Fin 16)
  /-- EM_DELETE (R182) -/
  | emDelete (src : TblSrc)
  /-- EM_READ (R182) -/
  | emRead (src : TblSrc)
  /-- EM_UPDATE (R182) -/
  | emUpdate (src : TblSrc)
  /-- EM_SWAP (R182) -/
  | emSwap (src : TblSrc)
  /-- EM_SEARCH (R182) -/
  | emSearch (src : TblSrc)
  /-- EM_AGE (R199) -/
  | emAge (src : TblSrc)
  /-- EM_LOCK (R185) -/
  | emLockBucket (src : TblSrc)
  /-- EM_WRITE_SLOT (R186) -/
  | emWriteSlot (src : TblSrc)
  /-- EM_UNLOCK (R187) -/
  | emUnlock (src : TblSrc)
  /-- EM_RELOCATE (R189) -/
  | emRelocate (src : TblSrc)
  /-- BUCKET_LOCK_TIMEOUT (R188) -/
  | bucketLockTimeout (i : Fin 16) (b : Nat)
  /-- EM_GEOM_WRITE (R175) -/
  | emGeomWrite (a : Agent) (i : Fin 16) (v : Word)
  /-- EM_CLEAR_DONE (R175) -/
  | emClearDone (i : Fin 16)
  /-- LEARN_HANDLE (R196) -/
  | learnHandle
  /-- AGE_WALK (R198) -/
  | ageWalk (i : Fin 16)
  /-- PIN_HOLD_EXPIRY (R197) -/
  | pinHoldExpiry (i : Fin 16) (key : List Byte)
  /-- SET_POLICY (R200) -/
  | setPolicy (i : Fin 16) (period : Word) (limit : Byte) (hold : BitVec 16)
  /-- GET_POLICY (R200) -/
  | getPolicy (i : Fin 16)
  /-- UNPIN (R200) -/
  | unpin (i : Fin 16) (key : List Byte)
  /-- FLUSH (R200) -/
  | emFlush (i : Fin 16) (lp : BitVec 16)
  /-- PFX_INSERT (R223) -/
  | pfxInsert (v6 : Bool) (src : TblSrc)
  /-- PFX_DELETE (R223) -/
  | pfxDelete (v6 : Bool) (src : TblSrc)
  /-- PFX_READ (R223) -/
  | pfxRead (v6 : Bool) (src : TblSrc)
  /-- PFX_UPDATE (R223) -/
  | pfxUpdate (v6 : Bool) (src : TblSrc)
  /-- PFX_SWAP (R223) -/
  | pfxSwap (v6 : Bool) (src : TblSrc)
  /-- PFX_SEARCH (R223) -/
  | pfxSearch (v6 : Bool) (src : TblSrc)
  /-- PIN (R223) -/
  | pfxPin (v6 : Bool) (src : TblSrc)
  /-- PFX_UNPIN (R223) -/
  | pfxUnpin (v6 : Bool) (src : TblSrc)
  /-- PFX_LOOKUP (R223) -/
  | pfxLookupCmd (v6 : Bool) (src : TblSrc)
  /-- CAM_READ (R224) -/
  | camRead (src : TblSrc)
  /-- CAM_WRITE_SLOT (R224) -/
  | camWriteSlot (src : TblSrc)
  /-- CAM_LOOKUP (R224) -/
  | camLookupCmd (src : TblSrc)
  /-- PFX_S3_DONE (R217) -/
  | pfxS3Done (v6 : Bool)
  /-- PFX_OVERFLOW_RETURN (R218) -/
  | pfxOverflowReturn (v6 : Bool) (vrf : BitVec 12) (addr : BitVec 128) (len : Fin 129)
  /-- PFX_FAMILY_ENABLE (R207) -/
  | pfxFamilyEnable (a : Agent) (v6 : Bool)
  /-- PFX_CLEAR_DONE (R207) -/
  | pfxClearDone (v6 : Bool)
  /-- PFX_REBUILD_DONE (R220) -/
  | pfxRebuildDone
  /-- CAM_BLK_WRITE (R215) -/
  | camBlkWrite (a : Agent) (b : Fin 64) (v : Word)
  /-- CARVE_WRITE (R229) -/
  | carveWrite (a : Agent) (v : Word)
  /-- BM_ENABLE (R229) -/
  | bmEnable (a : Agent)
  /-- BM_BUILD_DONE (R229) -/
  | bmBuildDone
  /-- BUFFER_ALLOC (R230) -/
  | bufferAlloc (src : Fin 1169)
  /-- CHAIN_BUFFER_REQUEST (R231) -/
  | chainBufferRequest (src : Fin 1169)
  /-- POOL_EMPTY_GRANT (R236) -/
  | poolEmptyGrant (p : Fin 3)
  /-- NO_BUFFER_TIMEOUT (R236) -/
  | noBufferTimeout (src : Fin 1169)
  /-- BITMAP_REBUILD_DONE (R239) -/
  | bitmapRebuildDone (p : Fin 3) (n : BitVec 22)
  /-- BUF_READ (R251) -/
  | bufRead (a : Agent) (p : Fin 4) (n : BitVec 22)
  /-- BUF_FREE (R251) -/
  | bufFree (a : Agent) (p : Fin 4) (n : BitVec 22)
  /-- XOFF_CHANGE (R244) -/
  | xoffChange (lp : Fin 1152) (k : Fin 3)
  /-- PFC_REFRESH (R245) -/
  | pfcRefresh (lp : Fin 1152)
  /-- PFC_RECEIVE (R246) -/
  | pfcReceive (lp : Fin 1152) (bytes : List Byte)
  /-- PAUSE_EXPIRY (R246) -/
  | pauseExpiry (lp : Fin 1152) (cls : Fin 8)
  /-- MACCTL_OTHER_RECEIVE (R246) -/
  | macctlOtherReceive (lp : Fin 1152) (bytes : List Byte)
  /-- FC_CTL_WRITE (R253) -/
  | fcCtlWrite (a : Agent) (lp : Fin 1152) (v : Word)
  /-- COPY_LINK (R258) -/
  | copyLink
  /-- TRANSMIT_START (R337) -/
  | transmitStart (lp : Fin 1152)
  /-- COPY_TRANSMIT_END (R283) -/
  | copyTransmitEnd (lp : Fin 1152)
  /-- WD_STORM (R271) -/
  | wdStorm (lp : Fin 1152) (k : Fin 3)
  /-- WD_RESTORE (R271) -/
  | wdRestore (lp : Fin 1152) (k : Fin 3)
  /-- WD_CLR (R271) -/
  | wdClr (a : Agent) (lp : Fin 1152) (k : Fin 3)
  /-- QCMD_READ (R275) -/
  | qcmdRead (a : Agent) (q : Fin 23056)
  /-- QCMD_WRITE (R275) -/
  | qcmdWrite (a : Agent) (q : Fin 23056)
  /-- QCMD_READ_CLEAR (R275) -/
  | qcmdReadClear (a : Agent) (q : Fin 23056)
  /-- WRITE_GROUP (R278) -/
  | mcWriteGroup (a : Agent) (i : BitVec 17)
  /-- READ_GROUP (R278) -/
  | mcReadGroup (a : Agent) (i : BitVec 17)
  /-- WRITE_MEMBER (R278) -/
  | mcWriteMember (a : Agent) (i : BitVec 17)
  /-- READ_MEMBER (R278) -/
  | mcReadMember (a : Agent) (i : BitVec 17)
  /-- WHEEL_SERVICE (R290) -/
  | wheelService (r : Fin 16)
  /-- WHEEL_REPLACE (R287) -/
  | wheelReplace (r : Fin 16)
  /-- GATE_WRITE (R302) -/
  | gateWrite (a : Agent) (r : Fin 16)
  /-- GATE_READ (R302) -/
  | gateRead (a : Agent) (r : Fin 16)
  /-- GATE_SWITCH (R296) -/
  | gateSwitch (lp : Fin 1152)
  /-- GATE_CLOSE_PREEMPT (R295) -/
  | gateClosePreempt (lp : Fin 1152)
  /-- PREEMPT_VERIFY_RESULT (R295) -/
  | preemptVerifyResult (lp : Fin 1152) (ok : Bool)
  /-- QUEUE_SAMPLE (R298) -/
  | queueSample (r : Fin 16)
  /-- FL_PART_WRITE (R308) -/
  | flPartWrite (a : Agent) (v : Word)
  /-- SPILL_WRITE (R314) -/
  | spillWrite (q : Fin 23056)
  /-- SPILL_RETURN (R315) -/
  | spillReturn (q : Fin 23056)
  /-- SPILL_RETURN_DONE (R315) -/
  | spillReturnDone (q : Fin 23056)
  /-- PATROL_READ (R319) -/
  | patrolRead
  /-- FLUME_LINK_FAIL (R321) -/
  | flumeLinkFail (d : Fin 2)
  /-- FLUME_DRAIN_DONE (R322) -/
  | flumeDrainDone
  /-- FLUME_DRAIN_TIMEOUT (R322) -/
  | flumeDrainTimeout
  /-- TOD_VOTE_RELOAD (R332) -/
  | todVoteReload (two : Bool)
  /-- SYNC_WORD (R333) -/
  | syncWord (bad : List (Fin 8))
  /-- REF_SEL_WRITE (R329) -/
  | refSelWrite (a : Agent) (v : Word)
  /-- REF_LOSS (R330) -/
  | refLoss
  /-- TXTS_READ (R339) -/
  | txtsRead (a : Agent) (lp : Fin 1152)
  /-- SAMPLE_SUBMIT (R340) -/
  | sampleSubmit (a : Agent) (v : Word)
  /-- SAMPLE_TMO (R342) -/
  | sampleTmo
  /-- GLIDE (R342) -/
  | glide (a : Agent)
  /-- SERVO_EN_SET (R342) -/
  | servoEnSet (a : Agent)
  /-- SERVO_EN_CLEAR (R342) -/
  | servoEnClear (a : Agent)
  /-- ADD (R344) -/
  | stepAdd (a : Agent) (neg : Bool)
  /-- SET (R344) -/
  | stepSet (a : Agent) (neg : Bool)
  /-- STEP_APPLY (R345) -/
  | stepApply
  /-- PPS_IN_EDGE (R347) -/
  | ppsInEdge (sub : Fin 328)
  /-- PPS_IN_READ (R347) -/
  | ppsInRead (a : Agent)
  /-- PPS_OUT_EDGE (R348) -/
  | ppsOutEdge
  /-- PPS_OUT_FALL (R348) -/
  | ppsOutFall
  /-- CLOCK_CFG (R350) -/
  | clockCfg (typ : Fin 4) (domain : Byte) (prio1 : Byte) (prio2 : Byte) (cls : Byte) (acc : Byte) (var : BitVec 16)
  /-- PORT_CFG (R350) -/
  | portCfg (lp : Fin 1152) (en : Bool) (peer : Bool) (oneStep : Bool) (rates : List Int) (asym : Int) (forced : Byte)
  /-- PTP_GET_STATUS (R350) -/
  | ptpGetStatus (lp : Option (Fin 1152))
  /-- SVC_STEP (R350) -/
  | svcStep (kind : Fin 4) (neg : Bool) (sec : BitVec 64) (ns : BitVec 30) (frac : BitVec 16)
  /-- LEVEL_HOLD_RELEASE (R358) -/
  | levelHoldRelease (lp : Fin 1152)
  /-- SAMPLE_RING_WRITE (R371) -/
  | sampleRingWrite
  /-- HIST_CFG_WRITE (R372) -/
  | histCfgWrite (a : Agent) (r : Fin 16) (h : Fin 16) (v : Word)
  /-- CAPTURE_RECORD_WRITE (R382) -/
  | captureRecordWrite
  /-- BLOCK_CLOSE_AGE (R382) -/
  | blockCloseAge
  /-- TIME_TRACE_WRITE (R385) -/
  | timeTraceWrite
  /-- STEP_RECORD_WRITE (R386) -/
  | stepRecordWrite
  /-- COLLECTOR_CFG (R375) -/
  | collectorCfg (i : Byte) (egress : BitVec 16) (mtu : BitVec 16) (en : Bool) (v6 : Bool) (addrs : List Byte) (udp : BitVec 16) (dscp : BitVec 6)
  /-- TEMPLATE_CFG (R375) -/
  | templateCfg (id : BitVec 16) (elems : List (BitVec 16)) (flow : Bool) (idle : Word) (active : Word) (refresh : Word)
  /-- SAMPLER_BIND (R375) -/
  | samplerBind (n : Byte) (id : BitVec 16) (mask : Byte) (domain : Word)
  /-- STATS (R375) -/
  | samplerStats (n : Byte)
  /-- LEDGER_CFG (R387) -/
  | ledgerCfg (stop : Bool) (age : BitVec 16) (reserve : Byte)
  /-- KEY_LOAD (R384) -/
  | keyLoad (blob : List Byte)
  /-- LEDGER_START (R384) -/
  | ledgerStart
  /-- LEDGER_STOP (R387) -/
  | ledgerStop
  /-- EXTRACT (R388) -/
  | extract (first : BitVec 64) (count : Word) (addr : BitVec 64) (len : BitVec 64)
  /-- RELEASE (R387) -/
  | ledgerRelease (seq : BitVec 64)
  /-- NOTE (R387) -/
  | ledgerNote (bytes : List Byte)
  /-- POST_CMD (R397) -/
  | postCmd (a : Agent) (m : Fin 32)
  /-- MBX_TAKE (R398) -/
  | mbxTake (a : Agent) (m : Fin 32)
  /-- MBX_ACK (R398) -/
  | mbxAck (a : Agent) (m : Fin 32) (st : Byte)
  /-- ACK_TIMEOUT (R405) -/
  | ackTimeout (m : Fin 32)
  /-- LOCK_READ (R407) -/
  | lockRead (a : Agent) (i : Fin 64)
  /-- LOCK_RELEASE (R409) -/
  | lockRelease (a : Agent) (i : Fin 64) (v : Word)
  /-- LOCK_BREAK (R409) -/
  | lockBreak (a : Agent) (i : Fin 64)
  /-- INSTALL (R419) -/
  | saInstall (a : Agent) (p : Fin 144) (rx : Bool) (k : Fin 8) (sc : Fin 4) (an : Fin 4) (keysrc : Bool)
  /-- SA_READ (R419) -/
  | saRead (a : Agent) (p : Fin 144) (rx : Bool) (k : Fin 8) (sc : Fin 4) (an : Fin 4)
  /-- RETIRE (R419) -/
  | saRetire (a : Agent) (p : Fin 144) (rx : Bool) (k : Fin 8) (sc : Fin 4) (an : Fin 4)
  /-- TX_AN_WRITE (R416) -/
  | txAnWrite (a : Agent) (lp : Fin 1152) (an : Fin 4)
  /-- UP_OWNER_WRITE (R422) -/
  | upOwnerWrite (a : Agent) (u : Fin 32) (v : Word)
  /-- JOB_SUBMIT (R424) -/
  | jobSubmit (a : Agent) (u : Fin 32)
  /-- GCM_ENC (R426) -/
  | gcmEnc (inp : List Byte) (agree : Bool)
  /-- GCM_DEC (R426) -/
  | gcmDec (inp : List Byte) (agree : Bool)
  /-- GMAC (R426) -/
  | gmac (inp : List Byte) (agree : Bool)
  /-- SHA384 (R426) -/
  | sha384 (inp : List Byte) (agree : Bool)
  /-- HMAC384 (R426) -/
  | hmac384 (inp : List Byte) (agree : Bool)
  /-- ECDSA_SIGN (R426) -/
  | ecdsaSign (inp : List Byte) (agree : Bool)
  /-- ECDSA_VERIFY (R426) -/
  | ecdsaVerify (inp : List Byte) (agree : Bool)
  /-- UNWRAP (R429) -/
  | unwrap (inp : List Byte) (agree : Bool)
  /-- WRAP (R426) -/
  | wrap (agree : Bool)
  /-- KEYGEN (R426) -/
  | keygen (agree : Bool)
  /-- ZERO (R426) -/
  | zero (agree : Bool)
  /-- RANDOM (R426) -/
  | random (agree : Bool)
  /-- ADVANCE (R427) -/
  | advance (agree : Bool)
  /-- HEALTH_TEST_FAIL (R430) -/
  | healthTestFail
  /-- ZEROIZE_ALL (R432) -/
  | zeroizeAll (a : Agent) (readBackOk : Bool)
  /-- KAT_DONE (R433) -/
  | katDone (fail : Option (Fin 16))
  /-- KEK_ISSUE (R429) -/
  | kekIssue (a : Agent) (u : Byte) (exportable : Bool)
  /-- OPEN (R439) -/
  | epochOpen (a : Agent) (e : BitVec 16)
  /-- ABORT (R439) -/
  | epochAbort (a : Agent) (e : BitVec 16)
  /-- COMMIT (R439) -/
  | epochCommit (a : Agent) (e : BitVec 16)
  /-- ROLLBACK (R444) -/
  | epochRollback (a : Agent) (e : BitVec 16)
  /-- EPOCH_COPY_DONE (R438) -/
  | epochCopyDone
  /-- COMMIT_BEAT (R440) -/
  | commitBeat
  /-- RETIRE_DONE (R438) -/
  | retireDone
  /-- RETIRE_TIMEOUT (R443) -/
  | retireTimeout
  /-- RETIRE_DROPS_DONE (R438) -/
  | retireDropsDone
  /-- JOURNAL_REPLAY (R447) -/
  | journalReplay
  /-- CFG_WRITE (R452) -/
  | cfgWrite (slot : Fin 4) (flume : Bool) (addr : BitVec 64) (len : Word) (host : List Byte)
  /-- CFG_READ (R452) -/
  | cfgRead (slot : Fin 4) (addr : BitVec 64) (len : Word)
  /-- CFG_SAVE_ACTIVE (R452) -/
  | cfgSaveActive (slot : Fin 4)
  /-- JNL_SAVE (R452) -/
  | jnlSave
  /-- FLASH_ERASE (R451) -/
  | flashErase (slot : Fin 5)
  /-- ESTIMATE_TICK (R457) -/
  | estimateTick (raw : List Nat)
  /-- PMBUS_WINDOW (R457) -/
  | pmbusWindow (meas : Option Nat) (mean : Nat)
  /-- CLR (R458) -/
  | calClr (a : Agent)
  /-- APPLY (R456) -/
  | fracApply (a : Agent)
  /-- PACE_INSTANT (R463) -/
  | paceInstant (idle : List (Fin 1152))
  /-- PACE_PLL_LOCK (R464) -/
  | pacePllLock
  /-- DROOP_START (R466) -/
  | droopStart
  /-- DROOP_END (R466) -/
  | droopEnd
  /-- PACE_DEFER_RESUME (R464) -/
  | paceDeferResume
  /-- GROUP_FRAME_RECEIVE (R469) -/
  | groupFrameReceive (frame : Word)
  /-- GROUP_LOSS (R470) -/
  | groupLoss
  /-- GROUP_EXIT (R470) -/
  | groupExit
  /-- CAP_SET (R475) -/
  | capSet (en : Bool) (capW : Nat) (fr : List Nat)
  /-- PWR_GET_STATUS (R475) -/
  | pwrGetStatus
  /-- GROUP_CFG (R475) -/
  | groupCfg (en : Bool) (lead : Bool) (id : Byte) (period : Nat)
  /-- THERMAL_SAMPLE (R471) -/
  | thermalSample (t : List Int) (stuck : List (Fin 26))
  /-- THERMTRIP (R473) -/
  | thermtrip
  /-- THERM_CLR (R478) -/
  | thermClr (a : Agent) (v : Word)
  /-- FATAL_FAULT (R491) -/
  | fatalFault (pg : Nat) (lookup : Bool)
  /-- DIE_LINK_FAIL (R493) -/
  | dieLinkFail (d : Fin 8)
  /-- DLINK_CMD (R496) -/
  | dlinkCmd (a : Agent) (v : Word) (trained : Bool)
  /-- PROVISION (R502) -/
  | provision (a : Agent) (arg : BitVec 20)
  /-- DEPLOY (R500) -/
  | deploy (a : Agent) (arg : BitVec 20)
  /-- CHALLENGE (R503) -/
  | challenge (a : Agent) (arg : BitVec 20)
  /-- UNLOCK (R503) -/
  | unlock (a : Agent) (arg : BitVec 20)
  /-- RELOCK (R500) -/
  | relock (a : Agent) (arg : BitVec 20)
  /-- RMA (R500) -/
  | rma (a : Agent) (arg : BitVec 20)
  /-- DISABLE (R500) -/
  | disable (a : Agent) (arg : BitVec 20)
  /-- ADD_KEY (R507) -/
  | addKey (a : Agent) (arg : BitVec 20)
  /-- REVOKE_KEY (R507) -/
  | revokeKey (a : Agent) (arg : BitVec 20)
  /-- SVN_ADVANCE (R507) -/
  | svnAdvance (a : Agent) (arg : BitVec 20)
  /-- CHALLENGE_EXPIRY (R503) -/
  | challengeExpiry
  /-- DBG_WARN (R504) -/
  | dbgWarn
  /-- DEBUG_SESSION_EXPIRY (R500) -/
  | debugSessionExpiry
  /-- RECOV_CMD (R506) -/
  | recovCmd (a : Agent) (img : List Byte) (b : Boot)
  /-- FREEZE_N (R511) -/
  | freezeN
  /-- FRZ_NOW (R511) -/
  | frzNow (a : Agent)
  /-- FROZEN_READ (R513) -/
  | frozenRead (t : FrozenTarget)
  /-- FRZ_CLR (R513) -/
  | frzClr (a : Agent) (v : Word)
  /-- AUX_POWER_ON (R519) -/
  | auxPowerOn
  /-- POR_N (R519) -/
  | porN (b : Boot)
  /-- SYS_RST_N (R519) -/
  | sysRstN (b : Boot)
  /-- SW_RST (R520) -/
  | swRst (a : Agent) (slot : Fin 4) (b : Boot)
  /-- PERST_N (R519) -/
  | perstN
  /-- REFCLK_LOSS (R521) -/
  | refclkLoss (n : Fin 9)
  /-- USE_SPARE_WRITE (R521) -/
  | useSpareWrite (a : Agent) (mask : Byte)
  /-- QUIESCE (R526) -/
  | quiesce (a : Agent)
  /-- ACTIVE (R526) -/
  | active (a : Agent)
  /-- STANDBY (R526) -/
  | standby (a : Agent)
  /-- DRAIN_TMO (R526) -/
  | drainTmo
  /-- RING_DOORBELL (R535) -/
  | ringDoorbell (a : Agent) (ring : Fin 64) (v : Word)
  /-- TX_DESCRIPTOR (R537) -/
  | txDescriptor (ring : Fin 64) (desc : List Byte) (frame : List Byte)
  /-- RX_DESCRIPTOR (R539) -/
  | rxDescriptor (h : Fin 16) (addrs : List (BitVec 64))
  /-- TABLE_DESCRIPTOR (R541) -/
  | tableDescriptor (ring : Fin 64) (desc : List Byte) (blocks : List (List Byte))
  /-- DMA_READ_ERROR (R545) -/
  | dmaReadError (ring : Fin 64) (kind : Fin 3) (desc : List Byte) (addr : BitVec 64)
  /-- CPL_TMO (R545) -/
  | cplTmo (ring : Fin 64) (desc : List Byte) (addr : BitVec 64)
  /-- COAL_TIME (R543) -/
  | coalTime (ring : Fin 64)
  /-- RING_CFG_WRITE (R545) -/
  | ringCfgWrite (a : Agent) (ring : Fin 64) (v : Word)
  /-- FLR (R546) -/
  | flr (f : Fin 8)
  /-- VF_ENABLE_CHANGE (R546) -/
  | vfEnableChange (en : Bool) (num : Fin 8)
  /-- SMBUS_READ_WORD (R560) -/
  | smbusReadWord (cmd : Byte)
  /-- STORAGE_UPSET (R480) -/
  | storageUpset (pg : Nat) (mem : Nat) (word : Nat) (unc : Bool) (stuck : Bool) (bitpos : Byte) (synd : BitVec 16)
  /-- POWER_REMOVAL (R518) -/
  | powerRemoval
  /-- TIME_REF_RETURN (R330) -/
  | timeRefReturn
  /-- REFCLK_RETURN (R521) -/
  | refclkReturn (n : Fin 9)
  /-- LOSS_CONDITION_CLEAR (R79) -/
  | lossConditionClear (lp : Fin 1152)
  /-- LINK_TRAINING_REQUEST (R67) -/
  | linkTrainingRequest (l : Fin 1152) (coef : Fin 3) (up : Bool)
  /-- PREEMPT_RESUME (R295) -/
  | preemptResume (lp : Fin 1152)
  /-- SLUICE_HALT_TIMEOUT (R163) -/
  | sluiceHaltTimeout (r : Fin 16) (t : Fin 4)
  /-- BOUNDARY_SCAN_INSTRUCTION (R510) -/
  | boundaryScan (ir : ScanInstr)
  deriving DecidableEq, Repr

end Sys2Proof
end

