-- ==== Sys2Proof/Decode.lean ====
section
/-!
DEFINITION. Decode.lean: the command that a word spells by the bits of spec/opcode_table.json. The table gives bits to
none of its rows, so no word spells a command.
-/
namespace Sys2Proof

/-- The command a word of `nbits` bits spells: the table gives no row any bits. -/
def decodeTableWord (_nbits _w : Nat) : Option Instr := none

end Sys2Proof
end

