-- ==== Sys2Proof/Config.lean ====
section
/-!
DEFINITION. Config.lean: what an implementation fixes and the spec leaves open. Every constant here has no
body, so nothing in Lean can evaluate it: a claim that mentions one holds whatever its value is. The log
entry that declares each is named in its comment.
-/
namespace Sys2Proof.Config

/-- A fresh free value: the `n`-th value the model takes where the spec leaves one open. (log 3) -/
opaque freeWord : Nat → Word

/-- The `n`-th byte of the entropy source (R430, R502): nothing constrains it. (log 4) -/
opaque entropy : Nat → Byte

/-- DEVICE_ID, fused (R515). (log 5) -/
opaque deviceId : Nat → Word

/-- SHA-384 of the Onvos RMA public key, in boot ROM (R503). (log 5) -/
opaque rmaKeyHash : List Byte

/-- SHA-384 of the Onvos firmware public key, in boot ROM (R505). (log 5) -/
opaque fwKeyHash : List Byte

/-- Fused receive delay of a lane, LN_RX_DLY, 2^-8 ns (R80). (log 5) -/
opaque laneRxDelay : Nat → BitVec 24

/-- Fused transmit delay of a lane, LN_TX_DLY, 2^-8 ns (R80). (log 5) -/
opaque laneTxDelay : Nat → BitVec 24

/-- Raw bits of an SRAM word whose layout the spec does not give, as frozen read-out shows it (R513):
page, memory, word, and a fresh number per read. (log 6) -/
opaque sramBits : Nat → Nat → Nat → Nat → BitVec 64

/-- A byte of the Flume that nothing has written: generation and byte address (R306, R308). (log 15) -/
opaque flumeByte : Nat → Nat → Byte

/-- SVN of the Onvos firmware image that S0 to S7 run after a boot, by sluice (R170, R505). (log 18) -/
opaque fwSvn : Nat → BitVec 16

/-- VERSION of the Onvos firmware image that S0 to S7 run after a boot, by sluice (R170, R505). (log 18) -/
opaque fwVersion : Nat → Word

/-- By how much the CORE view of device time lags at an instant of the model's clock, before it is held to the
bounds of R528. (log 45) -/
opaque coreLag : Nat → Nat

/-- The opcode of the message with which S0 reports a refused or absent configuration image (R450). (log 55) -/
opaque bootReport : Nat

end Sys2Proof.Config
end

