-- ==== Sys2Proof/Machine/Bits.lean ====
section
/-!
DEFINITION. Machine/Bits.lean: bit fields of a register word, byte orders, and the sparse store every
memory of the model is held in. A sparse store is a list of (key, value) pairs, keys strictly rising,
that lists no pair whose value is what an unlisted key reads as.
-/
namespace Sys2Proof.Machine

/-! ## Bit fields (R4: `[msb:lsb]` includes both ends) -/

/-- The field `[hi:lo]` of a word, as a number. -/
def fld (w : Word) (hi lo : Nat) : Nat := (w.toNat >>> lo) % 2 ^ (hi + 1 - lo)

/-- Bit `i` of a word. -/
def bit (w : Word) (i : Nat) : Bool := w.getLsbD i

/-- The mask of the field `[hi:lo]`. -/
def fldMask (hi lo : Nat) : Word := BitVec.ofNat 32 ((2 ^ (hi + 1 - lo) - 1) <<< lo)

/-- A word with the field `[hi:lo]` set to `v` (its low bits). -/
def setFld (w : Word) (hi lo v : Nat) : Word :=
  (w &&& ~~~ fldMask hi lo) ||| (BitVec.ofNat 32 ((v % 2 ^ (hi + 1 - lo)) <<< lo))

/-- A word with bit `i` set to `b`. -/
def setBit (w : Word) (i : Nat) (b : Bool) : Word := setFld w i i b.toNat

/-- The word with exactly bit `i` set. -/
def oneBit (i : Nat) : Word := BitVec.ofNat 32 (2 ^ i)

/-- A word from a number, modulo 2^32. -/
def wd (n : Nat) : Word := BitVec.ofNat 32 n

/-- A number no larger than `m`. -/
def clampTo (m n : Nat) : Nat := if n ≤ m then n else m

/-- Addition that saturates at 0xFFFF_FFFF, as the counters of the spec do (R6, R7). -/
def satAdd (w : Word) (n : Nat) : Word := wd (clampTo 0xFFFFFFFF (w.toNat + n))

/-! ## Cyclic codes (R101) -/

/-- One bit of a reflected CRC-32 with a polynomial. -/
def crcBit (poly c : Word) : Word := if c.getLsbD 0 then (c >>> 1) ^^^ poly else c >>> 1

/-- `n` bits of a reflected CRC-32. -/
def crcBits (poly : Word) : Nat → Word → Word
  | 0, c => c
  | n + 1, c => crcBits poly n (crcBit poly c)

/-- A reflected CRC-32 over bytes, with the register starting at `seed` and no final XOR. -/
def crc32 (poly seed : Word) : List Byte → Word
  | [] => seed
  | b :: bs => crc32 poly (crcBits poly 8 (seed ^^^ b.zeroExtend 32)) bs

/-- CRC-32C as R101 computes it: polynomial 0x1EDC_6F41 reflected, no final XOR. -/
def crc32c (seed : Word) (bs : List Byte) : Word := crc32 0x82F63B78 seed bs

/-! ## Byte orders -/

/-- The number a list of bytes spells, first byte most significant (network order, R4). -/
def beNat : List Byte → Nat
  | [] => 0
  | b :: bs => b.toNat * 256 ^ bs.length + beNat bs

/-- `k` bytes of `n`, most significant first. -/
def beBytes : Nat → Nat → List Byte
  | 0, _ => []
  | k + 1, n => BitVec.ofNat 8 (n / 256 ^ k) :: beBytes k (n % 256 ^ k)

/-- The number a list of bytes spells, first byte least significant. -/
def leNat : List Byte → Nat
  | [] => 0
  | b :: bs => b.toNat + 256 * leNat bs

/-- `k` bytes of `n`, least significant first. -/
def leBytes : Nat → Nat → List Byte
  | 0, _ => []
  | k + 1, n => BitVec.ofNat 8 (n % 256) :: leBytes k (n / 256)

/-- The four bytes of a word, byte 0 (bits [7:0]) first. -/
def wordBytesLE (w : Word) : List Byte := leBytes 4 w.toNat

/-- The four bytes of a word, most significant first. -/
def wordBytesBE (w : Word) : List Byte := beBytes 4 w.toNat

/-- Bytes `[from, from + n)` of a list, zero bytes past its end. -/
def slice (l : List Byte) (start n : Nat) : List Byte :=
  let t := (l.drop start).take n
  t ++ List.replicate (n - t.length) 0

/-! ## Sparse stores -/

/-- A sparse store: (key, value) pairs. -/
abbrev SMap (α : Type) := List (Nat × α)

/-- The value listed for a key, if any. -/
def mget {α : Type} : SMap α → Nat → Option α
  | [], _ => none
  | (k, v) :: m, a => if k = a then some v else mget m a

/-- The store with no entry for `a`. -/
def merase {α : Type} : SMap α → Nat → SMap α
  | [], _ => []
  | (k, v) :: m, a => if k = a then merase m a else (k, v) :: merase m a

/-- A pair put in front of the first larger key. -/
def minsert {α : Type} : SMap α → Nat → α → SMap α
  | [], a, x => [(a, x)]
  | (k, v) :: m, a, x => if a < k then (a, x) :: (k, v) :: m else (k, v) :: minsert m a x

/-- The store in which `a` is listed with `x`, or not at all (`none`). -/
def mput {α : Type} (m : SMap α) (a : Nat) (x : Option α) : SMap α :=
  match x with
  | none => merase m a
  | some v => minsert (merase m a) a v

/-- The store in which `a` reads as `v`, given what an unlisted key reads as. -/
def mset {α : Type} [DecidableEq α] (dflt : α) (m : SMap α) (a : Nat) (v : α) : SMap α :=
  mput m a (if v = dflt then none else some v)

/-- What `a` reads as. -/
def mrd {α : Type} (dflt : α) (m : SMap α) (a : Nat) : α := (mget m a).getD dflt

/-- Keys strictly rising, and no entry that says what an unlisted key reads as. -/
def mwf {α : Type} (isDflt : Nat → α → Bool) : SMap α → Bool
  | [] => true
  | [(k, v)] => !isDflt k v
  | (k, v) :: (k', v') :: m => !isDflt k v && decide (k < k') && mwf isDflt ((k', v') :: m)

/-- Every entry of a store with a key in `[lo, hi)` removed. -/
def mclear {α : Type} (m : SMap α) (lo hi : Nat) : SMap α :=
  m.filter fun kv => kv.1 < lo || hi ≤ kv.1

/-! ## Byte memories -/

/-- `n` bytes of a byte memory from `a`, unlisted bytes reading as zero. -/
def readBytes (m : SMap Byte) (a : Nat) : Nat → List Byte
  | 0 => []
  | n + 1 => mrd 0 m a :: readBytes m (a + 1) n

/-- A byte memory with a list of bytes written from `a`. -/
def writeBytes (m : SMap Byte) (a : Nat) : List Byte → SMap Byte
  | [] => m
  | b :: bs => writeBytes (mset 0 m a b) (a + 1) bs

/-- The element of a list at `i` replaced, or the list unchanged past its end. -/
def upd {α : Type} : List α → Nat → α → List α
  | [], _, _ => []
  | _ :: l, 0, x => x :: l
  | y :: l, i + 1, x => y :: upd l i x

end Sys2Proof.Machine
end

