-- ==== Sys2Proof/Machine/Crypto.lean ====
section
/-!
DEFINITION. Machine/Crypto.lean: the algorithms R433 names, written from the standards it cites: AES-256
(FIPS 197), GCM and GMAC (SP 800-38D), AES-KW (SP 800-38F), SHA-384 (FIPS 180-4), HMAC (FIPS 198-1), ECDSA
P-384 (FIPS 186-5) and CTR_DRBG (SP 800-90A). The spec names the algorithms and does not restate them:
PRESUMED from those standards (log 25).
-/
namespace Sys2Proof.Machine.Crypto

/-! ## AES-256 -/

def sboxTab0 : List Byte :=
  [ 0x63, 0x7c, 0x77, 0x7b, 0xf2, 0x6b, 0x6f, 0xc5, 0x30, 0x01, 0x67, 0x2b, 0xfe, 0xd7, 0xab, 0x76,
    0xca, 0x82, 0xc9, 0x7d, 0xfa, 0x59, 0x47, 0xf0, 0xad, 0xd4, 0xa2, 0xaf, 0x9c, 0xa4, 0x72, 0xc0,
    0xb7, 0xfd, 0x93, 0x26, 0x36, 0x3f, 0xf7, 0xcc, 0x34, 0xa5, 0xe5, 0xf1, 0x71, 0xd8, 0x31, 0x15,
    0x04, 0xc7, 0x23, 0xc3, 0x18, 0x96, 0x05, 0x9a, 0x07, 0x12, 0x80, 0xe2, 0xeb, 0x27, 0xb2, 0x75 ]
def sboxTab1 : List Byte :=
  [ 0x09, 0x83, 0x2c, 0x1a, 0x1b, 0x6e, 0x5a, 0xa0, 0x52, 0x3b, 0xd6, 0xb3, 0x29, 0xe3, 0x2f, 0x84,
    0x53, 0xd1, 0x00, 0xed, 0x20, 0xfc, 0xb1, 0x5b, 0x6a, 0xcb, 0xbe, 0x39, 0x4a, 0x4c, 0x58, 0xcf,
    0xd0, 0xef, 0xaa, 0xfb, 0x43, 0x4d, 0x33, 0x85, 0x45, 0xf9, 0x02, 0x7f, 0x50, 0x3c, 0x9f, 0xa8,
    0x51, 0xa3, 0x40, 0x8f, 0x92, 0x9d, 0x38, 0xf5, 0xbc, 0xb6, 0xda, 0x21, 0x10, 0xff, 0xf3, 0xd2 ]
def sboxTab2 : List Byte :=
  [ 0xcd, 0x0c, 0x13, 0xec, 0x5f, 0x97, 0x44, 0x17, 0xc4, 0xa7, 0x7e, 0x3d, 0x64, 0x5d, 0x19, 0x73,
    0x60, 0x81, 0x4f, 0xdc, 0x22, 0x2a, 0x90, 0x88, 0x46, 0xee, 0xb8, 0x14, 0xde, 0x5e, 0x0b, 0xdb,
    0xe0, 0x32, 0x3a, 0x0a, 0x49, 0x06, 0x24, 0x5c, 0xc2, 0xd3, 0xac, 0x62, 0x91, 0x95, 0xe4, 0x79,
    0xe7, 0xc8, 0x37, 0x6d, 0x8d, 0xd5, 0x4e, 0xa9, 0x6c, 0x56, 0xf4, 0xea, 0x65, 0x7a, 0xae, 0x08 ]
def sboxTab3 : List Byte :=
  [ 0xba, 0x78, 0x25, 0x2e, 0x1c, 0xa6, 0xb4, 0xc6, 0xe8, 0xdd, 0x74, 0x1f, 0x4b, 0xbd, 0x8b, 0x8a,
    0x70, 0x3e, 0xb5, 0x66, 0x48, 0x03, 0xf6, 0x0e, 0x61, 0x35, 0x57, 0xb9, 0x86, 0xc1, 0x1d, 0x9e,
    0xe1, 0xf8, 0x98, 0x11, 0x69, 0xd9, 0x8e, 0x94, 0x9b, 0x1e, 0x87, 0xe9, 0xce, 0x55, 0x28, 0xdf,
    0x8c, 0xa1, 0x89, 0x0d, 0xbf, 0xe6, 0x42, 0x68, 0x41, 0x99, 0x2d, 0x0f, 0xb0, 0x54, 0xbb, 0x16 ]

/-- The S-box of AES (FIPS 197). -/
def sboxTab : List Byte := sboxTab0 ++ sboxTab1 ++ sboxTab2 ++ sboxTab3

/-- SubBytes of one byte. -/
def sbox (b : Byte) : Byte := sboxTab[b.toNat]?.getD 0

/-- The inverse of SubBytes. -/
def invSbox (b : Byte) : Byte := BitVec.ofNat 8 ((sboxTab.idxOf? b).getD 0)

/-- Multiplication by x in GF(2^8). -/
def xtime (b : Byte) : Byte := if b.getLsbD 7 then (b <<< 1) ^^^ 0x1b else b <<< 1

/-- Multiplication in GF(2^8). -/
def gmul (a b : Byte) : Byte :=
  ((List.range 8).foldl (fun (acc : Byte × Byte) i =>
    (if b.getLsbD i then acc.1 ^^^ acc.2 else acc.1, xtime acc.2)) (0, a)).1

/-- Two byte strings added in GF(2). -/
def xorB (a b : List Byte) : List Byte := List.zipWith (· ^^^ ·) a b

/-- Byte `i` of a block. -/
def at_ (s : List Byte) (i : Nat) : Byte := s[i]?.getD 0

/-- ShiftRows, or its inverse with 3 for 1. -/
def shiftRows (k : Nat) (s : List Byte) : List Byte :=
  (List.range 16).map fun i => at_ s (4 * ((i / 4 + k * (i % 4)) % 4) + i % 4)

/-- MixColumns with the first row of its matrix. -/
def mixCols (m : List Byte) (s : List Byte) : List Byte :=
  (List.range 16).map fun i =>
    (List.range 4).foldl (fun acc j => acc ^^^ gmul (at_ m ((j + 4 - i % 4) % 4)) (at_ s (4 * (i / 4) + j))) 0

/-- Words of the expanded key, newest last, from the eight of the key. -/
def expandStep (rcon : Byte) (w : List (List Byte)) (i : Nat) : List (List Byte) × Byte :=
  let prev := w[i - 1]?.getD []
  let t := if i % 8 = 0 then
      xorB ((prev.drop 1 ++ prev.take 1).map sbox) [rcon, 0, 0, 0]
    else if i % 8 = 4 then prev.map sbox else prev
  (w ++ [xorB (w[i - 8]?.getD []) t], if i % 8 = 0 then xtime rcon else rcon)

/-- The 15 round keys. -/
def roundKeys (key : List Byte) : List (List Byte) :=
  let w0 := (List.range 8).map fun i => slice key (4 * i) 4
  let w := ((List.range 52).foldl (fun (acc : List (List Byte) × Byte) i => expandStep acc.2 acc.1 (i + 8)) (w0, 1)).1
  (List.range 15).map fun r => (w.drop (4 * r)).take 4 |>.flatten

/-- The cipher on one block. -/
def aesEnc (rk : List (List Byte)) (b : List Byte) : List Byte :=
  let s0 := xorB b (rk[0]?.getD [])
  let s := (List.range 13).foldl (fun s r =>
    xorB (mixCols [2, 3, 1, 1] (shiftRows 1 (s.map sbox))) (rk[r + 1]?.getD [])) s0
  xorB (shiftRows 1 (s.map sbox)) (rk[14]?.getD [])

/-- The inverse cipher on one block. -/
def aesDec (rk : List (List Byte)) (b : List Byte) : List Byte :=
  let s0 := xorB b (rk[14]?.getD [])
  let s := (List.range 13).foldl (fun s r =>
    mixCols [14, 11, 13, 9] (xorB ((shiftRows 3 s).map invSbox) (rk[13 - r]?.getD []))) s0
  xorB ((shiftRows 3 s).map invSbox) (rk[0]?.getD [])

/-! ## GCM -/

/-- Multiplication in the field of GHASH. -/
def ghMul (x y : BitVec 128) : BitVec 128 :=
  ((List.range 128).foldl (fun (acc : BitVec 128 × BitVec 128) i =>
    let z := if x.getLsbD (127 - i) then acc.1 ^^^ acc.2 else acc.1
    let v := if acc.2.getLsbD 0 then (acc.2 >>> 1) ^^^ 0xe1000000000000000000000000000000 else acc.2 >>> 1
    (z, v)) (0, y)).1

/-- Bytes cut into blocks of 16, the last one zero-padded. -/
def blocks (b : List Byte) : List (List Byte) := (List.range ((b.length + 15) / 16)).map fun i => slice b (16 * i) 16

/-- A block as a number. -/
def blk (b : List Byte) : BitVec 128 := BitVec.ofNat 128 (beNat b)

/-- GHASH over additional data and ciphertext. -/
def ghash (h : BitVec 128) (aad ct : List Byte) : BitVec 128 :=
  let lens := beBytes 8 (8 * aad.length) ++ beBytes 8 (8 * ct.length)
  (blocks aad ++ blocks ct ++ [lens]).foldl (fun y b => ghMul (y ^^^ blk b) h) 0

/-- Counter mode from counter block `iv ‖ n`. -/
def ctr (rk : List (List Byte)) (iv : List Byte) (n : Nat) (data : List Byte) : List Byte :=
  (List.range ((data.length + 15) / 16)).flatMap fun i =>
    xorB ((data.drop (16 * i)).take 16) (aesEnc rk (iv ++ beBytes 4 ((n + i) % 4294967296)))

/-- The tag over additional data and ciphertext under a 12-byte IV. -/
def gcmTag (rk : List (List Byte)) (iv aad ct : List Byte) : List Byte :=
  let h := blk (aesEnc rk (List.replicate 16 0))
  xorB (beBytes 16 (ghash h aad ct).toNat) (aesEnc rk (iv ++ beBytes 4 1))

/-- GCM encryption: ciphertext and tag. -/
def gcmEnc (key iv aad pt : List Byte) : List Byte × List Byte :=
  let rk := roundKeys key
  let ct := ctr rk iv 2 pt
  (ct, gcmTag rk iv aad ct)

/-- GCM decryption: plaintext, and whether the tag verifies. -/
def gcmDec (key iv aad ct tag : List Byte) : List Byte × Bool :=
  let rk := roundKeys key
  (ctr rk iv 2 ct, gcmTag rk iv aad ct == tag)

/-! ## AES-KW -/

/-- One step of the wrapping function. -/
def kwStep (rk : List (List Byte)) (a : List Byte) (r : List (List Byte)) (t i : Nat) : List Byte × List (List Byte) :=
  let b := aesEnc rk (a ++ (r[i]?.getD []))
  (xorB (b.take 8) (beBytes 8 t), upd r i (b.drop 8))

/-- AES-KW of a plaintext of whole 8-byte units. -/
def kwWrap (kek pt : List Byte) : List Byte :=
  let rk := roundKeys kek
  let n := pt.length / 8
  let r0 := (List.range n).map fun i => slice pt (8 * i) 8
  let (a, r) := (List.range (6 * n)).foldl (fun (acc : List Byte × List (List Byte)) j =>
    kwStep rk acc.1 acc.2 (j + 1) (j % n)) (List.replicate 8 0xA6, r0)
  a ++ r.flatten

/-- The inverse: the plaintext, when the check passes. -/
def kwUnwrap (kek ct : List Byte) : Option (List Byte) :=
  let rk := roundKeys kek
  let n := ct.length / 8 - 1
  let r0 := (List.range n).map fun i => slice ct (8 * (i + 1)) 8
  let (a, r) := (List.range (6 * n)).foldl (fun (acc : List Byte × List (List Byte)) j =>
    let t := 6 * n - j
    let i := (t - 1) % n
    let b := aesDec rk (xorB acc.1 (beBytes 8 t) ++ (acc.2[i]?.getD []))
    (b.take 8, upd acc.2 i (b.drop 8))) (ct.take 8, r0)
  if a = List.replicate 8 0xA6 then some r.flatten else none

/-! ## SHA-384 and HMAC -/

def shaK0 : List (BitVec 64) :=
  [ 0x428a2f98d728ae22, 0x7137449123ef65cd, 0xb5c0fbcfec4d3b2f, 0xe9b5dba58189dbbc,
    0x3956c25bf348b538, 0x59f111f1b605d019, 0x923f82a4af194f9b, 0xab1c5ed5da6d8118,
    0xd807aa98a3030242, 0x12835b0145706fbe, 0x243185be4ee4b28c, 0x550c7dc3d5ffb4e2,
    0x72be5d74f27b896f, 0x80deb1fe3b1696b1, 0x9bdc06a725c71235, 0xc19bf174cf692694,
    0xe49b69c19ef14ad2, 0xefbe4786384f25e3, 0x0fc19dc68b8cd5b5, 0x240ca1cc77ac9c65,
    0x2de92c6f592b0275, 0x4a7484aa6ea6e483, 0x5cb0a9dcbd41fbd4, 0x76f988da831153b5,
    0x983e5152ee66dfab, 0xa831c66d2db43210, 0xb00327c898fb213f, 0xbf597fc7beef0ee4,
    0xc6e00bf33da88fc2, 0xd5a79147930aa725, 0x06ca6351e003826f, 0x142929670a0e6e70,
    0x27b70a8546d22ffc, 0x2e1b21385c26c926, 0x4d2c6dfc5ac42aed, 0x53380d139d95b3df,
    0x650a73548baf63de, 0x766a0abb3c77b2a8, 0x81c2c92e47edaee6, 0x92722c851482353b ]
def shaK1 : List (BitVec 64) :=
  [ 0xa2bfe8a14cf10364, 0xa81a664bbc423001, 0xc24b8b70d0f89791, 0xc76c51a30654be30,
    0xd192e819d6ef5218, 0xd69906245565a910, 0xf40e35855771202a, 0x106aa07032bbd1b8,
    0x19a4c116b8d2d0c8, 0x1e376c085141ab53, 0x2748774cdf8eeb99, 0x34b0bcb5e19b48a8,
    0x391c0cb3c5c95a63, 0x4ed8aa4ae3418acb, 0x5b9cca4f7763e373, 0x682e6ff3d6b2b8a3,
    0x748f82ee5defb2fc, 0x78a5636f43172f60, 0x84c87814a1f0ab72, 0x8cc702081a6439ec,
    0x90befffa23631e28, 0xa4506cebde82bde9, 0xbef9a3f7b2c67915, 0xc67178f2e372532b,
    0xca273eceea26619c, 0xd186b8c721c0c207, 0xeada7dd6cde0eb1e, 0xf57d4f7fee6ed178,
    0x06f067aa72176fba, 0x0a637dc5a2c898a6, 0x113f9804bef90dae, 0x1b710b35131c471b,
    0x28db77f523047d84, 0x32caab7b40c72493, 0x3c9ebe0a15c9bebc, 0x431d67c49c100d4c,
    0x4cc5d4becb3e42b6, 0x597f299cfc657e2a, 0x5fcb6fab3ad6faec, 0x6c44198c4a475817 ]

/-- The round constants of SHA-384 (FIPS 180-4). -/
def shaK : List (BitVec 64) := shaK0 ++ shaK1

/-- The initial hash value of SHA-384. -/
def shaH : List (BitVec 64) :=
  [ 0xcbbb9d5dc1059ed8, 0x629a292a367cd507, 0x9159015a3070dd17, 0x152fecd8f70e5939,
    0x67332667ffc00b31, 0x8eb44a8768581511, 0xdb0c2e0d64f98fa7, 0x47b5481dbefa4fa4 ]

/-- Rotation right. -/
def ror (x : BitVec 64) (n : Nat) : BitVec 64 := (x >>> n) ||| (x <<< (64 - n))

/-- The message schedule of a block. -/
def schedule (b : List Byte) : List (BitVec 64) :=
  (List.range 64).foldl (fun w i =>
    let g := fun j => w[i + 16 - j]?.getD 0
    let s0 := ror (g 15) 1 ^^^ ror (g 15) 8 ^^^ (g 15 >>> 7)
    let s1 := ror (g 2) 19 ^^^ ror (g 2) 61 ^^^ (g 2 >>> 6)
    w ++ [g 16 + s0 + g 7 + s1]) ((List.range 16).map fun i => BitVec.ofNat 64 (beNat (slice b (8 * i) 8)))

/-- The compression function. -/
def compress (hs : List (BitVec 64)) (b : List Byte) : List (BitVec 64) :=
  let w := schedule b
  let out := (List.range 80).foldl (fun (s : List (BitVec 64)) t =>
    let g := fun j => s[j]?.getD 0
    let (a, e) := (g 0, g 4)
    let s1 := ror e 14 ^^^ ror e 18 ^^^ ror e 41
    let ch := (e &&& g 5) ^^^ (~~~ e &&& g 6)
    let t1 := g 7 + s1 + ch + shaK[t]?.getD 0 + w[t]?.getD 0
    let s0 := ror a 28 ^^^ ror a 34 ^^^ ror a 39
    let maj := (a &&& g 1) ^^^ (a &&& g 2) ^^^ (g 1 &&& g 2)
    [t1 + s0 + maj, a, g 1, g 2, g 3 + t1, e, g 5, g 6]) hs
  List.zipWith (· + ·) hs out

/-- SHA-384. -/
def sha384 (m : List Byte) : List Byte :=
  let pad := (239 - m.length % 128) % 128
  let p := m ++ [0x80] ++ List.replicate pad 0 ++ beBytes 16 (8 * m.length)
  let h := (List.range (p.length / 128)).foldl (fun hs i => compress hs (slice p (128 * i) 128)) shaH
  (h.take 6).flatMap fun x => beBytes 8 x.toNat

/-- HMAC-SHA-384. -/
def hmac (key m : List Byte) : List Byte :=
  let k := slice (if 128 < key.length then sha384 key else key) 0 128
  sha384 (k.map (· ^^^ 0x5c) ++ sha384 (k.map (· ^^^ 0x36) ++ m))

/-! ## ECDSA over P-384 -/

/-- The prime, the order, b and the base point. -/
def pP : Nat := 2 ^ 384 - 2 ^ 128 - 2 ^ 96 + 2 ^ 32 - 1
def pN : Nat := 0xffffffffffffffffffffffffffffffffffffffffffffffffc7634d81f4372ddf581a0db248b0a77aecec196accc52973
def pB : Nat := 0xb3312fa7e23ee7e4988e056be3f82d19181d9c6efe8141120314088f5013875ac656398d8a2ed19d2a85c8edd3ec2aef
def pG : Nat × Nat :=
  (0xaa87ca22be8b05378eb1c71ef320ad746e1d3b628ba79b9859f741e082542a385502f25dbf55296c3a545e3872760ab7,
   0x3617de4a96262c6f5d9e98bf9292dc29f8f41dbd289a147ce9da3113b5f0b8c00a60b1ce1d7e819d7a431d7c90ea0e5f)

/-- `b ^ e` modulo `m`, the exponent's low `n` bits. -/
def powMod (m b : Nat) : Nat → Nat → Nat
  | 0, _ => 1 % m
  | n + 1, e =>
    let h := powMod m b n (e / 2)
    if e % 2 = 1 then h * h % m * b % m else h * h % m

/-- The inverse modulo a 384-bit prime. -/
def invMod (m a : Nat) : Nat := powMod m (a % m) 384 (m - 2)

/-- Addition of points; `none` is the point at infinity. -/
def ptAdd : Option (Nat × Nat) → Option (Nat × Nat) → Option (Nat × Nat)
  | none, q => q
  | p, none => p
  | some (x1, y1), some (x2, y2) =>
    if x1 = x2 ∧ (y1 + y2) % pP = 0 then none
    else
      let l := if x1 = x2 then (3 * x1 * x1 + (pP - 3)) * invMod pP (2 * y1) % pP
        else (y2 + pP - y1) * invMod pP (x2 + pP - x1) % pP
      let x3 := (l * l + 2 * pP - x1 - x2) % pP
      some (x3, (l * (x1 + pP - x3) + pP - y1) % pP)

/-- A multiple of a point, the factor's low `n` bits. -/
def ptMul (p : Option (Nat × Nat)) : Nat → Nat → Option (Nat × Nat)
  | 0, _ => none
  | n + 1, k =>
    let h := ptMul p n (k / 2)
    let d := ptAdd h h
    if k % 2 = 1 then ptAdd d p else d

/-- The public key of a private key, uncompressed: 97 bytes. -/
def publicKey (d : Nat) : List Byte :=
  match ptMul (some pG) 384 d with
  | some (x, y) => 0x04 :: beBytes 48 x ++ beBytes 48 y
  | none => List.replicate 97 0

/-- A point is on the curve, with coordinates in range. -/
def onCurve (x y : Nat) : Bool :=
  decide (x < pP) && decide (y < pP) && y * y % pP == (x * x * x + (pP - 3) * x + pB) % pP

/-- The signature of a digest under a private key with the nonce `kk`: r then s, `none` for a nonce that FIPS 186-5
rejects. -/
def sign (d kk : Nat) (digest : List Byte) : Option (List Byte) :=
  match ptMul (some pG) 384 kk with
  | none => none
  | some (x, _) =>
    let r := x % pN
    let s := invMod pN kk * (beNat digest + r * d) % pN
    if r = 0 ∨ s = 0 then none else some (beBytes 48 r ++ beBytes 48 s)

/-- Verification of a signature over a digest with an uncompressed public key. -/
def verify (digest sig pub : List Byte) : Bool :=
  let r := beNat (slice sig 0 48)
  let s := beNat (slice sig 48 48)
  let x := beNat (slice pub 1 48)
  let y := beNat (slice pub 49 48)
  if pub.head? ≠ some 0x04 ∨ !onCurve x y ∨ r = 0 ∨ pN ≤ r ∨ s = 0 ∨ pN ≤ s then false
  else
    let w := invMod pN s
    match ptAdd (ptMul (some pG) 384 (beNat digest * w % pN)) (ptMul (some (x, y)) 384 (r * w % pN)) with
    | some (x1, _) => x1 % pN == r
    | none => false

/-! ## CTR_DRBG of AES-256 without derivation function -/

/-- V plus one. -/
def incV (v : List Byte) : List Byte := beBytes 16 ((beNat v + 1) % 2 ^ 128)

/-- `n` blocks of output, and V after them. -/
def drbgBlocks (rk : List (List Byte)) : Nat → List Byte → List Byte × List Byte
  | 0, v => ([], v)
  | n + 1, v =>
    let v1 := incV v
    let (o, v2) := drbgBlocks rk n v1
    (aesEnc rk v1 ++ o, v2)

/-- The update function: Key and V from 48 bytes of provided data. -/
def drbgUpdate (key v data : List Byte) : List Byte × List Byte :=
  let t := xorB (drbgBlocks (roundKeys key) 3 v).1 data
  (t.take 32, t.drop 32)

end Sys2Proof.Machine.Crypto
end

