-- ==== Sys2Proof/Machine/Regs.lean ====
section
/-!
DEFINITION. Machine/Regs.lean: BAR0 as the spec's register tables give it (R33 and the register table of
each chapter). First the page numbers and the address of every register, each under the spec's own name
behind its page's; then the same tables as rows of data (offset, repetition, reset value, and the mask of
the bits of each access code of R6), which the bus operations of `Machine/Ops.lean` read.
-/
namespace Sys2Proof.Machine.Reg

/-- The BAR0 offset of byte `off` of page `pg` (R33: a page is 64 KiB). -/
def at_ (pg off : Nat) : Nat := pg * 65536 + off

/-! ## Page numbers (R33) -/

/-- Page number of the chip page. -/
def pg_chip : Nat := 0x000
/-- Page number of the rstclk page. -/
def pg_rstclk : Nat := 0x001
/-- Page number of the pwr page. -/
def pg_pwr : Nat := 0x002
/-- Page number of the time page. -/
def pg_time : Nat := 0x003
/-- Page number of the life page. -/
def pg_life : Nat := 0x004
/-- Page number of the epoch page. -/
def pg_epoch : Nat := 0x005
/-- Page number of the mbx page. -/
def pg_mbx : Nat := 0x006
/-- Page number of the therm page. -/
def pg_therm : Nat := 0x007
/-- Page number of the fault page. -/
def pg_fault : Nat := 0x008
/-- Page number of the vault page. -/
def pg_vault : Nat := 0x010
/-- Page number of the switch page. -/
def pg_switch : Nat := 0x220
/-- Page number of the bufmgr page. -/
def pg_bufmgr : Nat := 0x221
/-- Page number of the mcast page. -/
def pg_mcast : Nat := 0x222
/-- Page number of the em page. -/
def pg_em : Nat := 0x231
/-- Page number of the pfx page. -/
def pg_pfx : Nat := 0x232
/-- Page number of the lb page. -/
def pg_lb : Nat := 0x23C
/-- Page number of the flume page. -/
def pg_flume : Nat := 0x240
/-- Page number of the spill page. -/
def pg_spill : Nat := 0x241
/-- Page number of the telemetry page. -/
def pg_telemetry : Nat := 0x250
/-- Page number of the ledger page. -/
def pg_ledger : Nat := 0x251
/-- Page number of the dma page. -/
def pg_dma : Nat := 0x260
/-- Page number of the upage page u. -/
def pg_upage (u : Nat) : Nat := 0x020 + u
/-- Page number of the lane page k. -/
def pg_lane (k : Nat) : Nat := 0x040 + k
/-- Page number of the port page p. -/
def pg_port (p : Nat) : Nat := 0x090 + p
/-- Page number of the ringblk page b. -/
def pg_ringblk (b : Nat) : Nat := 0x261 + b
/-- Page number of the reachCommon page r. -/
def pg_reachCommon (r : Nat) : Nat := 0x120 + 16 * r
/-- Page number of the parser page r. -/
def pg_parser (r : Nat) : Nat := 0x121 + 16 * r
/-- Page number of the weir page r. -/
def pg_weir (r : Nat) : Nat := 0x122 + 16 * r
/-- Page number of the sluice page r. -/
def pg_sluice (r : Nat) : Nat := 0x123 + 16 * r
/-- Page number of the sched page r. -/
def pg_sched (r : Nat) : Nat := 0x124 + 16 * r
/-- Page number of the wheel page r. -/
def pg_wheel (r : Nat) : Nat := 0x125 + 16 * r
/-- Page number of the gauge page r. -/
def pg_gauge (r : Nat) : Nat := 0x126 + 16 * r
/-- Page number of the level page r. -/
def pg_level (r : Nat) : Nat := 0x127 + 16 * r
/-- Page number of the trace page r. -/
def pg_trace (r : Nat) : Nat := 0x128 + 16 * r

/-! ## The page header (R38), by page number -/

def PAGE_ID (pg : Nat) : Nat := at_ pg 0x0
def PAGE_INST (pg : Nat) : Nat := at_ pg 0x4
def PAGE_CTL (pg : Nat) : Nat := at_ pg 0x8
def PAGE_STAT (pg : Nat) : Nat := at_ pg 0xC
def INT_CAUSE (pg : Nat) : Nat := at_ pg 0x10
def INT_ENABLE (pg : Nat) : Nat := at_ pg 0x14
def INT_FORCE (pg : Nat) : Nat := at_ pg 0x18
def INT_FIRST (pg : Nat) : Nat := at_ pg 0x1C
def ERR_CE_CNT (pg : Nat) : Nat := at_ pg 0x20
def ERR_UE_CNT (pg : Nat) : Nat := at_ pg 0x24
def ERR_ADDR (pg : Nat) : Nat := at_ pg 0x28
def ERR_SYND (pg : Nat) : Nat := at_ pg 0x2C
def SCRUB_CTL (pg : Nat) : Nat := at_ pg 0x30
def SCRUB_STAT (pg : Nat) : Nat := at_ pg 0x34

/-! ## chip (02_register_space.md R50) -/

def chip_CHIP_PART : Nat := at_ pg_chip 0x100
def chip_CHIP_STEP : Nat := at_ pg_chip 0x104
def chip_INT_PEND (i : Nat) : Nat := at_ pg_chip (0x800 + 0x4 * i)
def chip_VEC_REARM : Nat := at_ pg_chip 0x900
def chip_ACC_ADDR : Nat := at_ pg_chip 0x910
def chip_ACC_INFO : Nat := at_ pg_chip 0x914
def chip_INT_ROUTE (i : Nat) : Nat := at_ pg_chip (0x1000 + 0x4 * i)

/-! ## rstclk (22_reset_boot_clocks.md R529) -/

def rstclk_RST_CAUSE : Nat := at_ pg_rstclk 0x100
def rstclk_RST_CTL : Nat := at_ pg_rstclk 0x104
def rstclk_RST_BOOT : Nat := at_ pg_rstclk 0x108
def rstclk_PWR_CMD : Nat := at_ pg_rstclk 0x110
def rstclk_PWR_STAT : Nat := at_ pg_rstclk 0x114
def rstclk_PWR_STATUS : Nat := at_ pg_rstclk 0x118
def rstclk_DRAIN_CTL : Nat := at_ pg_rstclk 0x11C
def rstclk_QUIESCE_DROP_CNT : Nat := at_ pg_rstclk 0x120
def rstclk_REFCLK_STAT : Nat := at_ pg_rstclk 0x130
def rstclk_REFCLK_CTL : Nat := at_ pg_rstclk 0x134

/-! ## pwr (19_power_and_thermal.md R476) -/

def pwr_CAP_CTL : Nat := at_ pg_pwr 0x100
def pwr_FRAC0 : Nat := at_ pg_pwr 0x104
def pwr_FRAC1 : Nat := at_ pg_pwr 0x108
def pwr_FRAC_CMD : Nat := at_ pg_pwr 0x10C
def pwr_PACE_REQ : Nat := at_ pg_pwr 0x110
def pwr_PACE_STAT : Nat := at_ pg_pwr 0x114
def pwr_PACE_CFG : Nat := at_ pg_pwr 0x118
def pwr_PACE_CNT : Nat := at_ pg_pwr 0x11C
def pwr_DEFER_CNT : Nat := at_ pg_pwr 0x120
def pwr_DOM_EST (i : Nat) : Nat := at_ pg_pwr (0x130 + 0x4 * i)
def pwr_TOT_EST : Nat := at_ pg_pwr 0x150
def pwr_PMB_MEAS : Nat := at_ pg_pwr 0x154
def pwr_CAL_STAT : Nat := at_ pg_pwr 0x158
def pwr_CAL_CTL : Nat := at_ pg_pwr 0x15C
def pwr_PMB_DEV (i : Nat) : Nat := at_ pg_pwr (0x180 + 0x4 * i)
def pwr_PMB_ERR_CNT : Nat := at_ pg_pwr 0x1A0
def pwr_DROOP_CFG : Nat := at_ pg_pwr 0x1B0
def pwr_DROOP_CNT : Nat := at_ pg_pwr 0x1B4
def pwr_DROOP_CLK_CNT : Nat := at_ pg_pwr 0x1B8
def pwr_GRP_CTL : Nat := at_ pg_pwr 0x1C0
def pwr_GRP_STAT : Nat := at_ pg_pwr 0x1C4
def pwr_GRP_LOSS_CNT : Nat := at_ pg_pwr 0x1C8

/-! ## time (13_timebase_and_servo.md R351) -/

def time_TOD_SEC_LO : Nat := at_ pg_time 0x100
def time_TOD_SEC_HI : Nat := at_ pg_time 0x104
def time_TOD_NS : Nat := at_ pg_time 0x108
def time_TOD_FRAC : Nat := at_ pg_time 0x10C
def time_TIME_CLK_CTL : Nat := at_ pg_time 0x110
def time_TIME_CLK_STAT : Nat := at_ pg_time 0x114
def time_FREQ_MAN : Nat := at_ pg_time 0x118
def time_FREQ_APPLIED : Nat := at_ pg_time 0x11C
def time_FREQ_LIM : Nat := at_ pg_time 0x120
def time_SERVO_CTL : Nat := at_ pg_time 0x130
def time_SERVO_KP : Nat := at_ pg_time 0x134
def time_SERVO_KI : Nat := at_ pg_time 0x138
def time_SERVO_TH : Nat := at_ pg_time 0x13C
def time_SERVO_CNT_CFG : Nat := at_ pg_time 0x140
def time_SAMPLE_LO : Nat := at_ pg_time 0x148
def time_SAMPLE_HI : Nat := at_ pg_time 0x14C
def time_SERVO_STAT : Nat := at_ pg_time 0x150
def time_SERVO_I : Nat := at_ pg_time 0x154
def time_LAST_OFFSET_LO : Nat := at_ pg_time 0x158
def time_LAST_OFFSET_HI : Nat := at_ pg_time 0x15C
def time_SAMPLE_ACC_CNT : Nat := at_ pg_time 0x160
def time_SAMPLE_REJ_CNT : Nat := at_ pg_time 0x164
def time_GLIDE_CNT : Nat := at_ pg_time 0x168
def time_TOD_VOTE_CNT : Nat := at_ pg_time 0x16C
def time_COPY_ERR_CNT : Nat := at_ pg_time 0x170
def time_COPY_ERR_LAST : Nat := at_ pg_time 0x174
def time_STEP_SEC_LO : Nat := at_ pg_time 0x180
def time_STEP_SEC_HI : Nat := at_ pg_time 0x184
def time_STEP_NS : Nat := at_ pg_time 0x188
def time_STEP_FRAC : Nat := at_ pg_time 0x18C
def time_STEP_CMD : Nat := at_ pg_time 0x190
def time_STEP_STATUS : Nat := at_ pg_time 0x194
def time_STEP_LOG (i : Nat) : Nat := at_ pg_time (0x1A0 + 0x4 * i)
def time_STEP_LOG_INFO : Nat := at_ pg_time 0x1B8
def time_PPS_CTL : Nat := at_ pg_time 0x1C0
def time_PPS_OUT_OFF : Nat := at_ pg_time 0x1C4
def time_PPS_OUT_DLY : Nat := at_ pg_time 0x1C8
def time_PPS_IN_DLY : Nat := at_ pg_time 0x1CC
def time_PPS_IN_SEC : Nat := at_ pg_time 0x1D0
def time_PPS_IN_NS : Nat := at_ pg_time 0x1D4
def time_PPS_IN_FRAC : Nat := at_ pg_time 0x1D8
def time_PPS_IN_IGN_CNT : Nat := at_ pg_time 0x1DC
def time_PTPQ_BASE : Nat := at_ pg_time 0x200
def time_PTPQ_HEAD : Nat := at_ pg_time 0x204
def time_PTPQ_TAIL : Nat := at_ pg_time 0x208
def time_PTPQ_DROP_CNT : Nat := at_ pg_time 0x20C
def time_TXTS_PEND (i : Nat) : Nat := at_ pg_time (0x400 + 0x4 * i)

/-! ## life (21_security_lifecycle_debug.md R515) -/

def life_LC_STAT : Nat := at_ pg_life 0x100
def life_LC_CMD : Nat := at_ pg_life 0x104
def life_LC_STATUS : Nat := at_ pg_life 0x108
def life_DBG_REMAIN : Nat := at_ pg_life 0x10C
def life_DEVICE_ID (i : Nat) : Nat := at_ pg_life (0x120 + 0x4 * i)
def life_DBG_CHAL (i : Nat) : Nat := at_ pg_life (0x140 + 0x4 * i)
def life_TOKEN_BUF (i : Nat) : Nat := at_ pg_life (0x200 + 0x4 * i)
def life_CUST_KEY_STAT (i : Nat) : Nat := at_ pg_life (0x400 + 0x4 * i)
def life_CUST_KEY_HASH (i : Nat) (j : Nat) : Nat := at_ pg_life (0x440 + 0x40 * i + 0x4 * j)
def life_SVN_FLOOR (i : Nat) : Nat := at_ pg_life (0x540 + 0x4 * i)
def life_BOOT_STAT : Nat := at_ pg_life 0x580
def life_RECOV_ADDR_LO : Nat := at_ pg_life 0x584
def life_RECOV_ADDR_HI : Nat := at_ pg_life 0x588
def life_RECOV_LEN : Nat := at_ pg_life 0x58C
def life_RECOV_CMD : Nat := at_ pg_life 0x590
def life_RECOV_STATUS : Nat := at_ pg_life 0x594
def life_ATT_PUB (i : Nat) : Nat := at_ pg_life (0x600 + 0x4 * i)
def life_FRZ_CTL : Nat := at_ pg_life 0x700
def life_FRZ_STAT : Nat := at_ pg_life 0x704
def life_FRZ_SEC : Nat := at_ pg_life 0x708
def life_FRZ_NS : Nat := at_ pg_life 0x70C
def life_FRZ_CLR : Nat := at_ pg_life 0x710

/-! ## epoch (18_configuration_epochs.md R453) -/

def epoch_EPOCH_CMD : Nat := at_ pg_epoch 0x100
def epoch_EPOCH_STATUS : Nat := at_ pg_epoch 0x104
def epoch_EPOCH_STAT : Nat := at_ pg_epoch 0x108
def epoch_EPOCH_PREV : Nat := at_ pg_epoch 0x10C
def epoch_INFLIGHT_CNT : Nat := at_ pg_epoch 0x110
def epoch_RETIRE_TMO_CNT : Nat := at_ pg_epoch 0x114
def epoch_JNL_STAT : Nat := at_ pg_epoch 0x120
def epoch_JNL_CTL : Nat := at_ pg_epoch 0x124
def epoch_JNL_UNDO_FAIL_CNT : Nat := at_ pg_epoch 0x128
def epoch_JNL_FAIL_SEQ : Nat := at_ pg_epoch 0x12C

/-! ## mbx (16_mailboxes_and_locks.md R410) -/

def mbx_MBX_PTR (i : Nat) (j : Nat) : Nat := at_ pg_mbx (0x100 + 0x20 * i + 0x4 * j)
def mbx_MBX_STAT (i : Nat) : Nat := at_ pg_mbx (0x110 + 0x20 * i)
def mbx_MBX_ACK (i : Nat) : Nat := at_ pg_mbx (0x114 + 0x20 * i)
def mbx_RSPWIN_LO (i : Nat) : Nat := at_ pg_mbx (0x500 + 0x10 * i)
def mbx_RSPWIN_HI (i : Nat) : Nat := at_ pg_mbx (0x504 + 0x10 * i)
def mbx_RSPWIN_SIZE (i : Nat) : Nat := at_ pg_mbx (0x508 + 0x10 * i)
def mbx_POST_W (i : Nat) : Nat := at_ pg_mbx (0x600 + 0x4 * i)
def mbx_POST_CMD : Nat := at_ pg_mbx 0x610
def mbx_POST_RES : Nat := at_ pg_mbx 0x614
def mbx_POST_PEND : Nat := at_ pg_mbx 0x700
def mbx_ACK_PEND : Nat := at_ pg_mbx 0x704
def mbx_TMO_PEND : Nat := at_ pg_mbx 0x708
def mbx_XOVER_PEND : Nat := at_ pg_mbx 0x70C
def mbx_ACK_TMO_CNT : Nat := at_ pg_mbx 0x710
def mbx_XOVER_CNT : Nat := at_ pg_mbx 0x714
def mbx_LOCK_ERR_CNT : Nat := at_ pg_mbx 0x718
def mbx_LOCK_ERR_LAST : Nat := at_ pg_mbx 0x71C
def mbx_LOCK (i : Nat) : Nat := at_ pg_mbx (0x800 + 0x4 * i)
def mbx_LOCK_OWNER (i : Nat) : Nat := at_ pg_mbx (0x900 + 0x4 * i)
def mbx_LOCK_BREAK : Nat := at_ pg_mbx 0xA00

/-! ## therm (19_power_and_thermal.md R478) -/

def therm_TSENS (i : Nat) : Nat := at_ pg_therm (0x100 + 0x4 * i)
def therm_TJ_MAX : Nat := at_ pg_therm 0x180
def therm_TJ_PEAK : Nat := at_ pg_therm 0x184
def therm_THERM_WARN_TH : Nat := at_ pg_therm 0x190
def therm_THERM_STAT : Nat := at_ pg_therm 0x194
def therm_THERM_CLR : Nat := at_ pg_therm 0x198

/-! ## fault (20_reliability_and_faults.md R495) -/

def fault_FAULT_SUM (i : Nat) : Nat := at_ pg_fault (0x100 + 0x4 * i)
def fault_FIRST_FATAL : Nat := at_ pg_fault 0x180
def fault_FIRST_FATAL_NS : Nat := at_ pg_fault 0x184
def fault_FIRST_FATAL_SEC : Nat := at_ pg_fault 0x188
def fault_FATAL_CNT : Nat := at_ pg_fault 0x18C
def fault_DLINK_STAT : Nat := at_ pg_fault 0x190
def fault_DLINK_RETRY_CNT : Nat := at_ pg_fault 0x194
def fault_DLINK_CMD : Nat := at_ pg_fault 0x198
def fault_DLINK_STATUS : Nat := at_ pg_fault 0x19C
def fault_CLASSA_STAT : Nat := at_ pg_fault 0x1A0

/-! ## vault (17_cipher.md R434) -/

def vault_VLT_CFG : Nat := at_ pg_vault 0x100
def vault_VLT_STAT : Nat := at_ pg_vault 0x104
def vault_ZEROIZE : Nat := at_ pg_vault 0x108
def vault_KAT_STAT : Nat := at_ pg_vault 0x10C
def vault_DUP_CNT : Nat := at_ pg_vault 0x110
def vault_HEALTH_FAIL_CNT : Nat := at_ pg_vault 0x114
def vault_JOB_CNT_LO : Nat := at_ pg_vault 0x118
def vault_JOB_CNT_HI : Nat := at_ pg_vault 0x11C
def vault_UP_OWNER (i : Nat) : Nat := at_ pg_vault (0x200 + 0x4 * i)

/-! ## upage (17_cipher.md R435) -/

def upage_JOB_CMD (u : Nat) : Nat := at_ (pg_upage u) 0x100
def upage_JOB_STATUS (u : Nat) : Nat := at_ (pg_upage u) 0x104
def upage_JOB_DESC (u : Nat) (i : Nat) : Nat := at_ (pg_upage u) (0x140 + 0x4 * i)
def upage_SLOT_INFO (u : Nat) (i : Nat) : Nat := at_ (pg_upage u) (0x200 + 0x4 * i)
def upage_SLOT_CTR_LO (u : Nat) (i : Nat) : Nat := at_ (pg_upage u) (0x240 + 0x8 * i)
def upage_SLOT_CTR_HI (u : Nat) (i : Nat) : Nat := at_ (pg_upage u) (0x244 + 0x8 * i)

/-! ## lane (03_ports_and_lanes.md R84) -/

def lane_LB_STAT (k : Nat) : Nat := at_ (pg_lane k) 0x100
def lane_LN_CFG (k : Nat) (i : Nat) : Nat := at_ (pg_lane k) (0x1000 + 0x100 * i)
def lane_LN_STAT (k : Nat) (i : Nat) : Nat := at_ (pg_lane k) (0x1004 + 0x100 * i)
def lane_TX_EQ (k : Nat) (i : Nat) : Nat := at_ (pg_lane k) (0x1008 + 0x100 * i)
def lane_TX_EQ_LIVE (k : Nat) (i : Nat) : Nat := at_ (pg_lane k) (0x100C + 0x100 * i)
def lane_RX_ADAPT (k : Nat) (i : Nat) : Nat := at_ (pg_lane k) (0x1010 + 0x100 * i)
def lane_EYE_MARGIN (k : Nat) (i : Nat) : Nat := at_ (pg_lane k) (0x1014 + 0x100 * i)
def lane_SLIP (k : Nat) (i : Nat) : Nat := at_ (pg_lane k) (0x1018 + 0x100 * i)
def lane_SLIP_STAT (k : Nat) (i : Nat) : Nat := at_ (pg_lane k) (0x101C + 0x100 * i)
def lane_PRBS_CTL (k : Nat) (i : Nat) : Nat := at_ (pg_lane k) (0x1020 + 0x100 * i)
def lane_PRBS_STAT (k : Nat) (i : Nat) : Nat := at_ (pg_lane k) (0x1024 + 0x100 * i)
def lane_PRBS_ERR_CNT (k : Nat) (i : Nat) : Nat := at_ (pg_lane k) (0x1028 + 0x100 * i)
def lane_LN_EV (k : Nat) (i : Nat) : Nat := at_ (pg_lane k) (0x102C + 0x100 * i)
def lane_USER_PAT_LO (k : Nat) (i : Nat) : Nat := at_ (pg_lane k) (0x1030 + 0x100 * i)
def lane_USER_PAT_HI (k : Nat) (i : Nat) : Nat := at_ (pg_lane k) (0x1034 + 0x100 * i)
def lane_LN_RX_DLY (k : Nat) (i : Nat) : Nat := at_ (pg_lane k) (0x1040 + 0x100 * i)
def lane_LN_TX_DLY (k : Nat) (i : Nat) : Nat := at_ (pg_lane k) (0x1044 + 0x100 * i)
def lane_BRD_RX_DLY (k : Nat) (i : Nat) : Nat := at_ (pg_lane k) (0x1048 + 0x100 * i)
def lane_BRD_TX_DLY (k : Nat) (i : Nat) : Nat := at_ (pg_lane k) (0x104C + 0x100 * i)

/-! ## port (03_ports_and_lanes.md R86) -/

def port_PORT_MODE (p : Nat) : Nat := at_ (pg_port p) 0x100
def port_PORT_ADMIN (p : Nat) : Nat := at_ (pg_port p) 0x104
def port_PORT_AN (p : Nat) : Nat := at_ (pg_port p) 0x108
def port_PORT_HOLD (p : Nat) : Nat := at_ (pg_port p) 0x10C
def port_LINK_STAT (p : Nat) (i : Nat) : Nat := at_ (pg_port p) (0x110 + 0x4 * i)
def port_PWR_REQ (p : Nat) (i : Nat) : Nat := at_ (pg_port p) (0x130 + 0x4 * i)
def port_PORT_RX_DLY (p : Nat) (i : Nat) : Nat := at_ (pg_port p) (0x150 + 0x8 * i)
def port_PORT_TX_DLY (p : Nat) (i : Nat) : Nat := at_ (pg_port p) (0x154 + 0x8 * i)
def port_FEC_CTL (p : Nat) : Nat := at_ (pg_port p) 0x190
def port_FEC_CORR_CNT (p : Nat) (i : Nat) : Nat := at_ (pg_port p) (0x1A0 + 0x8 * i)
def port_FEC_UNCORR_CNT (p : Nat) (i : Nat) : Nat := at_ (pg_port p) (0x1A4 + 0x8 * i)
def port_LINK_CNT (p : Nat) (i : Nat) : Nat := at_ (pg_port p) (0x1E0 + 0x4 * i)
def port_MAC_CTL (p : Nat) : Nat := at_ (pg_port p) 0x200
def port_RX_OK_CNT_LO (p : Nat) (i : Nat) : Nat := at_ (pg_port p) (0x400 + 0x40 * i)
def port_RX_OK_CNT_HI (p : Nat) (i : Nat) : Nat := at_ (pg_port p) (0x404 + 0x40 * i)
def port_TX_OK_CNT_LO (p : Nat) (i : Nat) : Nat := at_ (pg_port p) (0x408 + 0x40 * i)
def port_TX_OK_CNT_HI (p : Nat) (i : Nat) : Nat := at_ (pg_port p) (0x40C + 0x40 * i)
def port_RX_FCS_ERR_CNT (p : Nat) (i : Nat) : Nat := at_ (pg_port p) (0x410 + 0x40 * i)
def port_RX_OVERSIZE_CNT (p : Nat) (i : Nat) : Nat := at_ (pg_port p) (0x414 + 0x40 * i)
def port_RX_UNDERSIZE_CNT (p : Nat) (i : Nat) : Nat := at_ (pg_port p) (0x418 + 0x40 * i)
def port_FC_CTL (p : Nat) (i : Nat) : Nat := at_ (pg_port p) (0x800 + 0x4 * i)
def port_FC_TIME (p : Nat) (i : Nat) : Nat := at_ (pg_port p) (0x820 + 0x4 * i)
def port_FC_ARR (p : Nat) (i : Nat) : Nat := at_ (pg_port p) (0x840 + 0x4 * i)
def port_HDRM_TH (p : Nat) (i : Nat) (j : Nat) : Nat := at_ (pg_port p) (0x860 + 0x10 * i + 0x4 * j)
def port_HDRM_USE (p : Nat) (i : Nat) (j : Nat) : Nat := at_ (pg_port p) (0x900 + 0x10 * i + 0x4 * j)
def port_FC_STAT (p : Nat) (i : Nat) : Nat := at_ (pg_port p) (0x980 + 0x4 * i)
def port_PFC_TX_CNT (p : Nat) (i : Nat) : Nat := at_ (pg_port p) (0x9A0 + 0x8 * i)
def port_PFC_RX_CNT (p : Nat) (i : Nat) : Nat := at_ (pg_port p) (0x9A4 + 0x8 * i)
def port_HDRM_DROP_PORT_CNT (p : Nat) (i : Nat) : Nat := at_ (pg_port p) (0x9E0 + 0x4 * i)
def port_DSCP_MAP (p : Nat) (i : Nat) : Nat := at_ (pg_port p) (0xA00 + 0x4 * i)
def port_FC_SA_LO (p : Nat) : Nat := at_ (pg_port p) 0xA20
def port_FC_SA_HI (p : Nat) : Nat := at_ (pg_port p) 0xA24
def port_MACCTL_OTHER_CNT (p : Nat) (i : Nat) : Nat := at_ (pg_port p) (0xA40 + 0x4 * i)
def port_MSC_CTL (p : Nat) (i : Nat) : Nat := at_ (pg_port p) (0x1000 + 0x4 * i)
def port_REPLAY_WIN (p : Nat) (i : Nat) : Nat := at_ (pg_port p) (0x1020 + 0x4 * i)
def port_TX_SCI_LO (p : Nat) (i : Nat) : Nat := at_ (pg_port p) (0x1040 + 0x8 * i)
def port_TX_SCI_HI (p : Nat) (i : Nat) : Nat := at_ (pg_port p) (0x1044 + 0x8 * i)
def port_BYPASS_ETYPE (p : Nat) : Nat := at_ (pg_port p) 0x1080
def port_PN_WARN_TH (p : Nat) : Nat := at_ (pg_port p) 0x1084
def port_MSC_PEND (p : Nat) : Nat := at_ (pg_port p) 0x1088
def port_SA_CMD (p : Nat) : Nat := at_ (pg_port p) 0x1100
def port_SA_STATUS (p : Nat) : Nat := at_ (pg_port p) 0x1104
def port_SA_SALT (p : Nat) (i : Nat) : Nat := at_ (pg_port p) (0x1110 + 0x4 * i)
def port_SA_SSCI (p : Nat) : Nat := at_ (pg_port p) 0x111C
def port_SA_PN_LO (p : Nat) : Nat := at_ (pg_port p) 0x1120
def port_SA_PN_HI (p : Nat) : Nat := at_ (pg_port p) 0x1124
def port_SA_KEY (p : Nat) (i : Nat) : Nat := at_ (pg_port p) (0x1140 + 0x4 * i)
def port_RXSC_SCI_LO (p : Nat) (i : Nat) (j : Nat) : Nat := at_ (pg_port p) (0x1200 + 0x40 * i + 0x10 * j)
def port_RXSC_SCI_HI (p : Nat) (i : Nat) (j : Nat) : Nat := at_ (pg_port p) (0x1204 + 0x40 * i + 0x10 * j)
def port_RXSC_CTL (p : Nat) (i : Nat) (j : Nat) : Nat := at_ (pg_port p) (0x1208 + 0x40 * i + 0x10 * j)
def port_OUT_PROT_CNT_LO (p : Nat) (i : Nat) : Nat := at_ (pg_port p) (0x1400 + 0x40 * i)
def port_OUT_PROT_CNT_HI (p : Nat) (i : Nat) : Nat := at_ (pg_port p) (0x1404 + 0x40 * i)
def port_IN_OK_CNT_LO (p : Nat) (i : Nat) : Nat := at_ (pg_port p) (0x1408 + 0x40 * i)
def port_IN_OK_CNT_HI (p : Nat) (i : Nat) : Nat := at_ (pg_port p) (0x140C + 0x40 * i)
def port_IN_X_CNT (p : Nat) (i : Nat) (j : Nat) : Nat := at_ (pg_port p) (0x1410 + 0x40 * i + 0x4 * j)
def port_SA_INUSE (p : Nat) (i : Nat) : Nat := at_ (pg_port p) (0x1600 + 0x4 * i)
def port_TS_CTL (p : Nat) (i : Nat) : Nat := at_ (pg_port p) (0x2000 + 0x4 * i)
def port_LINK_DLY (p : Nat) (i : Nat) : Nat := at_ (pg_port p) (0x2020 + 0x4 * i)
def port_TXTS_NS (p : Nat) (i : Nat) : Nat := at_ (pg_port p) (0x2040 + 0x10 * i)
def port_TXTS_SEC (p : Nat) (i : Nat) : Nat := at_ (pg_port p) (0x2044 + 0x10 * i)
def port_TXTS_INFO (p : Nat) (i : Nat) : Nat := at_ (pg_port p) (0x2048 + 0x10 * i)
def port_TXTS_FRAC (p : Nat) (i : Nat) : Nat := at_ (pg_port p) (0x204C + 0x10 * i)
def port_TS_CNT (p : Nat) (i : Nat) : Nat := at_ (pg_port p) (0x20C0 + 0x4 * i)

/-! ## reachCommon (02_register_space.md R33) -/


/-! ## parser (04_parser_and_load_balance.md R107) -/

def parser_PARSE_CTL (r : Nat) : Nat := at_ (pg_parser r) 0x100
def parser_EXC_ACT (r : Nat) : Nat := at_ (pg_parser r) 0x104
def parser_EXC_CNT (r : Nat) (i : Nat) : Nat := at_ (pg_parser r) (0x144 + 0x4 * i)
def parser_BUNDLE_SLIP_CNT (r : Nat) : Nat := at_ (pg_parser r) 0x180
def parser_HDR_OVR_CNT (r : Nat) : Nat := at_ (pg_parser r) 0x184
def parser_PSTART (r : Nat) (i : Nat) : Nat := at_ (pg_parser r) (0x200 + 0x4 * i)
def parser_HCFG (r : Nat) (i : Nat) : Nat := at_ (pg_parser r) (0x2000 + 0x80 * i)
def parser_HSEED (r : Nat) (i : Nat) : Nat := at_ (pg_parser r) (0x2004 + 0x80 * i)
def parser_HFIELD (r : Nat) (i : Nat) (j : Nat) : Nat := at_ (pg_parser r) (0x2040 + 0x80 * i + 0x4 * j)
def parser_KEY (r : Nat) (i : Nat) (j : Nat) : Nat := at_ (pg_parser r) (0x4000 + 0x800 * i + 0x4 * j)
def parser_NODE_W0 (r : Nat) (i : Nat) : Nat := at_ (pg_parser r) (0x8000 + 0x10 * i)
def parser_NODE_W1 (r : Nat) (i : Nat) : Nat := at_ (pg_parser r) (0x8004 + 0x10 * i)
def parser_NODE_W2 (r : Nat) (i : Nat) : Nat := at_ (pg_parser r) (0x8008 + 0x10 * i)
def parser_NODE_W3 (r : Nat) (i : Nat) : Nat := at_ (pg_parser r) (0x800C + 0x10 * i)
def parser_TR_VAL (r : Nat) (i : Nat) : Nat := at_ (pg_parser r) (0x9000 + 0x10 * i)
def parser_TR_MASK (r : Nat) (i : Nat) : Nat := at_ (pg_parser r) (0x9004 + 0x10 * i)
def parser_TR_NEXT (r : Nat) (i : Nat) : Nat := at_ (pg_parser r) (0x9008 + 0x10 * i)
def parser_EXT (r : Nat) (i : Nat) : Nat := at_ (pg_parser r) (0xD000 + 0x4 * i)

/-! ## weir (05_weir_engines.md R144) -/

def weir_CS_ADDR (r : Nat) : Nat := at_ (pg_weir r) 0x100
def weir_CS_CMD (r : Nat) : Nat := at_ (pg_weir r) 0x104
def weir_CS_STATUS (r : Nat) : Nat := at_ (pg_weir r) 0x108
def weir_CS_DATA (r : Nat) (i : Nat) : Nat := at_ (pg_weir r) (0x120 + 0x4 * i)
def weir_ENTRY (r : Nat) (i : Nat) : Nat := at_ (pg_weir r) (0x200 + 0x4 * i)
def weir_RECIRC_CTL (r : Nat) : Nat := at_ (pg_weir r) 0x240
def weir_RECIRC_CNT (r : Nat) : Nat := at_ (pg_weir r) 0x244
def weir_RECIRC_LIMIT_CNT (r : Nat) : Nat := at_ (pg_weir r) 0x248
def weir_BEAT_OVR_CNT (r : Nat) (i : Nat) : Nat := at_ (pg_weir r) (0x280 + 0x4 * i)
def weir_WEIR_FAULT_CNT (r : Nat) (i : Nat) : Nat := at_ (pg_weir r) (0x2C0 + 0x4 * i)
def weir_ISSUE_DROP_CNT (r : Nat) (i : Nat) : Nat := at_ (pg_weir r) (0x300 + 0x4 * i)
def weir_OVR_LAST (r : Nat) : Nat := at_ (pg_weir r) 0x340
def weir_FAULT_LAST (r : Nat) : Nat := at_ (pg_weir r) 0x344
def weir_ILL_LAST (r : Nat) : Nat := at_ (pg_weir r) 0x348
def weir_TBL_BIND (r : Nat) (i : Nat) : Nat := at_ (pg_weir r) (0x404 + 0x4 * i)
def weir_KPROF_A (r : Nat) (i : Nat) : Nat := at_ (pg_weir r) (0x500 + 0x8 * i)
def weir_KPROF_B (r : Nat) (i : Nat) : Nat := at_ (pg_weir r) (0x504 + 0x8 * i)
def weir_CR (r : Nat) (i : Nat) (j : Nat) : Nat := at_ (pg_weir r) (0x800 + 0x80 * i + 0x4 * j)
def weir_MP_BASE (r : Nat) (i : Nat) : Nat := at_ (pg_weir r) (0x1000 + 0x10 * i)
def weir_MP_CFG (r : Nat) (i : Nat) : Nat := at_ (pg_weir r) (0x1004 + 0x10 * i)
def weir_MTR_CMD (r : Nat) : Nat := at_ (pg_weir r) 0x1800
def weir_MTR_STATUS (r : Nat) : Nat := at_ (pg_weir r) 0x1804
def weir_MTR_DATA_RATE (r : Nat) (i : Nat) : Nat := at_ (pg_weir r) (0x1810 + 0x4 * i)
def weir_MTR_DATA_BURST (r : Nat) (i : Nat) : Nat := at_ (pg_weir r) (0x1818 + 0x4 * i)
def weir_CNT_CMD (r : Nat) : Nat := at_ (pg_weir r) 0x1900
def weir_CNT_STATUS (r : Nat) : Nat := at_ (pg_weir r) 0x1904
def weir_CNT_DATA (r : Nat) (i : Nat) : Nat := at_ (pg_weir r) (0x1910 + 0x4 * i)

/-! ## sluice (06_sluice_engines.md R170) -/

def sluice_SL_CTL (r : Nat) : Nat := at_ (pg_sluice r) 0x100
def sluice_SL_STAT (r : Nat) : Nat := at_ (pg_sluice r) 0x104
def sluice_IMG_ADDR_LO (r : Nat) : Nat := at_ (pg_sluice r) 0x108
def sluice_IMG_ADDR_HI (r : Nat) : Nat := at_ (pg_sluice r) 0x10C
def sluice_IMG_LEN (r : Nat) : Nat := at_ (pg_sluice r) 0x110
def sluice_IMG_CMD (r : Nat) : Nat := at_ (pg_sluice r) 0x114
def sluice_IMG_STATUS (r : Nat) : Nat := at_ (pg_sluice r) 0x118
def sluice_IMG_VERSION (r : Nat) : Nat := at_ (pg_sluice r) 0x11C
def sluice_IMG_SVN (r : Nat) : Nat := at_ (pg_sluice r) 0x120
def sluice_HB_CTL (r : Nat) : Nat := at_ (pg_sluice r) 0x130
def sluice_REQ_TMO (r : Nat) : Nat := at_ (pg_sluice r) 0x134
def sluice_HOSTWIN_BASE_LO (r : Nat) : Nat := at_ (pg_sluice r) 0x150
def sluice_HOSTWIN_BASE_HI (r : Nat) : Nat := at_ (pg_sluice r) 0x154
def sluice_HOSTWIN_LIM_LO (r : Nat) : Nat := at_ (pg_sluice r) 0x158
def sluice_HOSTWIN_LIM_HI (r : Nat) : Nat := at_ (pg_sluice r) 0x15C
def sluice_FLUMEWIN_BASE (r : Nat) : Nat := at_ (pg_sluice r) 0x160
def sluice_FLUMEWIN_LIM (r : Nat) : Nat := at_ (pg_sluice r) 0x164
def sluice_THREAD_CTL (r : Nat) (i : Nat) : Nat := at_ (pg_sluice r) (0x200 + 0x10 * i)
def sluice_THREAD_HANDLER (r : Nat) (i : Nat) : Nat := at_ (pg_sluice r) (0x204 + 0x10 * i)
def sluice_THREAD_STAT (r : Nat) (i : Nat) : Nat := at_ (pg_sluice r) (0x208 + 0x10 * i)
def sluice_WAIT_SET (r : Nat) (i : Nat) : Nat := at_ (pg_sluice r) (0x20C + 0x10 * i)
def sluice_TIMER_PER (r : Nat) (i : Nat) : Nat := at_ (pg_sluice r) (0x240 + 0x8 * i)
def sluice_TIMER_CTL (r : Nat) (i : Nat) : Nat := at_ (pg_sluice r) (0x244 + 0x8 * i)
def sluice_SL_EVENT (r : Nat) : Nat := at_ (pg_sluice r) 0x260
def sluice_SL_EVENT_EN (r : Nat) : Nat := at_ (pg_sluice r) 0x264
def sluice_SL_EVENT_THR (r : Nat) : Nat := at_ (pg_sluice r) 0x268
def sluice_SL_WATCH (r : Nat) (i : Nat) : Nat := at_ (pg_sluice r) (0x280 + 0x4 * i)
def sluice_DS_ADDR (r : Nat) : Nat := at_ (pg_sluice r) 0x300
def sluice_DS_DATA (r : Nat) : Nat := at_ (pg_sluice r) 0x304
def sluice_CS_ADDR (r : Nat) : Nat := at_ (pg_sluice r) 0x310
def sluice_CS_CMD (r : Nat) : Nat := at_ (pg_sluice r) 0x314
def sluice_CS_STATUS (r : Nat) : Nat := at_ (pg_sluice r) 0x318
def sluice_CS_DATA (r : Nat) (i : Nat) : Nat := at_ (pg_sluice r) (0x320 + 0x4 * i)
def sluice_WORD_CNT_LO (r : Nat) : Nat := at_ (pg_sluice r) 0x400
def sluice_WORD_CNT_HI (r : Nat) : Nat := at_ (pg_sluice r) 0x404
def sluice_WAIT_TMO_CNT (r : Nat) : Nat := at_ (pg_sluice r) 0x408
def sluice_ILLEGAL_CNT (r : Nat) : Nat := at_ (pg_sluice r) 0x40C
def sluice_DENIED_CNT (r : Nat) : Nat := at_ (pg_sluice r) 0x410
def sluice_ABORT_CNT (r : Nat) : Nat := at_ (pg_sluice r) 0x414
def sluice_RESTART_CNT (r : Nat) : Nat := at_ (pg_sluice r) 0x418
def sluice_ABORT_INFO (r : Nat) : Nat := at_ (pg_sluice r) 0x420

/-! ## sched (11_scheduling_and_shaping.md R301) -/

def sched_SCH_STAT (r : Nat) : Nat := at_ (pg_sched r) 0x100
def sched_GATE_OVERSIZE_CNT (r : Nat) : Nat := at_ (pg_sched r) 0x110
def sched_GATE_OVERRUN_CNT (r : Nat) : Nat := at_ (pg_sched r) 0x114
def sched_GROW_EXCEED_CNT (r : Nat) : Nat := at_ (pg_sched r) 0x118
def sched_PREEMPT_CNT (r : Nat) : Nat := at_ (pg_sched r) 0x11C
def sched_GATE_ADDR (r : Nat) : Nat := at_ (pg_sched r) 0x120
def sched_GATE_CMD (r : Nat) : Nat := at_ (pg_sched r) 0x124
def sched_GATE_STATUS (r : Nat) : Nat := at_ (pg_sched r) 0x128
def sched_GATE_DATA_OPEN (r : Nat) : Nat := at_ (pg_sched r) 0x130
def sched_GATE_DATA_CLOSE (r : Nat) : Nat := at_ (pg_sched r) 0x134
def sched_GATE_DATA_MASK (r : Nat) : Nat := at_ (pg_sched r) 0x138
def sched_GATE_DATA_RSV (r : Nat) : Nat := at_ (pg_sched r) 0x13C
def sched_SCH_PCFG (r : Nat) (i : Nat) : Nat := at_ (pg_sched r) (0x1000 + 0x20 * i)
def sched_MQ_MAP (r : Nat) (i : Nat) : Nat := at_ (pg_sched r) (0x1004 + 0x20 * i)
def sched_GATED (r : Nat) (i : Nat) : Nat := at_ (pg_sched r) (0x1008 + 0x20 * i)
def sched_GCYCLE (r : Nat) (i : Nat) : Nat := at_ (pg_sched r) (0x100C + 0x20 * i)
def sched_GBASE_NS (r : Nat) (i : Nat) : Nat := at_ (pg_sched r) (0x1010 + 0x20 * i)
def sched_GBASE_SEC_LO (r : Nat) (i : Nat) : Nat := at_ (pg_sched r) (0x1014 + 0x20 * i)
def sched_GBASE_SEC_HI (r : Nat) (i : Nat) : Nat := at_ (pg_sched r) (0x1018 + 0x20 * i)
def sched_PMAC_STAT (r : Nat) (i : Nat) : Nat := at_ (pg_sched r) (0x101C + 0x20 * i)
def sched_QUANTUM (r : Nat) (i : Nat) : Nat := at_ (pg_sched r) (0x2000 + 0x4 * i)
def sched_DEFICIT (r : Nat) (i : Nat) : Nat := at_ (pg_sched r) (0x4000 + 0x4 * i)

/-! ## wheel (11_scheduling_and_shaping.md R303) -/

def wheel_WHEEL_STAT (r : Nat) : Nat := at_ (pg_wheel r) 0x100
def wheel_WHEEL_DEFER_CNT (r : Nat) : Nat := at_ (pg_wheel r) 0x104
def wheel_WHEEL_FAR_CNT (r : Nat) : Nat := at_ (pg_wheel r) 0x108
def wheel_PSHAPE_RATE (r : Nat) (i : Nat) : Nat := at_ (pg_wheel r) (0x1000 + 0x8 * i)
def wheel_PSHAPE_BURST (r : Nat) (i : Nat) : Nat := at_ (pg_wheel r) (0x1004 + 0x8 * i)
def wheel_QSHAPE_RATE (r : Nat) (i : Nat) : Nat := at_ (pg_wheel r) (0x2000 + 0x8 * i)
def wheel_QSHAPE_BURST (r : Nat) (i : Nat) : Nat := at_ (pg_wheel r) (0x2004 + 0x8 * i)

/-! ## gauge (11_scheduling_and_shaping.md R304) -/

def gauge_SAMPLE_CTL (r : Nat) : Nat := at_ (pg_gauge r) 0x100
def gauge_ECN_SEED (r : Nat) : Nat := at_ (pg_gauge r) 0x104
def gauge_ECN_MARK_CNT (r : Nat) : Nat := at_ (pg_gauge r) 0x108
def gauge_TH_PEND (r : Nat) (i : Nat) : Nat := at_ (pg_gauge r) (0x110 + 0x4 * i)
def gauge_LAST_DEPTH (r : Nat) (i : Nat) : Nat := at_ (pg_gauge r) (0x1000 + 0x10 * i)
def gauge_LAST_SOJ (r : Nat) (i : Nat) : Nat := at_ (pg_gauge r) (0x1004 + 0x10 * i)
def gauge_MAX_DEPTH (r : Nat) (i : Nat) : Nat := at_ (pg_gauge r) (0x1008 + 0x10 * i)
def gauge_MAX_SOJ (r : Nat) (i : Nat) : Nat := at_ (pg_gauge r) (0x100C + 0x10 * i)
def gauge_DEPTH_TH (r : Nat) (i : Nat) : Nat := at_ (pg_gauge r) (0x7000 + 0x8 * i)
def gauge_SOJ_TH (r : Nat) (i : Nat) : Nat := at_ (pg_gauge r) (0x7004 + 0x8 * i)
def gauge_ECN_CFG0 (r : Nat) (i : Nat) : Nat := at_ (pg_gauge r) (0xA000 + 0x8 * i)
def gauge_ECN_CFG1 (r : Nat) (i : Nat) : Nat := at_ (pg_gauge r) (0xA004 + 0x8 * i)

/-! ## level (14_level_release.md R365) -/

def level_LR_CTL (r : Nat) : Nat := at_ (pg_level r) 0x100
def level_LR_HOLD_CNT (r : Nat) : Nat := at_ (pg_level r) 0x104
def level_LR_SENT_CNT_LO (r : Nat) : Nat := at_ (pg_level r) 0x108
def level_LR_SENT_CNT_HI (r : Nat) : Nat := at_ (pg_level r) 0x10C
def level_LR_LATE_CNT (r : Nat) : Nat := at_ (pg_level r) 0x110
def level_LR_LATE_LAST (r : Nat) : Nat := at_ (pg_level r) 0x114
def level_LR_DEV_MAX (r : Nat) : Nat := at_ (pg_level r) 0x118
def level_LR_PROF (r : Nat) (i : Nat) : Nat := at_ (pg_level r) (0x200 + 0x4 * i)
def level_LR_SKEW (r : Nat) (i : Nat) : Nat := at_ (pg_level r) (0x400 + 0x4 * i)
def level_LR_GMAP (r : Nat) (i : Nat) : Nat := at_ (pg_level r) (0x8000 + 0x4 * i)

/-! ## trace (15_telemetry_and_ledger.md R392) -/

def trace_TR_CFG (r : Nat) : Nat := at_ (pg_trace r) 0x100
def trace_BEAT_CNT (r : Nat) : Nat := at_ (pg_trace r) 0x104
def trace_STAMP_OVF_CNT (r : Nat) : Nat := at_ (pg_trace r) 0x108
def trace_SMP_OFFER_CNT (r : Nat) : Nat := at_ (pg_trace r) 0x10C
def trace_HIST_CFG (r : Nat) (i : Nat) : Nat := at_ (pg_trace r) (0x200 + 0x4 * i)
def trace_HIST_BIN (r : Nat) (i : Nat) (j : Nat) : Nat := at_ (pg_trace r) (0x1000 + 0x80 * i + 0x4 * j)

/-! ## switch (10_switch_core_and_queues.md R274) -/

def switch_CORE_CTL : Nat := at_ pg_switch 0x100
def switch_DESC_FREE : Nat := at_ pg_switch 0x104
def switch_QENT_FREE : Nat := at_ pg_switch 0x108
def switch_HOSTQ_MAP (i : Nat) : Nat := at_ pg_switch (0x110 + 0x4 * i)
def switch_DESC_RSV : Nat := at_ pg_switch 0x118
def switch_QENT_RSV : Nat := at_ pg_switch 0x11C
def switch_WD_CTL : Nat := at_ pg_switch 0x120
def switch_WD_TIME : Nat := at_ pg_switch 0x124
def switch_WD_CLR : Nat := at_ pg_switch 0x128
def switch_DROP_WATCH : Nat := at_ pg_switch 0x130
def switch_DROP_LAST : Nat := at_ pg_switch 0x134
def switch_QCMD : Nat := at_ pg_switch 0x140
def switch_QSTATUS : Nat := at_ pg_switch 0x144
def switch_QDATA0 : Nat := at_ pg_switch 0x150
def switch_QDATA1 : Nat := at_ pg_switch 0x154
def switch_QDATA2 : Nat := at_ pg_switch 0x158
def switch_QDATA3 : Nat := at_ pg_switch 0x15C
def switch_STOMP_CNT : Nat := at_ pg_switch 0x180
def switch_WD_STORM_CNT : Nat := at_ pg_switch 0x184
def switch_DROP_CNT (i : Nat) : Nat := at_ pg_switch (0x204 + 0x4 * i)
def switch_PCFG (i : Nat) : Nat := at_ pg_switch (0x2000 + 0x4 * i)
def switch_PSTAT (i : Nat) : Nat := at_ pg_switch (0x4000 + 0x4 * i)
def switch_FLUSH_DONE_PEND (i : Nat) : Nat := at_ pg_switch (0x6000 + 0x4 * i)
def switch_WD_PEND (i : Nat) : Nat := at_ pg_switch (0x6100 + 0x4 * i)

/-! ## bufmgr (09_buffer_pools.md R251) -/

def bufmgr_CARVE : Nat := at_ pg_bufmgr 0x100
def bufmgr_BM_CFG : Nat := at_ pg_bufmgr 0x104
def bufmgr_POOL_CAP (i : Nat) : Nat := at_ pg_bufmgr (0x110 + 0x4 * i)
def bufmgr_POOL_FREE (i : Nat) : Nat := at_ pg_bufmgr (0x120 + 0x4 * i)
def bufmgr_POOL_SHARED (i : Nat) : Nat := at_ pg_bufmgr (0x130 + 0x4 * i)
def bufmgr_POOL_HR_USE (i : Nat) : Nat := at_ pg_bufmgr (0x140 + 0x4 * i)
def bufmgr_HR_RSV (i : Nat) : Nat := at_ pg_bufmgr (0x150 + 0x4 * i)
def bufmgr_LEN_LONG_CNT : Nat := at_ pg_bufmgr 0x180
def bufmgr_LEN_SHORT_CNT : Nat := at_ pg_bufmgr 0x184
def bufmgr_NO_BUF_CNT : Nat := at_ pg_bufmgr 0x188
def bufmgr_FREE_ERR_CNT : Nat := at_ pg_bufmgr 0x18C
def bufmgr_HDRM_DROP_CNT : Nat := at_ pg_bufmgr 0x190
def bufmgr_FLOOR_DROP_CNT : Nat := at_ pg_bufmgr 0x194
def bufmgr_FREE_ERR_BUF : Nat := at_ pg_bufmgr 0x1A0
def bufmgr_FREE_ERR_REQ : Nat := at_ pg_bufmgr 0x1A4
def bufmgr_BUF_CMD : Nat := at_ pg_bufmgr 0x1B0
def bufmgr_BUF_DATA : Nat := at_ pg_bufmgr 0x1B4
def bufmgr_BUF_STATUS : Nat := at_ pg_bufmgr 0x1B8
def bufmgr_FBG_WARN_PEND : Nat := at_ pg_bufmgr 0x1C0
def bufmgr_POOL_SET (i : Nat) (j : Nat) : Nat := at_ pg_bufmgr (0x200 + 0x20 * i + 0x8 * j)
def bufmgr_POOL_CLR (i : Nat) (j : Nat) : Nat := at_ pg_bufmgr (0x204 + 0x20 * i + 0x8 * j)
def bufmgr_FBG_SHARED (i : Nat) : Nat := at_ pg_bufmgr (0x400 + 0x4 * i)
def bufmgr_FBG_SET (i : Nat) (j : Nat) : Nat := at_ pg_bufmgr (0x1000 + 0x20 * i + 0x8 * j)
def bufmgr_FBG_CLR (i : Nat) (j : Nat) : Nat := at_ pg_bufmgr (0x1004 + 0x20 * i + 0x8 * j)
def bufmgr_FBG_MAP (i : Nat) : Nat := at_ pg_bufmgr (0x2000 + 0x4 * i)

/-! ## mcast (10_switch_core_and_queues.md R277) -/

def mcast_MC_CMD : Nat := at_ pg_mcast 0x100
def mcast_MC_DATA : Nat := at_ pg_mcast 0x104
def mcast_MC_STATUS : Nat := at_ pg_mcast 0x108
def mcast_MC_PRUNE_CNT : Nat := at_ pg_mcast 0x110

/-! ## em (07_exact_match_and_learning.md R201) -/

def em_TBL_CMD : Nat := at_ pg_em 0x100
def em_TBL_STATUS : Nat := at_ pg_em 0x104
def em_TBL_LOC : Nat := at_ pg_em 0x108
def em_TBL_ARG : Nat := at_ pg_em 0x10C
def em_TBL_KEY (i : Nat) : Nat := at_ pg_em (0x110 + 0x4 * i)
def em_TBL_DATA (i : Nat) : Nat := at_ pg_em (0x120 + 0x4 * i)
def em_TBL_CTL_LO : Nat := at_ pg_em 0x130
def em_TBL_CTL_HI : Nat := at_ pg_em 0x134
def em_TBL_CTL_MASK_LO : Nat := at_ pg_em 0x138
def em_TBL_CTL_MASK_HI : Nat := at_ pg_em 0x13C
def em_EM_GEOM (i : Nat) : Nat := at_ pg_em (0x200 + 0x20 * i)
def em_EM_SEED0 (i : Nat) : Nat := at_ pg_em (0x204 + 0x20 * i)
def em_EM_SEED1 (i : Nat) : Nat := at_ pg_em (0x208 + 0x20 * i)
def em_EM_CFG (i : Nat) : Nat := at_ pg_em (0x20C + 0x20 * i)
def em_MISS_DATA (i : Nat) (j : Nat) : Nat := at_ pg_em (0x210 + 0x20 * i + 0x4 * j)
def em_EM_ENTRY_CNT (i : Nat) : Nat := at_ pg_em (0x400 + 0x4 * i)
def em_INSERT_FULL_CNT : Nat := at_ pg_em 0x440
def em_LEARN_DROP_CNT : Nat := at_ pg_em 0x444
def em_LEARN_FILT_CNT : Nat := at_ pg_em 0x448
def em_LOCK_TMO_CNT : Nat := at_ pg_em 0x44C
def em_RELOC_CNT : Nat := at_ pg_em 0x450
def em_PIN_HIT_CNT : Nat := at_ pg_em 0x454
def em_LEARN_Q_DEPTH : Nat := at_ pg_em 0x458
def em_LEARN_CTL : Nat := at_ pg_em 0x460
def em_LOCK_CTL : Nat := at_ pg_em 0x464

/-! ## pfx (08_prefix_lookup.md R226) -/

def pfx_PFX_CMD : Nat := at_ pg_pfx 0x100
def pfx_PFX_STATUS : Nat := at_ pg_pfx 0x104
def pfx_PFX_BLK (i : Nat) : Nat := at_ pg_pfx (0x140 + 0x4 * i)
def pfx_PFX_CFG4 : Nat := at_ pg_pfx 0x200
def pfx_PFX_CFG6 : Nat := at_ pg_pfx 0x204
def pfx_FSEED4 : Nat := at_ pg_pfx 0x210
def pfx_FSEED6 : Nat := at_ pg_pfx 0x214
def pfx_SSEED4 (i : Nat) : Nat := at_ pg_pfx (0x218 + 0x4 * i)
def pfx_SSEED6S (i : Nat) : Nat := at_ pg_pfx (0x220 + 0x4 * i)
def pfx_SSEED6L (i : Nat) : Nat := at_ pg_pfx (0x228 + 0x4 * i)
def pfx_CAM_BLK (i : Nat) : Nat := at_ pg_pfx (0x280 + 0x4 * i)
def pfx_PFX4_CNT : Nat := at_ pg_pfx 0x400
def pfx_PFX6_CNT : Nat := at_ pg_pfx 0x404
def pfx_PFX4_SLOT_CNT : Nat := at_ pg_pfx 0x408
def pfx_CAM_PFX_CNT : Nat := at_ pg_pfx 0x40C
def pfx_PFX_FULL_CNT : Nat := at_ pg_pfx 0x440
def pfx_FILT_OVF_CNT : Nat := at_ pg_pfx 0x444

/-! ## lb (04_parser_and_load_balance.md R108) -/

def lb_IND_CMD : Nat := at_ pg_lb 0x100
def lb_IND_DATA : Nat := at_ pg_lb 0x104
def lb_IND_STATUS : Nat := at_ pg_lb 0x108
def lb_LB_NO_MEMBER_CNT : Nat := at_ pg_lb 0x110

/-! ## flume (12_flume_tier.md R323) -/

def flume_FL_STAT : Nat := at_ pg_flume 0x100
def flume_FL_PART : Nat := at_ pg_flume 0x104
def flume_BW_USE (i : Nat) : Nat := at_ pg_flume (0x110 + 0x4 * i)
def flume_PATROL_CTL : Nat := at_ pg_flume 0x140
def flume_PATROL_STAT : Nat := at_ pg_flume 0x144
def flume_FL_CE_CNT : Nat := at_ pg_flume 0x148
def flume_FL_UE_CNT : Nat := at_ pg_flume 0x14C
def flume_FL_UE_ADDR_LO : Nat := at_ pg_flume 0x150
def flume_FL_UE_ADDR_HI : Nat := at_ pg_flume 0x154
def flume_FL_TEMP : Nat := at_ pg_flume 0x160

/-! ## spill (12_flume_tier.md R324) -/

def spill_SPILL_CTL : Nat := at_ pg_spill 0x100
def spill_SPILL_STAT : Nat := at_ pg_spill 0x104
def spill_SPILL_PAGES : Nat := at_ pg_spill 0x108
def spill_SPILL_FULL_CNT : Nat := at_ pg_spill 0x110
def spill_SPILL_CTX_CNT : Nat := at_ pg_spill 0x114
def spill_SPILL_OUT_CNT_LO : Nat := at_ pg_spill 0x118
def spill_SPILL_OUT_CNT_HI : Nat := at_ pg_spill 0x11C
def spill_SPILL_RET_CNT_LO : Nat := at_ pg_spill 0x120
def spill_SPILL_RET_CNT_HI : Nat := at_ pg_spill 0x124
def spill_SPILL_TH_HI (i : Nat) : Nat := at_ pg_spill (0x200 + 0x8 * i)
def spill_SPILL_TH_LO (i : Nat) : Nat := at_ pg_spill (0x204 + 0x8 * i)
def spill_SPILL_PROF (i : Nat) : Nat := at_ pg_spill (0x1000 + 0x4 * i)

/-! ## telemetry (15_telemetry_and_ledger.md R390) -/

def telemetry_TEL_CTL : Nat := at_ pg_telemetry 0x100
def telemetry_SMPQ_BASE : Nat := at_ pg_telemetry 0x104
def telemetry_SMPQ_HEAD : Nat := at_ pg_telemetry 0x108
def telemetry_SMPQ_TAIL : Nat := at_ pg_telemetry 0x10C
def telemetry_SMPQ_DROP_CNT : Nat := at_ pg_telemetry 0x110
def telemetry_CAP_LOSS_CNT : Nat := at_ pg_telemetry 0x114
def telemetry_DROP_CAP_LO : Nat := at_ pg_telemetry 0x118
def telemetry_DROP_CAP_HI : Nat := at_ pg_telemetry 0x11C
def telemetry_DROP_CAP_CTL : Nat := at_ pg_telemetry 0x120
def telemetry_SMP_CFG (i : Nat) : Nat := at_ pg_telemetry (0x200 + 0x4 * i)
def telemetry_CAP_CFG (i : Nat) : Nat := at_ pg_telemetry (0x300 + 0x8 * i)
def telemetry_CAP_BURST (i : Nat) : Nat := at_ pg_telemetry (0x304 + 0x8 * i)
def telemetry_CAP_CNT (i : Nat) : Nat := at_ pg_telemetry (0x400 + 0x8 * i)
def telemetry_CAP_LIM_CNT (i : Nat) : Nat := at_ pg_telemetry (0x404 + 0x8 * i)

/-! ## ledger (15_telemetry_and_ledger.md R391) -/

def ledger_LDG_CTL : Nat := at_ pg_ledger 0x100
def ledger_LDG_STAT : Nat := at_ pg_ledger 0x104
def ledger_OPEN_SEQ_LO : Nat := at_ pg_ledger 0x108
def ledger_OPEN_SEQ_HI : Nat := at_ pg_ledger 0x10C
def ledger_OLDEST_SEQ_LO : Nat := at_ pg_ledger 0x110
def ledger_OLDEST_SEQ_HI : Nat := at_ pg_ledger 0x114
def ledger_KEY_ID : Nat := at_ pg_ledger 0x118
def ledger_LAST_TAG (i : Nat) : Nat := at_ pg_ledger (0x120 + 0x4 * i)
def ledger_LDG_REC_CNT_LO : Nat := at_ pg_ledger 0x130
def ledger_LDG_REC_CNT_HI : Nat := at_ pg_ledger 0x134
def ledger_LDG_INTEG_CNT : Nat := at_ pg_ledger 0x138
def ledger_LOSS_ACC : Nat := at_ pg_ledger 0x13C

/-! ## dma (23_host_interface_dma.md R547) -/

def dma_DMA_CTL : Nat := at_ pg_dma 0x100
def dma_BLOCK_OWNER : Nat := at_ pg_dma 0x104
def dma_HQ_RING (i : Nat) : Nat := at_ pg_dma (0x110 + 0x4 * i)
def dma_HQ_DROP_CNT : Nat := at_ pg_dma 0x150
def dma_DMA_ERR : Nat := at_ pg_dma 0x160
def dma_DMA_ERR_ADDR_LO : Nat := at_ pg_dma 0x164
def dma_DMA_ERR_ADDR_HI : Nat := at_ pg_dma 0x168

/-! ## ringblk (23_host_interface_dma.md R548) -/

def ringblk_RING_BASE_LO (b : Nat) (i : Nat) : Nat := at_ (pg_ringblk b) (0x100 + 0x40 * i)
def ringblk_RING_BASE_HI (b : Nat) (i : Nat) : Nat := at_ (pg_ringblk b) (0x104 + 0x40 * i)
def ringblk_RING_CFG (b : Nat) (i : Nat) : Nat := at_ (pg_ringblk b) (0x108 + 0x40 * i)
def ringblk_RING_TAIL (b : Nat) (i : Nat) : Nat := at_ (pg_ringblk b) (0x10C + 0x40 * i)
def ringblk_RING_HEAD (b : Nat) (i : Nat) : Nat := at_ (pg_ringblk b) (0x110 + 0x40 * i)
def ringblk_RING_ACK (b : Nat) (i : Nat) : Nat := at_ (pg_ringblk b) (0x114 + 0x40 * i)
def ringblk_RING_COAL (b : Nat) (i : Nat) : Nat := at_ (pg_ringblk b) (0x118 + 0x40 * i)
def ringblk_RING_STAT (b : Nat) (i : Nat) : Nat := at_ (pg_ringblk b) (0x11C + 0x40 * i)
def ringblk_RING_DESC_CNT_LO (b : Nat) (i : Nat) : Nat := at_ (pg_ringblk b) (0x120 + 0x40 * i)
def ringblk_RING_DESC_CNT_HI (b : Nat) (i : Nat) : Nat := at_ (pg_ringblk b) (0x124 + 0x40 * i)

/-! ## The tables as data -/

/-- One row of a register table: byte offset in its page, the repetitions of it (stride, count; outer
first), its reset value and, for each access code of R6, the mask of the bits that have it. `half` is 1
for the lower and 2 for the upper register of a 64-bit pair (R36). -/
structure Row where
  base : Nat
  dims : List (Nat × Nat)
  rst  : Nat
  rw   : Nat := 0
  ro   : Nat := 0
  wo   : Nat := 0
  w1c  : Nat := 0
  w1s  : Nat := 0
  rc   : Nat := 0
  rwe  : Nat := 0
  half : Nat := 0
  deriving DecidableEq, Repr

/-- The kinds of page BAR0 holds (R33, R39). -/
inductive Kind where
  | chip | rstclk | pwr | time | life | epoch | mbx | therm | fault | vault | upage | lane | port | reachCommon | parser | weir | sluice | sched | wheel | gauge | level | trace | switch | bufmgr | mcast | em | pfx | lb | flume | spill | telemetry | ledger | dma | ringblk
  deriving DecidableEq, Repr

/-- The rows of 02_register_space.md R38. -/
def rows_header : List Row :=
  [{ base := 0x0, dims := [], rst := 0x0, ro := 0xFFFFFFFF },
   { base := 0x4, dims := [], rst := 0x0, ro := 0xFFFFFFFF },
   { base := 0x8, dims := [], rst := 0x0, rw := 0x15, w1s := 0x2 },
   { base := 0xC, dims := [], rst := 0x0, ro := 0xF },
   { base := 0x10, dims := [], rst := 0x0, w1c := 0xFFFFFFFF },
   { base := 0x14, dims := [], rst := 0x0, rw := 0xFFFFFFFF },
   { base := 0x18, dims := [], rst := 0x0, wo := 0xFFFFFFFF },
   { base := 0x1C, dims := [], rst := 0x0, ro := 0x8000001F },
   { base := 0x20, dims := [], rst := 0x0, rc := 0xFFFFFFFF },
   { base := 0x24, dims := [], rst := 0x0, rc := 0xFFFFFFFF },
   { base := 0x28, dims := [], rst := 0x0, ro := 0x7FFFFFFF, w1c := 0x80000000 },
   { base := 0x2C, dims := [], rst := 0x0, ro := 0xFFFFFF },
   { base := 0x30, dims := [], rst := 0x1000001, rw := 0xFFFF0031, w1s := 0x2 },
   { base := 0x34, dims := [], rst := 0x0, ro := 0xFF01, w1c := 0x2 }]
/-- The rows of 02_register_space.md R50. -/
def rows_chip : List Row :=
  [{ base := 0x100, dims := [], rst := 0x2304, ro := 0xFFFFFFFF },
   { base := 0x104, dims := [], rst := 0xB0, ro := 0xFFFFFFFF },
   { base := 0x800, dims := [(0x4, 20)], rst := 0x0, ro := 0xFFFFFFFF },
   { base := 0x900, dims := [], rst := 0x0, wo := 0x7007F },
   { base := 0x910, dims := [], rst := 0x0, ro := 0xFFFFFFFF },
   { base := 0x914, dims := [], rst := 0x0, ro := 0xFF000F, w1c := 0x80000000 },
   { base := 0x1000, dims := [(0x4, 624)], rst := 0x0, rw := 0x8007007F }]
/-- The rows of 22_reset_boot_clocks.md R529. -/
def rows_rstclk : List Row :=
  [{ base := 0x100, dims := [], rst := 0x0, w1c := 0x1F },
   { base := 0x104, dims := [], rst := 0x0, rw := 0x3, w1s := 0x100 },
   { base := 0x108, dims := [], rst := 0x0, ro := 0xF },
   { base := 0x110, dims := [], rst := 0x0, rw := 0x3, w1s := 0x80000000 },
   { base := 0x114, dims := [], rst := 0x0, ro := 0x3 },
   { base := 0x118, dims := [], rst := 0x0, ro := 0xFF },
   { base := 0x11C, dims := [], rst := 0x3E8, rw := 0xFFFF },
   { base := 0x120, dims := [], rst := 0x0, rc := 0xFFFFFFFF },
   { base := 0x130, dims := [], rst := 0x0, ro := 0x3FF01FF },
   { base := 0x134, dims := [], rst := 0x100, rw := 0x1FF }]
/-- The rows of 19_power_and_thermal.md R476. -/
def rows_pwr : List Row :=
  [{ base := 0x100, dims := [], rst := 0x80000334, rw := 0x800003FF },
   { base := 0x104, dims := [], rst := 0x60281E0C, rw := 0xFFFFFFFF },
   { base := 0x108, dims := [], rst := 0x80B03, rw := 0xFFFFFF },
   { base := 0x10C, dims := [], rst := 0x0, w1s := 0x1 },
   { base := 0x110, dims := [], rst := 0x0, rw := 0x7 },
   { base := 0x114, dims := [], rst := 0x0, ro := 0xF7707773 },
   { base := 0x118, dims := [], rst := 0x1, rw := 0x7F },
   { base := 0x11C, dims := [], rst := 0x0, rc := 0xFFFFFFFF },
   { base := 0x120, dims := [], rst := 0x0, rc := 0xFFFFFFFF },
   { base := 0x130, dims := [(0x4, 7)], rst := 0x0, ro := 0xFFFFFFFF },
   { base := 0x150, dims := [], rst := 0x0, ro := 0xFFFFFFFF },
   { base := 0x154, dims := [], rst := 0x0, ro := 0x8000FFFF },
   { base := 0x158, dims := [], rst := 0x0, ro := 0xC0073FFF },
   { base := 0x15C, dims := [], rst := 0x0, rw := 0x100, w1s := 0x1 },
   { base := 0x180, dims := [(0x4, 8)], rst := 0x0, rw := 0x807F0003 },
   { base := 0x1A0, dims := [], rst := 0x0, rc := 0xFFFFFFFF },
   { base := 0x1B0, dims := [], rst := 0x4, rw := 0xF },
   { base := 0x1B4, dims := [], rst := 0x0, rc := 0xFFFFFFFF },
   { base := 0x1B8, dims := [], rst := 0x0, rc := 0xFFFFFFFF },
   { base := 0x1C0, dims := [], rst := 0x0, rw := 0xC00000FF }]
  ++ [{ base := 0x1C4, dims := [], rst := 0x0, ro := 0x8000FF07 },
   { base := 0x1C8, dims := [], rst := 0x0, rc := 0xFFFFFFFF }]
/-- The rows of 13_timebase_and_servo.md R351. -/
def rows_time : List Row :=
  [{ base := 0x100, dims := [], rst := 0x0, ro := 0xFFFFFFFF },
   { base := 0x104, dims := [], rst := 0x0, ro := 0xFFFFFFFF },
   { base := 0x108, dims := [], rst := 0x0, ro := 0x3FFFFFFF },
   { base := 0x10C, dims := [], rst := 0x0, ro := 0xFFFF },
   { base := 0x110, dims := [], rst := 0x100, rw := 0x101 },
   { base := 0x114, dims := [], rst := 0x0, ro := 0x7 },
   { base := 0x118, dims := [], rst := 0x0, rw := 0xFFFFFFFF },
   { base := 0x11C, dims := [], rst := 0x0, ro := 0xFFFFFFFF },
   { base := 0x120, dims := [], rst := 0x186A0, rw := 0xFFFFF },
   { base := 0x130, dims := [], rst := 0x10, rw := 0x80000310, w1s := 0x1 },
   { base := 0x134, dims := [], rst := 0xB506, rw := 0xFFFFFF },
   { base := 0x138, dims := [], rst := 0x400, rw := 0xFFFFFF },
   { base := 0x13C, dims := [], rst := 0x642710, rw := 0xFFFFFFFF },
   { base := 0x140, dims := [], rst := 0x100BB8, rw := 0xFFFFFF },
   { base := 0x148, dims := [], rst := 0x0, rw := 0xFFFFFFFF },
   { base := 0x14C, dims := [], rst := 0x0, wo := 0xFF00FFFF },
   { base := 0x150, dims := [], rst := 0x0, ro := 0xF0FF00FF },
   { base := 0x154, dims := [], rst := 0x0, ro := 0xFFFFFFFF },
   { base := 0x158, dims := [], rst := 0x0, ro := 0xFFFFFFFF },
   { base := 0x15C, dims := [], rst := 0x0, ro := 0xFFFF }]
  ++ [{ base := 0x160, dims := [], rst := 0x0, rc := 0xFFFFFFFF },
   { base := 0x164, dims := [], rst := 0x0, rc := 0xFFFFFFFF },
   { base := 0x168, dims := [], rst := 0x0, rc := 0xFFFFFFFF },
   { base := 0x16C, dims := [], rst := 0x0, rc := 0xFFFFFFFF },
   { base := 0x170, dims := [], rst := 0x0, rc := 0xFFFFFFFF },
   { base := 0x174, dims := [], rst := 0x0, ro := 0x7, w1c := 0x80000000 },
   { base := 0x180, dims := [], rst := 0x0, rw := 0xFFFFFFFF },
   { base := 0x184, dims := [], rst := 0x0, rw := 0xFFFFFFFF },
   { base := 0x188, dims := [], rst := 0x0, rw := 0x3FFFFFFF },
   { base := 0x18C, dims := [], rst := 0x0, rw := 0xFFFF },
   { base := 0x190, dims := [], rst := 0x0, rw := 0x103, w1s := 0x80000000 },
   { base := 0x194, dims := [], rst := 0x0, ro := 0xFF },
   { base := 0x1A0, dims := [(0x4, 6)], rst := 0x0, ro := 0xFFFFFFFF },
   { base := 0x1B8, dims := [], rst := 0x0, ro := 0xFF00FF },
   { base := 0x1C0, dims := [], rst := 0x64, rw := 0xC00FFFFF },
   { base := 0x1C4, dims := [], rst := 0x0, rw := 0xFFFFFFFF },
   { base := 0x1C8, dims := [], rst := 0x0, rw := 0xFFFF },
   { base := 0x1CC, dims := [], rst := 0x0, rw := 0xFFFF },
   { base := 0x1D0, dims := [], rst := 0x0, ro := 0xFFFFFFFF },
   { base := 0x1D4, dims := [], rst := 0x0, ro := 0xBFFFFFFF }]
  ++ [{ base := 0x1D8, dims := [], rst := 0x0, ro := 0xFFFF },
   { base := 0x1DC, dims := [], rst := 0x0, rc := 0xFFFFFFFF },
   { base := 0x200, dims := [], rst := 0x0, rw := 0xFFFFFFFF },
   { base := 0x204, dims := [], rst := 0x0, ro := 0xFFF },
   { base := 0x208, dims := [], rst := 0x0, rw := 0xFFF },
   { base := 0x20C, dims := [], rst := 0x0, rc := 0xFFFFFFFF },
   { base := 0x400, dims := [(0x4, 36)], rst := 0x0, ro := 0xFFFFFFFF }]
/-- The rows of 21_security_lifecycle_debug.md R515. -/
def rows_life : List Row :=
  [{ base := 0x100, dims := [], rst := 0x0, ro := 0xF01F0F00 },
   { base := 0x104, dims := [], rst := 0x0, rw := 0xF0FFFFF, w1s := 0x80000000 },
   { base := 0x108, dims := [], rst := 0x0, ro := 0xFF },
   { base := 0x10C, dims := [], rst := 0x0, ro := 0xFFFF },
   { base := 0x120, dims := [(0x4, 4)], rst := 0x0, ro := 0xFFFFFFFF },
   { base := 0x140, dims := [(0x4, 8)], rst := 0x0, ro := 0xFFFFFFFF },
   { base := 0x200, dims := [(0x4, 128)], rst := 0x0, wo := 0xFFFFFFFF },
   { base := 0x400, dims := [(0x4, 4)], rst := 0x0, ro := 0xC0000000 },
   { base := 0x440, dims := [(0x40, 4), (0x4, 12)], rst := 0x0, ro := 0xFFFFFFFF },
   { base := 0x540, dims := [(0x4, 9)], rst := 0x0, ro := 0x3FFFFF },
   { base := 0x580, dims := [], rst := 0x0, ro := 0x8FF30000 },
   { base := 0x584, dims := [], rst := 0x0, rw := 0xFFFFFFC0 },
   { base := 0x588, dims := [], rst := 0x0, rw := 0xFFFFFFFF },
   { base := 0x58C, dims := [], rst := 0x0, rw := 0xFFFFF },
   { base := 0x590, dims := [], rst := 0x0, w1s := 0x80000000 },
   { base := 0x594, dims := [], rst := 0x0, ro := 0xFF },
   { base := 0x600, dims := [(0x4, 25)], rst := 0x0, ro := 0xFFFFFFFF },
   { base := 0x700, dims := [], rst := 0x0, rw := 0x1, w1s := 0x80000000 },
   { base := 0x704, dims := [], rst := 0x0, ro := 0x8F000FFF },
   { base := 0x708, dims := [], rst := 0x0, ro := 0xFFFFFFFF }]
  ++ [{ base := 0x70C, dims := [], rst := 0x0, ro := 0x3FFFFFFF },
   { base := 0x710, dims := [], rst := 0x0, wo := 0x80000000 }]
/-- The rows of 18_configuration_epochs.md R453. -/
def rows_epoch : List Row :=
  [{ base := 0x100, dims := [], rst := 0x0, rw := 0xF00FFFF, w1s := 0x80000000 },
   { base := 0x104, dims := [], rst := 0x0, ro := 0xFF },
   { base := 0x108, dims := [], rst := 0x0, ro := 0xF001FFFF },
   { base := 0x10C, dims := [], rst := 0x0, ro := 0xC000FFFF },
   { base := 0x110, dims := [], rst := 0x0, ro := 0x7FFFFF },
   { base := 0x114, dims := [], rst := 0x0, rc := 0xFFFFFFFF },
   { base := 0x120, dims := [], rst := 0x0, ro := 0xC007FFFF },
   { base := 0x124, dims := [], rst := 0x0, rw := 0x1 },
   { base := 0x128, dims := [], rst := 0x0, rc := 0xFFFFFFFF },
   { base := 0x12C, dims := [], rst := 0x0, ro := 0x3FFFF, w1c := 0x80000000 }]
/-- The rows of 16_mailboxes_and_locks.md R410. -/
def rows_mbx : List Row :=
  [{ base := 0x100, dims := [(0x20, 32), (0x4, 4)], rst := 0x0, ro := 0xFFFFFFFF },
   { base := 0x110, dims := [(0x20, 32)], rst := 0x0, ro := 0x3FF00 },
   { base := 0x114, dims := [(0x20, 32)], rst := 0x0, rw := 0xFF, ro := 0x80FF0000 },
   { base := 0x500, dims := [(0x10, 16)], rst := 0x0, rw := 0xFFFFFFC0 },
   { base := 0x504, dims := [(0x10, 16)], rst := 0x0, rw := 0xFFFFFFFF },
   { base := 0x508, dims := [(0x10, 16)], rst := 0x0, rw := 0xFFFFFF },
   { base := 0x600, dims := [(0x4, 4)], rst := 0x0, rw := 0xFFFFFFFF },
   { base := 0x610, dims := [], rst := 0x0, wo := 0x1F },
   { base := 0x614, dims := [], rst := 0x0, ro := 0xFF },
   { base := 0x700, dims := [], rst := 0x0, w1c := 0xAAAAAAAA },
   { base := 0x704, dims := [], rst := 0x0, w1c := 0xFFFFFFFF },
   { base := 0x708, dims := [], rst := 0x0, w1c := 0xFFFFFFFF },
   { base := 0x70C, dims := [], rst := 0x0, w1c := 0xFFFF },
   { base := 0x710, dims := [], rst := 0x0, rc := 0xFFFFFFFF },
   { base := 0x714, dims := [], rst := 0x0, rc := 0xFFFFFFFF },
   { base := 0x718, dims := [], rst := 0x0, rc := 0xFFFFFFFF },
   { base := 0x71C, dims := [], rst := 0x0, ro := 0xFFFF3F, w1c := 0x80000000 },
   { base := 0x800, dims := [(0x4, 64)], rst := 0x0, rw := 0xFF },
   { base := 0x900, dims := [(0x4, 64)], rst := 0x0, ro := 0xFF },
   { base := 0xA00, dims := [], rst := 0x0, wo := 0x3F }]
/-- The rows of 19_power_and_thermal.md R478. -/
def rows_therm : List Row :=
  [{ base := 0x100, dims := [(0x4, 26)], rst := 0x0, ro := 0x8000FFFF },
   { base := 0x180, dims := [], rst := 0x0, ro := 0x1F00FFFF },
   { base := 0x184, dims := [], rst := 0x0, rc := 0xFFFF },
   { base := 0x190, dims := [], rst := 0x5F, rw := 0xFF },
   { base := 0x194, dims := [], rst := 0x0, ro := 0xC70003FF },
   { base := 0x198, dims := [], rst := 0x0, wo := 0x40000000 }]
/-- The rows of 20_reliability_and_faults.md R495. -/
def rows_fault : List Row :=
  [{ base := 0x100, dims := [(0x4, 20)], rst := 0x0, ro := 0xFFFFFFFF },
   { base := 0x180, dims := [], rst := 0x0, ro := 0xFFF, w1c := 0x80000000 },
   { base := 0x184, dims := [], rst := 0x0, ro := 0x3FFFFFFF },
   { base := 0x188, dims := [], rst := 0x0, ro := 0xFFFFFFFF },
   { base := 0x18C, dims := [], rst := 0x0, rc := 0xFFFFFFFF },
   { base := 0x190, dims := [], rst := 0x0, ro := 0x3FF03FF },
   { base := 0x194, dims := [], rst := 0x0, rc := 0xFFFFFFFF },
   { base := 0x198, dims := [], rst := 0x0, rw := 0xF, w1s := 0x80000000 },
   { base := 0x19C, dims := [], rst := 0x0, ro := 0xFF },
   { base := 0x1A0, dims := [], rst := 0x0, ro := 0x80000001 }]
/-- The rows of 17_cipher.md R434. -/
def rows_vault : List Row :=
  [{ base := 0x100, dims := [], rst := 0x0, rw := 0x80000000 },
   { base := 0x104, dims := [], rst := 0x0, ro := 0x8000000F },
   { base := 0x108, dims := [], rst := 0x0, wo := 0x80000000 },
   { base := 0x10C, dims := [], rst := 0x0, ro := 0xFF00FFFF },
   { base := 0x110, dims := [], rst := 0x0, rc := 0xFFFFFFFF },
   { base := 0x114, dims := [], rst := 0x0, rc := 0xFFFFFFFF },
   { base := 0x118, dims := [], rst := 0x0, rc := 0xFFFFFFFF, half := 1 },
   { base := 0x11C, dims := [], rst := 0x0, rc := 0xFFFFFFFF, half := 2 },
   { base := 0x200, dims := [(0x4, 32)], rst := 0x0, rw := 0xFF }]
/-- The rows of 17_cipher.md R435. -/
def rows_upage : List Row :=
  [{ base := 0x100, dims := [], rst := 0x0, w1s := 0x80000000 },
   { base := 0x104, dims := [], rst := 0x0, ro := 0xFF },
   { base := 0x140, dims := [(0x4, 16)], rst := 0x0, rw := 0xFFFFFFFF },
   { base := 0x200, dims := [(0x4, 16)], rst := 0x0, ro := 0x8F80FFFF },
   { base := 0x240, dims := [(0x8, 16)], rst := 0x0, ro := 0xFFFFFFFF },
   { base := 0x244, dims := [(0x8, 16)], rst := 0x0, ro := 0xFFFFFFFF }]
/-- The rows of 03_ports_and_lanes.md R84. -/
def rows_lane : List Row :=
  [{ base := 0x100, dims := [], rst := 0x0, ro := 0xF },
   { base := 0x1000, dims := [(0x100, 16)], rst := 0x0, rw := 0x80000003 },
   { base := 0x1004, dims := [(0x100, 16)], rst := 0x0, ro := 0x3000F },
   { base := 0x1008, dims := [(0x100, 16)], rst := 0x43308, rw := 0x3F3F3F },
   { base := 0x100C, dims := [(0x100, 16)], rst := 0x43308, ro := 0x3F3F3F },
   { base := 0x1010, dims := [(0x100, 16)], rst := 0x100, rw := 0x110, w1s := 0x1 },
   { base := 0x1014, dims := [(0x100, 16)], rst := 0x0, ro := 0x1F00FFFF },
   { base := 0x1018, dims := [(0x100, 16)], rst := 0x0, wo := 0x1 },
   { base := 0x101C, dims := [(0x100, 16)], rst := 0x0, ro := 0x3F },
   { base := 0x1020, dims := [(0x100, 16)], rst := 0x0, rw := 0xF0F03 },
   { base := 0x1024, dims := [(0x100, 16)], rst := 0x0, ro := 0x3 },
   { base := 0x1028, dims := [(0x100, 16)], rst := 0x0, rc := 0xFFFFFFFF },
   { base := 0x102C, dims := [(0x100, 16)], rst := 0x0, w1c := 0xF },
   { base := 0x1030, dims := [(0x100, 16)], rst := 0x0, rw := 0xFFFFFFFF },
   { base := 0x1034, dims := [(0x100, 16)], rst := 0x0, rw := 0xFFFFFFFF },
   { base := 0x1040, dims := [(0x100, 16)], rst := 0x0, ro := 0xFFFFFF },
   { base := 0x1044, dims := [(0x100, 16)], rst := 0x0, ro := 0xFFFFFF },
   { base := 0x1048, dims := [(0x100, 16)], rst := 0x0, rw := 0xFFFF },
   { base := 0x104C, dims := [(0x100, 16)], rst := 0x0, rw := 0xFFFF }]
/-- The rows of 03_ports_and_lanes.md R86. -/
def rows_port : List Row :=
  [{ base := 0x100, dims := [], rst := 0x0, rw := 0x17 },
   { base := 0x104, dims := [], rst := 0x0, rw := 0xFF },
   { base := 0x108, dims := [], rst := 0x1F40000, rw := 0xFFFF0101 },
   { base := 0x10C, dims := [], rst := 0xA, rw := 0x3FF },
   { base := 0x110, dims := [(0x4, 8)], rst := 0x0, ro := 0xF011F },
   { base := 0x130, dims := [(0x4, 8)], rst := 0x3200000, rw := 0xFFF00103 },
   { base := 0x150, dims := [(0x8, 8)], rst := 0x0, ro := 0xFFFFFF },
   { base := 0x154, dims := [(0x8, 8)], rst := 0x0, ro := 0xFFFFFF },
   { base := 0x190, dims := [], rst := 0x10000001, rw := 0xFFFF0001 },
   { base := 0x1A0, dims := [(0x8, 8)], rst := 0x0, rc := 0xFFFFFFFF },
   { base := 0x1A4, dims := [(0x8, 8)], rst := 0x0, rc := 0xFFFFFFFF },
   { base := 0x1E0, dims := [(0x4, 8)], rst := 0x0, rc := 0xFFFFFFFF },
   { base := 0x200, dims := [], rst := 0x2400, rw := 0x3FFF },
   { base := 0x400, dims := [(0x40, 8)], rst := 0x0, rc := 0xFFFFFFFF, half := 1 },
   { base := 0x404, dims := [(0x40, 8)], rst := 0x0, rc := 0xFFFFFFFF, half := 2 },
   { base := 0x408, dims := [(0x40, 8)], rst := 0x0, rc := 0xFFFFFFFF, half := 1 },
   { base := 0x40C, dims := [(0x40, 8)], rst := 0x0, rc := 0xFFFFFFFF, half := 2 },
   { base := 0x410, dims := [(0x40, 8)], rst := 0x0, rc := 0xFFFFFFFF },
   { base := 0x414, dims := [(0x40, 8)], rst := 0x0, rc := 0xFFFFFFFF },
   { base := 0x418, dims := [(0x40, 8)], rst := 0x0, rc := 0xFFFFFFFF }]
  ++ [{ base := 0x800, dims := [(0x4, 8)], rst := 0x0, rw := 0xC0FFF001 },
   { base := 0x820, dims := [(0x4, 8)], rst := 0xFFFF7FFF, rw := 0xFFFFFFFF },
   { base := 0x840, dims := [(0x4, 8)], rst := 0x0, rw := 0x37 },
   { base := 0x860, dims := [(0x10, 8), (0x4, 3)], rst := 0x0, rw := 0xFFFFF },
   { base := 0x900, dims := [(0x10, 8), (0x4, 3)], rst := 0x0, ro := 0xFFFFF },
   { base := 0x980, dims := [(0x4, 8)], rst := 0x0, ro := 0x7FF },
   { base := 0x9A0, dims := [(0x8, 8)], rst := 0x0, rc := 0xFFFFFFFF },
   { base := 0x9A4, dims := [(0x8, 8)], rst := 0x0, rc := 0xFFFFFFFF },
   { base := 0x9E0, dims := [(0x4, 8)], rst := 0x0, rc := 0xFFFFFFFF },
   { base := 0xA00, dims := [(0x4, 8)], rst := 0x0, rw := 0x77777777 },
   { base := 0xA20, dims := [], rst := 0x0, rw := 0xFFFFFFFF },
   { base := 0xA24, dims := [], rst := 0x0, rw := 0xFFFF },
   { base := 0xA40, dims := [(0x4, 8)], rst := 0x0, rc := 0xFFFFFFFF },
   { base := 0x1000, dims := [(0x4, 8)], rst := 0x0, rw := 0xFFB00003 },
   { base := 0x1020, dims := [(0x4, 8)], rst := 0x0, rw := 0xFFFFFFFF },
   { base := 0x1040, dims := [(0x8, 8)], rst := 0x0, rw := 0xFFFFFFFF },
   { base := 0x1044, dims := [(0x8, 8)], rst := 0x0, rw := 0xFFFFFFFF },
   { base := 0x1080, dims := [], rst := 0x0, rw := 0xFFFFFFFF },
   { base := 0x1084, dims := [], rst := 0x1000000, rw := 0xFFFFFFFF },
   { base := 0x1088, dims := [], rst := 0x0, w1c := 0xFFFFFF01 }]
  ++ [{ base := 0x1100, dims := [], rst := 0x0, rw := 0xF173301, w1s := 0x80000000 },
   { base := 0x1104, dims := [], rst := 0x0, ro := 0x1FF },
   { base := 0x1110, dims := [(0x4, 3)], rst := 0x0, rw := 0xFFFFFFFF },
   { base := 0x111C, dims := [], rst := 0x0, rw := 0xFFFFFFFF },
   { base := 0x1120, dims := [], rst := 0x0, rw := 0xFFFFFFFF },
   { base := 0x1124, dims := [], rst := 0x0, rw := 0xFFFFFFFF },
   { base := 0x1140, dims := [(0x4, 16)], rst := 0x0, wo := 0xFFFFFFFF },
   { base := 0x1200, dims := [(0x40, 8), (0x10, 4)], rst := 0x0, rw := 0xFFFFFFFF },
   { base := 0x1204, dims := [(0x40, 8), (0x10, 4)], rst := 0x0, rw := 0xFFFFFFFF },
   { base := 0x1208, dims := [(0x40, 8), (0x10, 4)], rst := 0x0, rw := 0x80000000 },
   { base := 0x1400, dims := [(0x40, 8)], rst := 0x0, rc := 0xFFFFFFFF, half := 1 },
   { base := 0x1404, dims := [(0x40, 8)], rst := 0x0, rc := 0xFFFFFFFF, half := 2 },
   { base := 0x1408, dims := [(0x40, 8)], rst := 0x0, rc := 0xFFFFFFFF, half := 1 },
   { base := 0x140C, dims := [(0x40, 8)], rst := 0x0, rc := 0xFFFFFFFF, half := 2 },
   { base := 0x1410, dims := [(0x40, 8), (0x4, 9)], rst := 0x0, rc := 0xFFFFFFFF },
   { base := 0x1600, dims := [(0x4, 8)], rst := 0x0, ro := 0xFFFFF },
   { base := 0x2000, dims := [(0x4, 8)], rst := 0x0, rw := 0xF0000000 },
   { base := 0x2020, dims := [(0x4, 8)], rst := 0x0, rw := 0xFFFFFF },
   { base := 0x2040, dims := [(0x10, 8)], rst := 0x0, ro := 0xFFFFFFFF },
   { base := 0x2044, dims := [(0x10, 8)], rst := 0x0, ro := 0xFFFFFFFF }]
  ++ [{ base := 0x2048, dims := [(0x10, 8)], rst := 0x0, ro := 0xFFFFFF1F },
   { base := 0x204C, dims := [(0x10, 8)], rst := 0x0, ro := 0xFFFFFFFF },
   { base := 0x20C0, dims := [(0x4, 8)], rst := 0x0, rc := 0xFFFFFFFF }]
/-- The rows of 02_register_space.md R33. -/
def rows_reachCommon : List Row :=
  []
/-- The rows of 04_parser_and_load_balance.md R107. -/
def rows_parser : List Row :=
  [{ base := 0x100, dims := [], rst := 0x8, rwe := 0xF },
   { base := 0x104, dims := [], rst := 0x0, rwe := 0xFFC },
   { base := 0x144, dims := [(0x4, 5)], rst := 0x0, rc := 0xFFFFFFFF },
   { base := 0x180, dims := [], rst := 0x0, rc := 0xFFFFFFFF },
   { base := 0x184, dims := [], rst := 0x0, rc := 0xFFFFFFFF },
   { base := 0x200, dims := [(0x4, 73)], rst := 0x0, rwe := 0xFF },
   { base := 0x2000, dims := [(0x80, 64)], rst := 0x0, rwe := 0x3F },
   { base := 0x2004, dims := [(0x80, 64)], rst := 0x0, rwe := 0xFFFFFFFF },
   { base := 0x2040, dims := [(0x80, 64), (0x4, 16)], rst := 0x0, rwe := 0xC3FF007F },
   { base := 0x4000, dims := [(0x800, 8), (0x4, 512)], rst := 0x0, rwe := 0xFFFFFFFF },
   { base := 0x8000, dims := [(0x10, 254)], rst := 0xFE, rwe := 0xFFFFFFFF },
   { base := 0x8004, dims := [(0x10, 254)], rst := 0x0, rwe := 0xFFFFFF80 },
   { base := 0x8008, dims := [(0x10, 254)], rst := 0x0, rwe := 0xFFFFFFFC },
   { base := 0x800C, dims := [(0x10, 254)], rst := 0x0, rwe := 0xFFFE0000 },
   { base := 0x9000, dims := [(0x10, 1024)], rst := 0x0, rwe := 0xFFFFFFFF },
   { base := 0x9004, dims := [(0x10, 1024)], rst := 0x0, rwe := 0xFFFFFFFF },
   { base := 0x9008, dims := [(0x10, 1024)], rst := 0x0, rwe := 0xFF },
   { base := 0xD000, dims := [(0x4, 1024)], rst := 0x0, rwe := 0xFFFFFC00 }]
/-- The rows of 05_weir_engines.md R144. -/
def rows_weir : List Row :=
  [{ base := 0x100, dims := [], rst := 0x0, rw := 0x800F07FF },
   { base := 0x104, dims := [], rst := 0x0, ro := 0x80000000, w1s := 0x7 },
   { base := 0x108, dims := [], rst := 0x0, ro := 0xFF },
   { base := 0x120, dims := [(0x4, 8)], rst := 0x0, rw := 0xFFFFFFFF },
   { base := 0x200, dims := [(0x4, 15)], rst := 0x0, rwe := 0x800007FF },
   { base := 0x240, dims := [], rst := 0x2, rwe := 0x7 },
   { base := 0x244, dims := [], rst := 0x0, rc := 0xFFFFFFFF },
   { base := 0x248, dims := [], rst := 0x0, rc := 0xFFFFFFFF },
   { base := 0x280, dims := [(0x4, 15)], rst := 0x0, rc := 0xFFFFFFFF },
   { base := 0x2C0, dims := [(0x4, 15)], rst := 0x0, rc := 0xFFFFFFFF },
   { base := 0x300, dims := [(0x4, 15)], rst := 0x0, rc := 0xFFFFFFFF },
   { base := 0x340, dims := [], rst := 0x0, ro := 0xF07FF, w1c := 0x80000000 },
   { base := 0x344, dims := [], rst := 0x0, ro := 0xF0F07FF, w1c := 0x80000000 },
   { base := 0x348, dims := [], rst := 0x0, ro := 0xF0F07FF, w1c := 0x80000000 },
   { base := 0x404, dims := [(0x4, 63)], rst := 0x0, rwe := 0x8F00FFFF },
   { base := 0x500, dims := [(0x8, 64)], rst := 0x0, rwe := 0xFFFEFFFE },
   { base := 0x504, dims := [(0x8, 64)], rst := 0x0, rwe := 0xFFFEFFFE },
   { base := 0x800, dims := [(0x80, 15), (0x4, 32)], rst := 0x0, rwe := 0xFFFFFFFF },
   { base := 0x1000, dims := [(0x10, 64)], rst := 0x0, rwe := 0x7FFFFFFF },
   { base := 0x1004, dims := [(0x10, 64)], rst := 0x5EE, rwe := 0x80003FFF }]
  ++ [{ base := 0x1800, dims := [], rst := 0x0, rw := 0xF007FFF, w1s := 0x80000000 },
   { base := 0x1804, dims := [], rst := 0x0, ro := 0xFF },
   { base := 0x1810, dims := [(0x4, 2)], rst := 0x0, rw := 0x3FFFFF },
   { base := 0x1818, dims := [(0x4, 2)], rst := 0x0, rw := 0xFFFFFF },
   { base := 0x1900, dims := [], rst := 0x0, rw := 0xF00FFFF, w1s := 0x80000000 },
   { base := 0x1904, dims := [], rst := 0x0, ro := 0xFF },
   { base := 0x1910, dims := [(0x4, 4)], rst := 0x0, ro := 0xFFFFFFFF }]
/-- The rows of 06_sluice_engines.md R170. -/
def rows_sluice : List Row :=
  [{ base := 0x100, dims := [], rst := 0x110, rw := 0x110, w1s := 0x3 },
   { base := 0x104, dims := [], rst := 0x0, ro := 0xF0F0F },
   { base := 0x108, dims := [], rst := 0x0, rw := 0xFFFFFFFF },
   { base := 0x10C, dims := [], rst := 0x0, rw := 0xFFFFFFFF },
   { base := 0x110, dims := [], rst := 0x0, rw := 0xFFFFF },
   { base := 0x114, dims := [], rst := 0x0, rw := 0x1, w1s := 0x80000000 },
   { base := 0x118, dims := [], rst := 0x0, ro := 0xFF },
   { base := 0x11C, dims := [], rst := 0x0, ro := 0xFFFFFFFF },
   { base := 0x120, dims := [], rst := 0x0, ro := 0xFFFFFFFF },
   { base := 0x130, dims := [], rst := 0xA, rw := 0x3FF },
   { base := 0x134, dims := [], rst := 0x3E8, rw := 0xFFFF },
   { base := 0x150, dims := [], rst := 0x0, rw := 0xFFFFFFFF },
   { base := 0x154, dims := [], rst := 0x0, rw := 0xFFFFFFFF },
   { base := 0x158, dims := [], rst := 0x0, rw := 0xFFFFFFFF },
   { base := 0x15C, dims := [], rst := 0x0, rw := 0xFFFFFFFF },
   { base := 0x160, dims := [], rst := 0x0, rw := 0xFFFFFFFF },
   { base := 0x164, dims := [], rst := 0x0, rw := 0xFFFFFFFF },
   { base := 0x200, dims := [(0x10, 4)], rst := 0x0, rw := 0x80003FFF },
   { base := 0x204, dims := [(0x10, 4)], rst := 0x0, rw := 0x3FFF },
   { base := 0x208, dims := [(0x10, 4)], rst := 0x0, ro := 0xF3FFF }]
  ++ [{ base := 0x20C, dims := [(0x10, 4)], rst := 0x0, rw := 0xFFFF },
   { base := 0x240, dims := [(0x8, 2)], rst := 0x0, rw := 0xFFFFFFFF },
   { base := 0x244, dims := [(0x8, 2)], rst := 0x0, rw := 0x3 },
   { base := 0x260, dims := [], rst := 0x0, w1c := 0x3FF },
   { base := 0x264, dims := [], rst := 0x0, rw := 0x3FF },
   { base := 0x268, dims := [], rst := 0x0, rw := 0xFFFFF },
   { base := 0x280, dims := [(0x4, 8)], rst := 0x0, rw := 0x80000FFF },
   { base := 0x300, dims := [], rst := 0x0, rw := 0x8000FFFC },
   { base := 0x304, dims := [], rst := 0x0, rw := 0xFFFFFFFF },
   { base := 0x310, dims := [], rst := 0x0, rw := 0x80003FFF },
   { base := 0x314, dims := [], rst := 0x0, ro := 0x80000000, w1s := 0x3 },
   { base := 0x318, dims := [], rst := 0x0, ro := 0xFF },
   { base := 0x320, dims := [(0x4, 8)], rst := 0x0, rw := 0xFFFFFFFF },
   { base := 0x400, dims := [], rst := 0x0, rc := 0xFFFFFFFF, half := 1 },
   { base := 0x404, dims := [], rst := 0x0, rc := 0xFFFFFFFF, half := 2 },
   { base := 0x408, dims := [], rst := 0x0, rc := 0xFFFFFFFF },
   { base := 0x40C, dims := [], rst := 0x0, rc := 0xFFFFFFFF },
   { base := 0x410, dims := [], rst := 0x0, rc := 0xFFFFFFFF },
   { base := 0x414, dims := [], rst := 0x0, rc := 0xFFFFFFFF },
   { base := 0x418, dims := [], rst := 0x0, rc := 0xFFFFFFFF }]
  ++ [{ base := 0x420, dims := [], rst := 0x0, ro := 0xF303FFF, w1c := 0x80000000 }]
/-- The rows of 11_scheduling_and_shaping.md R301. -/
def rows_sched : List Row :=
  [{ base := 0x100, dims := [], rst := 0x0, ro := 0x8000FFFF },
   { base := 0x110, dims := [], rst := 0x0, rc := 0xFFFFFFFF },
   { base := 0x114, dims := [], rst := 0x0, rc := 0xFFFFFFFF },
   { base := 0x118, dims := [], rst := 0x0, rc := 0xFFFFFFFF },
   { base := 0x11C, dims := [], rst := 0x0, rc := 0xFFFFFFFF },
   { base := 0x120, dims := [], rst := 0x0, rw := 0x80007F3F },
   { base := 0x124, dims := [], rst := 0x0, ro := 0x80000000, w1s := 0x3 },
   { base := 0x128, dims := [], rst := 0x0, ro := 0xFF },
   { base := 0x130, dims := [], rst := 0x0, rw := 0x3FFFFFFF },
   { base := 0x134, dims := [], rst := 0x0, rw := 0x3FFFFFFF },
   { base := 0x138, dims := [], rst := 0x0, rw := 0xC00FFFFF },
   { base := 0x13C, dims := [], rst := 0x0 },
   { base := 0x1000, dims := [(0x20, 73)], rst := 0x14, rwe := 0xECFF00FF },
   { base := 0x1004, dims := [(0x20, 73)], rst := 0x3020100, rwe := 0x83838383 },
   { base := 0x1008, dims := [(0x20, 73)], rst := 0x0, rwe := 0xFFFFF },
   { base := 0x100C, dims := [(0x20, 73)], rst := 0x0, rwe := 0x3FFFFFFF },
   { base := 0x1010, dims := [(0x20, 73)], rst := 0x0, rwe := 0x3FFFFFFF },
   { base := 0x1014, dims := [(0x20, 73)], rst := 0x0, rwe := 0xFFFFFFFF },
   { base := 0x1018, dims := [(0x20, 73)], rst := 0x0, rwe := 0xFFFFFFFF },
   { base := 0x101C, dims := [(0x20, 73)], rst := 0x0, ro := 0x7 }]
  ++ [{ base := 0x2000, dims := [(0x4, 1456)], rst := 0x800, rwe := 0xFFFFFF },
   { base := 0x4000, dims := [(0x4, 1456)], rst := 0x0, ro := 0x1FFFFFF }]
/-- The rows of 11_scheduling_and_shaping.md R303. -/
def rows_wheel : List Row :=
  [{ base := 0x100, dims := [], rst := 0x0, ro := 0x3FF03FF },
   { base := 0x104, dims := [], rst := 0x0, rc := 0xFFFFFFFF },
   { base := 0x108, dims := [], rst := 0x0, rc := 0xFFFFFFFF },
   { base := 0x1000, dims := [(0x8, 73)], rst := 0x0, rwe := 0x3FFFFF },
   { base := 0x1004, dims := [(0x8, 73)], rst := 0x0, rwe := 0xFFFFFF },
   { base := 0x2000, dims := [(0x8, 1456)], rst := 0x0, rwe := 0x3FFFFF },
   { base := 0x2004, dims := [(0x8, 1456)], rst := 0x0, rwe := 0xFFFFFF }]
/-- The rows of 11_scheduling_and_shaping.md R304. -/
def rows_gauge : List Row :=
  [{ base := 0x100, dims := [], rst := 0x80000004, rw := 0x8000000F },
   { base := 0x104, dims := [], rst := 0x1, rw := 0xFFFFFFFF },
   { base := 0x108, dims := [], rst := 0x0, rc := 0xFFFFFFFF },
   { base := 0x110, dims := [(0x4, 46)], rst := 0x0, w1c := 0xFFFFFFFF },
   { base := 0x1000, dims := [(0x10, 1456)], rst := 0x0, ro := 0xFFFFFF },
   { base := 0x1004, dims := [(0x10, 1456)], rst := 0x0, ro := 0xFFFFFFFF },
   { base := 0x1008, dims := [(0x10, 1456)], rst := 0x0, rc := 0xFFFFFF },
   { base := 0x100C, dims := [(0x10, 1456)], rst := 0x0, rc := 0xFFFFFFFF },
   { base := 0x7000, dims := [(0x8, 1456)], rst := 0x0, rw := 0xFFFFFF },
   { base := 0x7004, dims := [(0x8, 1456)], rst := 0x0, rw := 0xFFFFFFFF },
   { base := 0xA000, dims := [(0x8, 1456)], rst := 0x0, rw := 0x80FFFFFF },
   { base := 0xA004, dims := [(0x8, 1456)], rst := 0x0, rw := 0xFFFFFFFF }]
/-- The rows of 14_level_release.md R365. -/
def rows_level : List Row :=
  [{ base := 0x100, dims := [], rst := 0x4, rwe := 0xF },
   { base := 0x104, dims := [], rst := 0x0, ro := 0x3FF },
   { base := 0x108, dims := [], rst := 0x0, rc := 0xFFFFFFFF, half := 1 },
   { base := 0x10C, dims := [], rst := 0x0, rc := 0xFFFFFFFF, half := 2 },
   { base := 0x110, dims := [], rst := 0x0, rc := 0xFFFFFFFF },
   { base := 0x114, dims := [], rst := 0x0, ro := 0x3FF03FFF, w1c := 0x80000000 },
   { base := 0x118, dims := [], rst := 0x0, rc := 0xFFFF },
   { base := 0x200, dims := [(0x4, 16)], rst := 0x640, rwe := 0x1FFFF },
   { base := 0x400, dims := [(0x4, 72)], rst := 0x0, rwe := 0xFFF },
   { base := 0x8000, dims := [(0x4, 2048)], rst := 0x0, rwe := 0xFFFFFFFF }]
/-- The rows of 15_telemetry_and_ledger.md R392. -/
def rows_trace : List Row :=
  [{ base := 0x100, dims := [], rst := 0x0, rwe := 0x1 },
   { base := 0x104, dims := [], rst := 0x0, ro := 0xFFF },
   { base := 0x108, dims := [], rst := 0x0, rc := 0xFFFFFFFF },
   { base := 0x10C, dims := [], rst := 0x0, rc := 0xFFFFFFFF },
   { base := 0x200, dims := [(0x4, 16)], rst := 0x0, rw := 0xC01F07FF },
   { base := 0x1000, dims := [(0x80, 16), (0x4, 32)], rst := 0x0, rc := 0xFFFFFFFF }]
/-- The rows of 10_switch_core_and_queues.md R274. -/
def rows_switch : List Row :=
  [{ base := 0x100, dims := [], rst := 0x3, rw := 0x3 },
   { base := 0x104, dims := [], rst := 0x100000, ro := 0x1FFFFF },
   { base := 0x108, dims := [], rst := 0x200000, ro := 0x3FFFFF },
   { base := 0x110, dims := [(0x4, 2)], rst := 0x0, rw := 0xFFFFFFFF },
   { base := 0x118, dims := [], rst := 0x0, rw := 0x1FFFFF },
   { base := 0x11C, dims := [], rst := 0x0, rw := 0x3FFFFF },
   { base := 0x120, dims := [], rst := 0x0, rw := 0x40000000 },
   { base := 0x124, dims := [], rst := 0x7D000C8, rw := 0xFFFFFFFF },
   { base := 0x128, dims := [], rst := 0x0, wo := 0x307FF },
   { base := 0x130, dims := [], rst := 0x0, rw := 0x8000003F },
   { base := 0x134, dims := [], rst := 0x0, ro := 0xFFFFFFF, w1c := 0x80000000 },
   { base := 0x140, dims := [], rst := 0x0, rw := 0xF007FFF, w1s := 0x80000000 },
   { base := 0x144, dims := [], rst := 0x0, ro := 0xFF },
   { base := 0x150, dims := [], rst := 0x0, rw := 0xFFFFFF },
   { base := 0x154, dims := [], rst := 0x0, ro := 0xFFFFFF },
   { base := 0x158, dims := [], rst := 0x0, ro := 0x3FFFFF },
   { base := 0x15C, dims := [], rst := 0x0, ro := 0xFFFFFFFF },
   { base := 0x180, dims := [], rst := 0x0, rc := 0xFFFFFFFF },
   { base := 0x184, dims := [], rst := 0x0, rc := 0xFFFFFFFF },
   { base := 0x204, dims := [(0x4, 63)], rst := 0x0, rc := 0xFFFFFFFF }]
  ++ [{ base := 0x2000, dims := [(0x4, 1153)], rst := 0x1, rw := 0x3 },
   { base := 0x4000, dims := [(0x4, 1153)], rst := 0x0, ro := 0x70101 },
   { base := 0x6000, dims := [(0x4, 36)], rst := 0x0, w1c := 0xFFFFFFFF },
   { base := 0x6100, dims := [(0x4, 36)], rst := 0x0, w1c := 0xFFFFFFFF }]
/-- The rows of 09_buffer_pools.md R251. -/
def rows_bufmgr : List Row :=
  [{ base := 0x100, dims := [], rst := 0xB018030, rw := 0x1FF7FDFF },
   { base := 0x104, dims := [], rst := 0x7000000, rw := 0x70700FF },
   { base := 0x110, dims := [(0x4, 3)], rst := 0x0, ro := 0x3FFFFF },
   { base := 0x120, dims := [(0x4, 3)], rst := 0x0, ro := 0x3FFFFF },
   { base := 0x130, dims := [(0x4, 3)], rst := 0x0, ro := 0xF03FFFFF },
   { base := 0x140, dims := [(0x4, 3)], rst := 0x0, ro := 0x3FFFFF },
   { base := 0x150, dims := [(0x4, 3)], rst := 0x0, rw := 0x3FFFFF },
   { base := 0x180, dims := [], rst := 0x0, rc := 0xFFFFFFFF },
   { base := 0x184, dims := [], rst := 0x0, rc := 0xFFFFFFFF },
   { base := 0x188, dims := [], rst := 0x0, rc := 0xFFFFFFFF },
   { base := 0x18C, dims := [], rst := 0x0, rc := 0xFFFFFFFF },
   { base := 0x190, dims := [], rst := 0x0, rc := 0xFFFFFFFF },
   { base := 0x194, dims := [], rst := 0x0, rc := 0xFFFFFFFF },
   { base := 0x1A0, dims := [], rst := 0x0, ro := 0x433FFFFF, w1c := 0x80000000 },
   { base := 0x1A4, dims := [], rst := 0x0, ro := 0xFFFFFFFF },
   { base := 0x1B0, dims := [], rst := 0x0, rw := 0xFFFFFFF, w1s := 0x80000000 },
   { base := 0x1B4, dims := [], rst := 0x0, rw := 0x1FFF },
   { base := 0x1B8, dims := [], rst := 0x0, ro := 0xFF },
   { base := 0x1C0, dims := [], rst := 0x0, w1c := 0xFFFFFFFF },
   { base := 0x200, dims := [(0x20, 3), (0x8, 4)], rst := 0x3FFFFF, rw := 0x3FFFFF }]
  ++ [{ base := 0x204, dims := [(0x20, 3), (0x8, 4)], rst := 0x3FFFFF, rw := 0x3FFFFF },
   { base := 0x400, dims := [(0x4, 32)], rst := 0x0, ro := 0xF0FFFFFF },
   { base := 0x1000, dims := [(0x20, 32), (0x8, 4)], rst := 0xFFFFFF, rw := 0xFFFFFF },
   { base := 0x1004, dims := [(0x20, 32), (0x8, 4)], rst := 0xFFFFFF, rw := 0xFFFFFF },
   { base := 0x2000, dims := [(0x4, 1153)], rst := 0x0, rw := 0x1F }]
/-- The rows of 10_switch_core_and_queues.md R277. -/
def rows_mcast : List Row :=
  [{ base := 0x100, dims := [], rst := 0x0, rw := 0xF01FFFF, w1s := 0x80000000 },
   { base := 0x104, dims := [], rst := 0x0, rw := 0xFFFFFFFF },
   { base := 0x108, dims := [], rst := 0x0, ro := 0xFF },
   { base := 0x110, dims := [], rst := 0x0, rc := 0xFFFFFFFF }]
/-- The rows of 07_exact_match_and_learning.md R201. -/
def rows_em : List Row :=
  [{ base := 0x100, dims := [], rst := 0x0, rw := 0xF0F0000, w1s := 0x80000000 },
   { base := 0x104, dims := [], rst := 0x0, ro := 0xFF },
   { base := 0x108, dims := [], rst := 0x0, rw := 0xFFFFFFFF },
   { base := 0x10C, dims := [], rst := 0x0, rw := 0xFFFFFFFF },
   { base := 0x110, dims := [(0x4, 4)], rst := 0x0, rw := 0xFFFFFFFF },
   { base := 0x120, dims := [(0x4, 4)], rst := 0x0, rw := 0xFFFFFFFF },
   { base := 0x130, dims := [], rst := 0x0, rw := 0xFFFFFFFF },
   { base := 0x134, dims := [], rst := 0x0, rw := 0xFFFFFFFF },
   { base := 0x138, dims := [], rst := 0x0, rw := 0xFFFFFFFF },
   { base := 0x13C, dims := [], rst := 0x0, rw := 0xFFFFFFFF },
   { base := 0x200, dims := [(0x20, 16)], rst := 0x0, rw := 0x81FF00FF },
   { base := 0x204, dims := [(0x20, 16)], rst := 0x0, rw := 0xFFFFFFFF },
   { base := 0x208, dims := [(0x20, 16)], rst := 0x0, rw := 0xFFFFFFFF },
   { base := 0x20C, dims := [(0x20, 16)], rst := 0x0, rw := 0xF03F000F },
   { base := 0x210, dims := [(0x20, 16), (0x4, 4)], rst := 0x0, rw := 0xFFFFFFFF },
   { base := 0x400, dims := [(0x4, 16)], rst := 0x0, ro := 0x3FFFFF },
   { base := 0x440, dims := [], rst := 0x0, rc := 0xFFFFFFFF },
   { base := 0x444, dims := [], rst := 0x0, rc := 0xFFFFFFFF },
   { base := 0x448, dims := [], rst := 0x0, rc := 0xFFFFFFFF },
   { base := 0x44C, dims := [], rst := 0x0, rc := 0xFFFFFFFF }]
  ++ [{ base := 0x450, dims := [], rst := 0x0, rc := 0xFFFFFFFF },
   { base := 0x454, dims := [], rst := 0x0, rc := 0xFFFFFFFF },
   { base := 0x458, dims := [], rst := 0x0, ro := 0x1FFFF },
   { base := 0x460, dims := [], rst := 0x3E8, rw := 0xFFFF },
   { base := 0x464, dims := [], rst := 0x64, rw := 0xFFFF }]
/-- The rows of 08_prefix_lookup.md R226. -/
def rows_pfx : List Row :=
  [{ base := 0x100, dims := [], rst := 0x0, w1s := 0x80000000 },
   { base := 0x104, dims := [], rst := 0x0, ro := 0xFF },
   { base := 0x140, dims := [(0x4, 16)], rst := 0x0, rw := 0xFFFFFFFF },
   { base := 0x200, dims := [], rst := 0x0, rw := 0x803F0000 },
   { base := 0x204, dims := [], rst := 0x0, rw := 0x803F0000 },
   { base := 0x210, dims := [], rst := 0x0, rw := 0xFFFFFFFF },
   { base := 0x214, dims := [], rst := 0x0, rw := 0xFFFFFFFF },
   { base := 0x218, dims := [(0x4, 2)], rst := 0x0, rw := 0xFFFFFFFF },
   { base := 0x220, dims := [(0x4, 2)], rst := 0x0, rw := 0xFFFFFFFF },
   { base := 0x228, dims := [(0x4, 2)], rst := 0x0, rw := 0xFFFFFFFF },
   { base := 0x280, dims := [(0x4, 64)], rst := 0x0, rw := 0xF03 },
   { base := 0x400, dims := [], rst := 0x0, ro := 0x1FFFFF },
   { base := 0x404, dims := [], rst := 0x0, ro := 0xFFFFF },
   { base := 0x408, dims := [], rst := 0x0, ro := 0x1FFFFF },
   { base := 0x40C, dims := [], rst := 0x0, ro := 0x3FFF3FFF },
   { base := 0x440, dims := [], rst := 0x0, rc := 0xFFFFFFFF },
   { base := 0x444, dims := [], rst := 0x0, rc := 0xFFFFFFFF }]
/-- The rows of 04_parser_and_load_balance.md R108. -/
def rows_lb : List Row :=
  [{ base := 0x100, dims := [], rst := 0x0, rw := 0xFFFF1FF, w1s := 0x80000000 },
   { base := 0x104, dims := [], rst := 0x0, rw := 0xFFFFFFFF },
   { base := 0x108, dims := [], rst := 0x0, ro := 0xFF },
   { base := 0x110, dims := [], rst := 0x0, rc := 0xFFFFFFFF }]
/-- The rows of 12_flume_tier.md R323. -/
def rows_flume : List Row :=
  [{ base := 0x100, dims := [], rst := 0x0, ro := 0x303 },
   { base := 0x104, dims := [], rst := 0x200C0103, rw := 0x3F3F3F3F },
   { base := 0x110, dims := [(0x4, 5)], rst := 0x0, ro := 0xFFF },
   { base := 0x140, dims := [], rst := 0x80000000, rw := 0x80000003 },
   { base := 0x144, dims := [], rst := 0x0, ro := 0xFFFFFFFF },
   { base := 0x148, dims := [], rst := 0x0, rc := 0xFFFFFFFF },
   { base := 0x14C, dims := [], rst := 0x0, rc := 0xFFFFFFFF },
   { base := 0x150, dims := [], rst := 0x0, ro := 0x3FFFFFFF },
   { base := 0x154, dims := [], rst := 0x0, ro := 0x7000000, w1c := 0x80000000 },
   { base := 0x160, dims := [], rst := 0x0, ro := 0x300FFFF }]
/-- The rows of 12_flume_tier.md R324. -/
def rows_spill : List Row :=
  [{ base := 0x100, dims := [], rst := 0x0, rw := 0x1 },
   { base := 0x104, dims := [], rst := 0x0, ro := 0x3FFF },
   { base := 0x108, dims := [], rst := 0x0, ro := 0xFFFFFF },
   { base := 0x110, dims := [], rst := 0x0, rc := 0xFFFFFFFF },
   { base := 0x114, dims := [], rst := 0x0, rc := 0xFFFFFFFF },
   { base := 0x118, dims := [], rst := 0x0, rc := 0xFFFFFFFF, half := 1 },
   { base := 0x11C, dims := [], rst := 0x0, rc := 0xFFFFFFFF, half := 2 },
   { base := 0x120, dims := [], rst := 0x0, rc := 0xFFFFFFFF, half := 1 },
   { base := 0x124, dims := [], rst := 0x0, rc := 0xFFFFFFFF, half := 2 },
   { base := 0x200, dims := [(0x8, 8)], rst := 0xFFFFFF, rw := 0xFFFFFF },
   { base := 0x204, dims := [(0x8, 8)], rst := 0x0, rw := 0xFFFFFF },
   { base := 0x1000, dims := [(0x4, 1152)], rst := 0x0, rw := 0x80070FFF }]
/-- The rows of 15_telemetry_and_ledger.md R390. -/
def rows_telemetry : List Row :=
  [{ base := 0x100, dims := [], rst := 0x0, rw := 0x3 },
   { base := 0x104, dims := [], rst := 0x0, rw := 0xFFFFFFFF },
   { base := 0x108, dims := [], rst := 0x0, ro := 0xFFFF },
   { base := 0x10C, dims := [], rst := 0x0, rw := 0xFFFF },
   { base := 0x110, dims := [], rst := 0x0, rc := 0xFFFFFFFF },
   { base := 0x114, dims := [], rst := 0x0, rc := 0xFFFFFFFF },
   { base := 0x118, dims := [], rst := 0x0, rw := 0xFFFFFFFE },
   { base := 0x11C, dims := [], rst := 0x0, rw := 0xFFFFFFFF },
   { base := 0x120, dims := [], rst := 0x0, rw := 0x8000001F },
   { base := 0x200, dims := [(0x4, 32)], rst := 0x0, rw := 0xC0FFFFFF },
   { base := 0x300, dims := [(0x8, 32)], rst := 0x0, rw := 0x8F0FFFFF },
   { base := 0x304, dims := [(0x8, 32)], rst := 0x40, rw := 0xFFFF },
   { base := 0x400, dims := [(0x8, 32)], rst := 0x0, rc := 0xFFFFFFFF },
   { base := 0x404, dims := [(0x8, 32)], rst := 0x0, rc := 0xFFFFFFFF }]
/-- The rows of 15_telemetry_and_ledger.md R391. -/
def rows_ledger : List Row :=
  [{ base := 0x100, dims := [], rst := 0x1003E8, rw := 0x81FFFFFF },
   { base := 0x104, dims := [], rst := 0x0, ro := 0xC00FFFFF },
   { base := 0x108, dims := [], rst := 0x0, ro := 0xFFFFFFFF },
   { base := 0x10C, dims := [], rst := 0x0, ro := 0xFFFFFFFF },
   { base := 0x110, dims := [], rst := 0x0, ro := 0xFFFFFFFF },
   { base := 0x114, dims := [], rst := 0x0, ro := 0xFFFFFFFF },
   { base := 0x118, dims := [], rst := 0x0, ro := 0xFFFFFFFF },
   { base := 0x120, dims := [(0x4, 4)], rst := 0x0, ro := 0xFFFFFFFF },
   { base := 0x130, dims := [], rst := 0x0, rc := 0xFFFFFFFF, half := 1 },
   { base := 0x134, dims := [], rst := 0x0, rc := 0xFFFFFFFF, half := 2 },
   { base := 0x138, dims := [], rst := 0x0, rc := 0xFFFFFFFF },
   { base := 0x13C, dims := [], rst := 0x0, ro := 0xFFFFFFFF }]
/-- The rows of 23_host_interface_dma.md R547. -/
def rows_dma : List Row :=
  [{ base := 0x100, dims := [], rst := 0x32, rw := 0xFF },
   { base := 0x104, dims := [], rst := 0x0, ro := 0xFFFFFF },
   { base := 0x110, dims := [(0x4, 16)], rst := 0x0, rw := 0x3F },
   { base := 0x150, dims := [], rst := 0x0, rc := 0xFFFFFFFF },
   { base := 0x160, dims := [], rst := 0x0, ro := 0x700003F, w1c := 0x80000000 },
   { base := 0x164, dims := [], rst := 0x0, ro := 0xFFFFFFFF },
   { base := 0x168, dims := [], rst := 0x0, ro := 0xFFFFFFFF }]
/-- The rows of 23_host_interface_dma.md R548. -/
def rows_ringblk : List Row :=
  [{ base := 0x100, dims := [(0x40, 8)], rst := 0x0, rw := 0xFFFFFFC0 },
   { base := 0x104, dims := [(0x40, 8)], rst := 0x0, rw := 0xFFFFFFFF },
   { base := 0x108, dims := [(0x40, 8)], rst := 0x0, rw := 0x9F1F0003 },
   { base := 0x10C, dims := [(0x40, 8)], rst := 0x0, rw := 0xFFFF },
   { base := 0x110, dims := [(0x40, 8)], rst := 0x0, ro := 0xFFFF },
   { base := 0x114, dims := [(0x40, 8)], rst := 0x0, rw := 0xFFFF },
   { base := 0x118, dims := [(0x40, 8)], rst := 0x1, rw := 0xFFFFFFFF },
   { base := 0x11C, dims := [(0x40, 8)], rst := 0x0, ro := 0x3 },
   { base := 0x120, dims := [(0x40, 8)], rst := 0x0, rc := 0xFFFFFFFF, half := 1 },
   { base := 0x124, dims := [(0x40, 8)], rst := 0x0, rc := 0xFFFFFFFF, half := 2 }]

/-- The kind of an implemented page, `none` for a reserved one (R33). -/
def kindOf (pg : Nat) : Option Kind :=
  match pg with
  | 0x000 => some .chip
  | 0x001 => some .rstclk
  | 0x002 => some .pwr
  | 0x003 => some .time
  | 0x004 => some .life
  | 0x005 => some .epoch
  | 0x006 => some .mbx
  | 0x007 => some .therm
  | 0x008 => some .fault
  | 0x010 => some .vault
  | 0x220 => some .switch
  | 0x221 => some .bufmgr
  | 0x222 => some .mcast
  | 0x231 => some .em
  | 0x232 => some .pfx
  | 0x23C => some .lb
  | 0x240 => some .flume
  | 0x241 => some .spill
  | 0x250 => some .telemetry
  | 0x251 => some .ledger
  | 0x260 => some .dma
  | n =>
    if 0x020 ≤ n ∧ n < 0x040 then some .upage
    else if 0x040 ≤ n ∧ n < 0x088 then some .lane
    else if 0x090 ≤ n ∧ n < 0x120 then some .port
    else if 0x120 ≤ n ∧ n < 0x220 then
      match n % 16 with
      | 0 => some .reachCommon
      | 1 => some .parser
      | 2 => some .weir
      | 3 => some .sluice
      | 4 => some .sched
      | 5 => some .wheel
      | 6 => some .gauge
      | 7 => some .level
      | 8 => some .trace
      | _ => none
    else if 0x261 ≤ n ∧ n < 0x269 then some .ringblk
    else none

/-- The rows of a page beyond its header. -/
def rowsOf : Kind → List Row
  | .chip => rows_chip
  | .rstclk => rows_rstclk
  | .pwr => rows_pwr
  | .time => rows_time
  | .life => rows_life
  | .epoch => rows_epoch
  | .mbx => rows_mbx
  | .therm => rows_therm
  | .fault => rows_fault
  | .vault => rows_vault
  | .upage => rows_upage
  | .lane => rows_lane
  | .port => rows_port
  | .reachCommon => rows_reachCommon
  | .parser => rows_parser
  | .weir => rows_weir
  | .sluice => rows_sluice
  | .sched => rows_sched
  | .wheel => rows_wheel
  | .gauge => rows_gauge
  | .level => rows_level
  | .trace => rows_trace
  | .switch => rows_switch
  | .bufmgr => rows_bufmgr
  | .mcast => rows_mcast
  | .em => rows_em
  | .pfx => rows_pfx
  | .lb => rows_lb
  | .flume => rows_flume
  | .spill => rows_spill
  | .telemetry => rows_telemetry
  | .ledger => rows_ledger
  | .dma => rows_dma
  | .ringblk => rows_ringblk

/-- INT_CAUSE bits [27:0] of a page: the mask of its W1C event bits. -/
def evMask : Kind → Nat
  | .chip => 0x0
  | .rstclk => 0xF000000
  | .pwr => 0xFF80000
  | .time => 0xFEB0000
  | .life => 0xF000001
  | .epoch => 0xFC00001
  | .mbx => 0xC00000
  | .therm => 0xF800000
  | .fault => 0xE000001
  | .vault => 0xF000000
  | .upage => 0x8000001
  | .lane => 0xF000000
  | .port => 0xEFFFFFF
  | .reachCommon => 0x0
  | .parser => 0x11F
  | .weir => 0xF800003
  | .sluice => 0xFC00001
  | .sched => 0xFC00001
  | .wheel => 0x8000000
  | .gauge => 0x0
  | .level => 0x8000000
  | .trace => 0x8000000
  | .switch => 0x3C00001
  | .bufmgr => 0xFF70001
  | .mcast => 0x1
  | .em => 0xF800001
  | .pfx => 0xC000001
  | .lb => 0x3
  | .flume => 0xE000000
  | .spill => 0xC000000
  | .telemetry => 0xC000000
  | .ledger => 0xF000000
  | .dma => 0x8000000
  | .ringblk => 0xFF

/-- INT_CAUSE bits [27:0] of a page that follow a condition (RO). -/
def levelMask : Kind → Nat
  | .chip => 0x0
  | .rstclk => 0x0
  | .pwr => 0x0
  | .time => 0x140000
  | .life => 0x0
  | .epoch => 0x0
  | .mbx => 0xF000000
  | .therm => 0x0
  | .fault => 0x0
  | .vault => 0x0
  | .upage => 0x0
  | .lane => 0xFFFF
  | .port => 0x1000000
  | .reachCommon => 0x0
  | .parser => 0x0
  | .weir => 0x0
  | .sluice => 0x0
  | .sched => 0x0
  | .wheel => 0x0
  | .gauge => 0x8000000
  | .level => 0x0
  | .trace => 0x0
  | .switch => 0xC000000
  | .bufmgr => 0x80000
  | .mcast => 0x0
  | .em => 0x0
  | .pfx => 0x0
  | .lb => 0x0
  | .flume => 0x0
  | .spill => 0x0
  | .telemetry => 0x2000000
  | .ledger => 0x0
  | .dma => 0x0
  | .ringblk => 0x0

/-- Whether a row's repetitions hit the distance `d` from its first register. -/
def hits : List (Nat × Nat) → Nat → Bool
  | [], d => d == 0
  | (st, n) :: ds, d => d / st < n && hits ds (d % st)

/-- Whether a row names the register at byte offset `off` of its page. -/
def Row.covers (r : Row) (off : Nat) : Bool := r.base ≤ off && hits r.dims (off - r.base)

/-- The row of the register at a BAR0 offset, `none` where the page or the offset is reserved (R34). -/
def rowAt (a : Nat) : Option Row :=
  match kindOf (a / 65536) with
  | none => none
  | some k =>
    if a % 65536 < 0x100 then rows_header.find? (·.covers (a % 65536))
    else (rowsOf k).find? (·.covers (a % 65536))

end Sys2Proof.Machine.Reg
end

