-- ==== Sys2Proof/Machine/State.lean ====
section
/-!
DEFINITION. Machine/State.lean: the state of the block as plain data, and State.reset. A register is held in
one sparse store keyed by its BAR0 offset (`Chip.regs`); the structures beside it hold what the spec gives
the machine beyond its registers. Each field's comment ends with its width, the rule that names it and its
value at reset.
-/
namespace Sys2Proof.Machine

/-! ## Why a step stops -/

/-- Faults. No rule of the spec stops the block: its errors are statuses, events and drops, which are next
states. -/
inductive Fault where
  /-- Never raised: the type is kept inhabited so that statements can name it. Safe. -/
  | none
  deriving DecidableEq, Repr

/-- Refusals. -/
inductive Refusal where
  /-- The command has no meaning in the model yet; raised by its arm of `exec`. Safe. -/
  | notModelled (mnemonic : String)
  deriving DecidableEq, Repr

/-! ## What leaves the block -/

/-- What the outside world sees the block send. -/
inductive Output where
  /-- A register read returned `v` to an agent (R6, R34). -/
  | read (agent : Nat) (off : Nat) (v : Word)
  /-- An MSI-X message of a function's vector (R54). -/
  | msix (func vec : Nat)
  /-- A frame, or the part sent, leaves a logical port (R19 point 10); `stomp` when it ends with an
  inverted FCS (R263). -/
  | frame (lp : Nat) (bytes : List Byte) (stomp : Bool)
  /-- A flow-control frame leaves a port (R245). -/
  | flow (lp : Nat) (bytes : List Byte)
  /-- Bytes written to host memory (R401, R536). -/
  | host (addr : Nat) (bytes : List Byte)
  /-- A message of an on-chip service to the host or a sluice: mailbox and body (R169, R350). -/
  | notice (mbx opcode : Nat) (body : List Byte)
  /-- The response of a service to a request: mailbox, opcode, Onvos status and body (R169). -/
  | reply (mbx opcode status : Nat) (body : List Byte)
  /-- A pace-group frame leaves PACE_OUT (R468). -/
  | paceOut (w : Word)
  /-- An SMBus word, or a NACK (R560). -/
  | smbus (w : Option (BitVec 16))
  /-- The frozen-access port answers with data, or with an error response (R513, R514). -/
  | frozen (v : Option (BitVec 64))
  /-- A captured or exported record sent outside (R374). -/
  | data (kind : Nat) (bytes : List Byte)
  deriving DecidableEq, Repr

/-! ## AUX domain: lifecycle, boot, power, freeze -/

/-- The OTP fuses (R499, R502, R507). -/
structure Otp where
  /-- First copy of the lifecycle fuse word [code 0 to 5; R499; reset: kept, 0 BLANK as shipped, DESIGN CHOICE, log 7] -/
  st0 : Nat := 0
  /-- Second copy [code 0 to 5; R499; reset: as the first] -/
  st1 : Nat := 0
  /-- Third copy [code 0 to 5; R499; reset: as the first] -/
  st2 : Nat := 0
  /-- Device secret, 32 bytes once burned, empty before [256 bits; R502; reset: unburned, log 7] -/
  secret : List Byte := []
  /-- DBG_KEY_HASH [384 bits; R502; reset: unburned (empty), log 7] -/
  dbgHash : List Byte := []
  /-- Customer key slots 0 to 3: hash and REVOKED [4 × (384 + 1 bits); R502, R507; reset: empty, log 7] -/
  custKeys : List (Option (List Byte × Bool)) := [none, none, none, none]
  /-- Security version floors, index 0 to 8: floor and raises left [9 × (16 + 6 bits); R507; reset: floor 0, 32 left, log 7] -/
  svn : List (Nat × Nat) := List.replicate 9 (0, 32)
  deriving DecidableEq, Repr

/-- A debug session (R500, R503). -/
structure Session where
  /-- Facility bits [5 bits; R508] -/
  mask : Nat
  /-- Seconds the session timer was loaded with, counted by AUX_CLK [16 bits; R503, R504] -/
  length : Nat
  /-- Real time at which it was loaded [the model's own clock, log 10] -/
  at_ : Nat
  deriving DecidableEq, Repr

/-- Whether the supplies are up and which reset holds the device. -/
inductive Rail where
  | off      -- VDD_AUX is down
  | held     -- VDD_AUX is up and the device is held in reset, not yet booted
  | run      -- the boot timeline has run
  deriving DecidableEq, Repr

/-- The AUX domain: root of trust, reset and power sequencing, freeze record. -/
structure Aux where
  /-- Supplies and reset [-; R517, R519; reset: run, booted] -/
  rail : Rail := .run
  /-- The fuses -/
  otp : Otp := {}
  /-- The debug session, if one is open [-; R500; reset: none] -/
  session : Option Session := none
  /-- Whether DBG_CHAL is the current challenge [1 bit; R503; reset: 0] -/
  chalCurrent : Bool := false
  /-- LC_STAT.FAILS, failed UNLOCKs since reset [4 bits; R504; reset 0] -/
  fails : Nat := 0
  /-- TOKEN_BUF, 512 bytes, sparse by byte [512 × 8; R515; reset 0] -/
  tokenBuf : SMap Byte := []
  /-- RST_BOOT.PHASE [4 bits; R524; reset: 6 READY once booted] -/
  phase : Nat := 6
  /-- PWR_STAT.STATE: 0 ACTIVE, 1 QUIESCE, 2 STANDBY [2 bits; R526; reset 0] -/
  pstate : Nat := 0
  /-- A PWR_CMD STANDBY that waits for retirement [1 bit; R526; reset 0] -/
  standbyWait : Bool := false
  /-- FRZ_STAT.FROZEN [1 bit; R513; reset 0] -/
  frozen : Bool := false
  /-- FRZ_STAT trigger kind and page, FRZ_SEC, FRZ_NS: the record held in AUX [4 + 12 + 32 + 30 bits; R511, R512; reset: kept, 0] -/
  frzKind : Nat := 0
  frzPage : Nat := 0
  frzSec : Nat := 0
  frzNs : Nat := 0
  /-- RST_CAUSE, held in AUX [5 bits; R529; reset: POR and AUX_POR, log 8] -/
  rstCause : Nat := 3
  /-- RST_CTL.NEXT_SLOT, held in AUX [2 bits; R523; reset 0] -/
  nextSlot : Nat := 0
  /-- THERMTRIP_N asserted [1 pin; R473; reset: deasserted] -/
  thermtrip : Bool := false
  /-- THERM_STAT.TRIP, held in AUX [1 bit; R473; reset: kept, 0] -/
  trip : Bool := false
  /-- BOOT_STAT.SLOT and the failure codes of the two slots [2 + 4 + 4 bits; R506; reset: slot 0, no failure, log 8] -/
  bootSlot : Nat := 0
  fail0 : Nat := 0
  fail1 : Nat := 0
  /-- The IEEE 1149.1 instruction in force [-; R508, R510; reset: IDCODE, PRESUMED from IEEE 1149.1, log 9] -/
  tap : ScanInstr := .idcode
  deriving DecidableEq, Repr

/-! ## Timebase -/

/-- One transmit timestamp (R339). -/
structure TxTs where
  /-- T_out in device-time units -/
  t : Nat
  msgType : Nat
  seqId : Nat
  domain : Nat
  edited : Bool
  tsErr : Bool
  deriving DecidableEq, Repr

/-- An armed step (R344): ADD or SET, the signed value, the issuing agent. -/
structure StepCmd where
  isSet : Bool
  neg : Bool
  /-- the magnitude, in device-time units -/
  value : Nat
  agent : Nat
  /-- issued by the STEP service of S1, which answers when it is applied (R350) -/
  svc : Bool := false
  deriving DecidableEq, Repr

/-- The TIME domain. A device-time unit is 2^-16 ns / 12,304,687,500, so that every increment of R331 is a
whole number of units: rounding never accumulates. -/
structure Clk where
  /-- Real time since reset in units of 1/3150 ns, in which every pace's core clock and the TIME clock are whole numbers [unbounded; R5, R24, R329; reset 0; the model's own clock, log 10] -/
  now : Nat := 0
  /-- Device time: the voted value of the three counters [110 bits and 2^-40 ns; R326, R331, R332; reset 0] -/
  tod : Nat := 0
  /-- F in force, 2^-8 ppb, signed [32 bits; R331; reset 0] -/
  freq : Int := 0
  /-- F that takes effect at the next sync boundary [32 bits; R341; reset: none] -/
  nextFreq : Option Int := none
  /-- Real time of the last sync word [-; R333; reset 0] -/
  lastSync : Nat := 0
  /-- SERVO_STAT.STATE: 0 DISABLED, 1 ACQUIRE, 2 LOCKED, 3 GLIDE [4 bits; R342; reset 0] -/
  servo : Nat := 0
  /-- SERVO_STAT count: the run of consecutive accepted samples [8 bits; R342; reset 0] -/
  count : Nat := 0
  /-- Run of consecutive outliers in LOCKED [4 bits; R342; reset 0] -/
  outliers : Nat := 0
  /-- SERVO_I, 2^-8 ppb, signed [32 bits; R341; reset 0] -/
  integ : Int := 0
  /-- SERVO_STAT.STEP_SEQ [8 bits; R340, R345; reset 0] -/
  stepSeq : Nat := 0
  /-- The step that is pending [-; R344, R345; reset: none] -/
  step : Option StepCmd := none
  /-- Real time at which the pending step was accepted [-; R345; reset 0] -/
  stepAt : Nat := 0
  /-- Every stamp carries TS_ERR, after all three counters disagreed [1 bit; R332; reset 0] -/
  todFault : Bool := false
  /-- The PPS_IN FIFO, oldest first, in device-time units [4 × 78 bits; R347; reset: empty] -/
  ppsFifo : List Nat := []
  /-- Real time of the last PPS_IN edge accepted [-; R347; reset: none] -/
  ppsLast : Option Nat := none
  /-- Device time at the last sync word [-; R333; reset 0] -/
  syncTod : Nat := 0
  /-- S1's PTP clock as CLOCK_CFG gives it: clock type, domain, priorities, class, accuracy, variance [7 values; R350; reset: not configured] -/
  ptpClock : List Nat := []
  /-- S1's PTP ports as PORT_CFG gives them, by logical port [1,152 × 10 values; R350; reset: none] -/
  ptpPorts : SMap (List Int) := []
  /-- The PPS_OUT pin [1 pin; R348; reset low] -/
  ppsOut : Bool := false
  /-- Transmit timestamp FIFOs by logical port, oldest first [1,152 × 64 entries; R339; reset: empty] -/
  txts : SMap (List TxTs) := []
  /-- Shadow of TOD_SEC_LO reads by agent number: the device time captured [per agent 78 bits; R328; reset: none] -/
  todShadow : SMap Nat := []
  deriving DecidableEq, Repr

/-! ## Vault and MACsec keys -/

/-- A Vault key slot (R423). -/
structure KeySlot where
  /-- type 1 AES, 2 HMAC, 3 ECDSA, 4 KEK -/
  typ : Nat
  exportable : Bool
  /-- FIXED, the high 32 bits of every IV (R427) -/
  fixed : Nat
  /-- the invocation counter (R427) -/
  ctr : Nat
  key : List Byte
  /-- the half of an HMAC key already held: 0 low, 1 high; `none` once complete (R428) -/
  half : Option Nat := none
  deriving DecidableEq, Repr

/-- A MACsec secure association (R413). -/
structure Sa where
  key : List Byte
  salt : List Byte
  ssci : Nat
  /-- next PN for transmit, lowest acceptable PN for receive -/
  pn : Nat
  deriving DecidableEq, Repr

/-- A queued Vault job: its descriptor and who issued it (R424, R425). -/
structure VJob where
  desc : List Byte
  /-- `none` for a host job; sluice, serial number of the request and data-SRAM address for a VAULT_JOB -/
  sluice : Option (Nat × Nat × Nat)
  deriving DecidableEq, Repr

/-- Vault and port key state. Registers of the Vault pages are in `Chip.regs`. -/
structure Vault where
  /-- VLT_STAT.STATE: 0 SELFTEST, 1 READY, 2 ERROR [4 bits; R434; reset: 1, self-tests passed in boot, R524 step 4] -/
  state : Nat := 1
  /-- Key slots by 16·page + slot; unlisted is empty [32 × 16 slots; R422, R423; reset: empty; UP0 slots 0 and 1 are derived at a boot once the device secret is burned, R502] -/
  slots : SMap KeySlot := []
  /-- Job queues by page, oldest first [32 × 4 entries; R422; reset: empty] -/
  jobs : SMap (List VJob) := []
  /-- Page served last [5 bits; R424; reset 31, so that UP0 comes first, DESIGN CHOICE, log 11] -/
  lastPage : Nat := 31
  /-- CTR_DRBG state: Key and V [256 + 128 bits; R426; reset: seeded from the entropy source, held here as zero until the first draw, log 4] -/
  drbgKey : List Byte := []
  drbgV : List Byte := []
  /-- Requests since the last reseed [21 bits; R426; reset 0] -/
  drbgCount : Nat := 0
  /-- Bytes drawn so far from the entropy source: selects the next free byte [the model's own counter; log 4; reset 0] -/
  drawn : Nat := 0
  /-- Real times of the mismatches of the last second [-; R431; reset: none] -/
  dups : List Nat := []
  /-- Port SAs in use, by 64·lp + 32·dir + 4·k + AN [1,152 × 20 SAs; R413; reset: none in use] -/
  sas : SMap Sa := []
  deriving DecidableEq, Repr

/-! ## Mailboxes, epochs, power, DMA: what their registers do not show -/

/-- Mailboxes beyond the MBX page's registers. -/
structure MbxSt where
  /-- POST_W staged words, by 4·agent + word [34 × 128 bits; R397; reset 0] -/
  stage : SMap Word := []
  /-- Agents whose staging took an uncorrectable error [34 bits; R411; reset 0] -/
  stageBad : List Nat := []
  /-- POST_RES by agent [34 × 8 bits; R397; reset 0 OK] -/
  res : SMap Nat := []
  /-- Mailboxes whose watchdog has fired for the post they hold [32 bits; R405; reset 0] -/
  fired : List Nat := []
  /-- ACK_SEEN inputs: outbound mailbox 2r + 1 of Sr was acknowledged since the sluice looked [16 bits; R400; reset 0] -/
  ackTo : List Nat := []
  /-- Agent whose access the arbiter of each lock granted last: its pointer stands behind it [64 × 6 bits; R408; reset: none, so that agent 1 is first] -/
  lockLast : SMap Nat := []
  deriving DecidableEq, Repr

/-- A record of the undo journal (R445); its SEQ is its place in the segment. -/
structure JRec where
  kind : Nat
  op : Nat
  agent : Nat
  present : Bool
  time : Nat
  before : List Byte
  deriving DecidableEq, Repr

/-- Configuration epochs beyond the EPOCH page's registers. -/
structure EpochSt where
  /-- Number of commit beat B, and whether it is a ROLLBACK [-; R440, R444; reset: none] -/
  commitIn : Option (Nat × Bool) := none
  /-- The timeout of the retirement in progress has fallen: retirement drops are running [1 bit; R443; reset 0] -/
  dropping : Bool := false
  /-- ROLLBACK_OK stays 0 at the end of this retirement [1 bit; R438, R444; reset 0] -/
  noRollback : Bool := false
  /-- The open journal segment, in completion order [262,144 × 128 bytes; R445; reset: empty] -/
  journal : List JRec := []
  /-- Records reserved by commands that have not completed [R446; reset 0] -/
  reserved : Nat := 0
  /-- The segment being replayed, last record first [-; R447; reset: empty] -/
  replay : List (Nat × JRec) := []
  /-- Per reach, the bundle assembler's current epoch; unlisted is CUR [16 × 16 bits; R441; reset: CUR] -/
  asmEpoch : SMap Nat := []
  deriving DecidableEq, Repr

/-- Power and pace beyond the PWR page's registers. -/
structure PwrSt where
  /-- Present raw estimates of the seven domains, 0.1 W [7 words; R457; reset 0] -/
  raw : List Nat := [0, 0, 0, 0, 0, 0, 0]
  /-- Missing PMBus windows in a row [3 bits; R459; reset 0] -/
  missing : Nat := 0
  /-- G is frozen by missing windows [1 bit; R459; reset 0] -/
  pmbFrozen : Bool := false
  /-- Fractions last applied by APPLY, in units of 0.5% [7 × 8 bits; R456; reset 48, 20, 15, 6, 4, 5.5, 1.5%] -/
  fracs : List Nat := [96, 40, 30, 12, 8, 11, 3]
  /-- Decisions in a row at which one step faster was allowed [2 bits; R461; reset 0] -/
  fasterRun : Nat := 0
  /-- Decisions in a row at PACE4 with S above B [4 bits; R460; reset 0] -/
  unmetRun : Nat := 0
  /-- Logical ports S6 holds in QUIET for the cap, last one first [-; R460; reset: none] -/
  quiet : List Nat := []
  /-- Real time since which est_LANE has been below 0.95 of its budget [-; R460; reset: none] -/
  laneLow : Option Nat := none
  /-- Flume throttle step: 0 none, 1 patrol suspended, 2 to 4 spill cut to 75, 50, 25% [3 bits; R460; reset 0] -/
  flStep : Nat := 0
  /-- The pace the spare PLL locks to, and whether it has locked [3 + 1 bits; R464; reset: none] -/
  spare : Option (Nat × Bool) := none
  /-- A pace change whose instant has come and that waits for its beat boundary [3 bits; R463; reset: none] -/
  switchTo : Option Nat := none
  /-- The largest Tj since TJ_PEAK was read, 1/16 °C [16 bits; R478; reset: none] -/
  peak : Option Int := none
  /-- Real time of the last pace change [-; R463; reset: none] -/
  lastChange : Option Nat := none
  /-- Real time at which DROOP last cleared [-; R464; reset: none] -/
  droopClear : Option Nat := none
  /-- DECIDED is followed: a frame has armed it [1 bit; R469; reset 0] -/
  decidedValid : Bool := false
  /-- DEMAND returned by the ring's previous frame, as the leader holds it [3 bits; R469; reset: none returned] -/
  demandBack : Option Nat := none
  /-- The member left its group by R470's thermal rule and has not returned [1 bit; R470; reset 0] -/
  exited : Bool := false
  /-- SEQ of the leader's next frame [8 bits; R468; reset 0] -/
  seq : Nat := 0
  /-- Valid frames in a row while ALONE [2 bits; R470; reset 0] -/
  validRun : Nat := 0
  /-- A GROUP_CFG request that applies at the next instant: GRP_CTL and PACE_CFG [-; R475; reset: none] -/
  grpNext : Option (Word × Word) := none
  /-- Thermal demand limits that are set, by threshold index 0 to 4 and 5 for OVERTEMP [6 bits; R472; reset 0] -/
  limits : List Nat := []
  /-- The Flume is above 95 °C and not yet below 92 °C [1 bit; R474; reset 0] -/
  flumeHot : Bool := false
  deriving DecidableEq, Repr

/-- A table command list in execution (R541). -/
structure DList where
  /-- its descriptor, 32 bytes -/
  desc : List Byte
  /-- blocks not yet read from host memory -/
  blocks : List (List Byte)
  /-- blocks executed -/
  count : Nat
  /-- code of the first block that did not return OK -/
  status : Nat
  /-- status of the block in flight, once it has been answered -/
  answer : Option Nat
  deriving DecidableEq, Repr

/-- Host DMA beyond its registers. -/
structure DmaSt where
  /-- Table lists in execution, by ring [64; R541; reset: none] -/
  lists : SMap DList := []
  /-- Rings whose oldest unacknowledged completion has waited COAL_TIME [64 bits; R543; reset 0] -/
  coalDue : List Nat := []
  /-- MSI-X vectors masked by the PCIe mask bits, as 128·function + vector [PF0 128, VFn 8 each; R54, R543; reset: none masked, DESIGN CHOICE, log 12] -/
  masked : List Nat := []
  deriving DecidableEq, Repr

/-- An upset or stuck bit of a storage word (R480). -/
structure Upset where
  /-- more than one bit of a codeword changed -/
  unc : Bool
  /-- the bit is stuck: a rewrite does not mend it -/
  stuck : Bool
  bitpos : Nat
  synd : Nat
  deriving DecidableEq, Repr

/-! ## Ports and lanes -/

/-- Lanes and links beyond their registers. -/
structure LinkSt where
  /-- Power transition in progress by logical port: the state it moves to [1,152 × 2 bits; R71, R73; reset: none] -/
  moving : SMap Nat := []
  /-- Lane blocks whose PLLs are stopping [72 bits; R72; reset: none] -/
  pllStopping : List Nat := []
  /-- Logical ports with a loss condition [1,152 bits; R79; reset: none] -/
  loss : List Nat := []
  /-- DFE codes by lane: 12 taps as offsets from mid-range [1,152 × 12; R68; reset: mid-range] -/
  dfe : SMap (List Int) := []
  /-- Deserialiser word boundary by lane, in UI modulo 64 [1,152 × 6 bits; R75; reset 0] -/
  boundary : SMap Nat := []
  /-- Corrected symbols of the 1 ms window by logical port [-; R64; reset 0] -/
  fecWin : SMap Nat := []
  /-- Error-free words in a row by lane [7 bits; R76; reset 0] -/
  cleanRun : SMap Nat := []
  /-- Words with more than 8 errored UIs in a row by lane [5 bits; R76; reset 0] -/
  badRun : SMap Nat := []
  /-- Die links D0 to D7 that failed: their ports take a persisting loss until DLINK_CMD [8 bits; R493; reset: none] -/
  dieFail : List Nat := []
  /-- Training-status of the last coefficient request by lane: 1 when it was refused at a limit [1,152 bits; R67; reset 0] -/
  trainLimit : SMap Nat := []
  deriving DecidableEq, Repr

/-! ## Frames, headers, bundles and copies -/

/-- Where the header of a frame is on its ingress path. -/
inductive HdrPos where
  /-- held by the MAC: not parsed yet -/
  | mac
  /-- in the header queue of its reach, ready -/
  | queue
  /-- in weir `k` of its reach -/
  | weir (k : Nat)
  /-- recirculating, not yet ready (R136) -/
  | recirc
  /-- past point 6 -/
  | done
  deriving DecidableEq, Repr

/-- What MACsec receive decided about a frame and what is left for its end (R417, R418). -/
structure MscRx where
  /-- key of the SA in `Vault.sas`, and the recovered PN -/
  sa : Nat
  pn : Nat
  /-- the ICV verifies -/
  icvOk : Bool
  /-- an ICV failure drops the frame at completion -/
  dropOnFail : Bool
  /-- the ICV is not checked (DISABLED) -/
  unchecked : Bool
  deriving DecidableEq, Repr

/-- A frame in the device, from point 1 until its last copy reaches its fate. -/
structure Frame where
  /-- ingress logical port, 0 to 1,152, or 1,153 + r for a frame injected by Sr (R97) -/
  inLp : Nat
  /-- the reach whose parser takes it (R13, R15, R152) -/
  reach : Nat := 0
  /-- START of an injection block (R152); `none` walks from PSTART -/
  start : Option Nat := none
  /-- the frame as received at the MAC service interface, FCS included; arrival is told by `arrived` -/
  bytes : List Byte
  /-- bytes that have reached the buffer manager's write path -/
  arrived : Nat := 0
  /-- the last byte has arrived -/
  ended : Bool := false
  /-- T_in in device-time units (R334, R355) -/
  tIn : Nat := 0
  /-- the stamp carries TS_ERR (R333) -/
  tsErr : Bool := false
  /-- real time of the stamp -/
  stampNow : Nat := 0
  /-- arrival class (R234) -/
  arrClass : Nat := 0
  /-- an overlapping FEC codeword was uncorrectable (R64) -/
  fecBad : Bool := false
  /-- MACsec receive, if an SA was applied -/
  msc : Option MscRx := none
  /-- where the header is -/
  pos : HdrPos := .mac
  /-- order of readiness, and the clock of it, in the header queue (R17) -/
  readyAt : Nat := 0
  /-- the header has slipped on this pass (R17) -/
  slipped : Bool := false
  /-- the carry (R96), sparse by byte -/
  carry : SMap Byte := []
  /-- carry slots to be written before the next stage: table results (R125) -/
  results : List (Nat × List Byte × Nat) := []
  /-- results of the lookups issued in the stage before: they are written one stage later (R125) -/
  issued : List (Nat × Nat × Nat × List Byte) := []
  /-- buffers held: pool and buffer, first first (R230) -/
  bufs : List (Nat × Nat) := []
  /-- the first buffer has been requested -/
  asked : Bool := false
  /-- charged to headroom of this lossless slot (R247) -/
  headroom : Option Nat := none
  /-- descriptor taken (R255) -/
  hasDesc : Bool := false
  /-- descriptor fields LOSSLESS and CLASS -/
  lossless : Bool := false
  cls : Nat := 0
  /-- descriptor field UNITS: buffers granted, in 128-byte units; a spill leaves it (R314) -/
  units : Nat := 0
  /-- COMPLETE (R255) -/
  complete : Bool := false
  /-- the drop reason once the frame has failed (R261) -/
  failed : Option Nat := none
  /-- copies not yet sent or dropped (REFCNT) -/
  refs : Nat := 0
  /-- bytes stored: fewer than the frame's when a LENGTH_MISMATCH cut it (R232) -/
  stored : Nat := 0
  deriving DecidableEq, Repr

/-- Where a copy is. -/
inductive CopyPos where
  | linking      -- admitted, not yet linked (R258)
  | queued
  | egress (k : Nat)   -- in weir 10 + k of the egress reach
  | hold         -- in the level hold buffer (R358)
  | ready        -- past W14, waiting for its MAC
  | sending
  | suspended    -- preempted at a gate close (R295)
  deriving DecidableEq, Repr

/-- Spill state of a queued copy (R313 to R315). -/
inductive SpillPos where
  | none | marked
  -- where the cells lie in the spill region: page, first cell, cells
  | written (runs : List (Nat × Nat × Nat))
  | returning (runs : List (Nat × Nat × Nat))
  deriving DecidableEq, Repr

/-- One copy of a frame. -/
structure Copy where
  fid : Nat
  /-- egress logical port, 1,152 for the host -/
  lp : Nat
  /-- global queue number (R256) -/
  q : Nat
  /-- a TO_HOST or HOST_ONLY copy (R135) -/
  trap : Bool := false
  pos : CopyPos := .linking
  /-- admitted cut-through eligible (R262) -/
  ct : Bool := false
  /-- BEGUN (R255) -/
  begun : Bool := false
  /-- the egress carry (R22) -/
  carry : SMap Byte := []
  results : List (Nat × List Byte × Nat) := []
  issued : List (Nat × Nat × Nat × List Byte) := []
  /-- device time at which the entry was linked (R298) -/
  linkTime : Nat := 0
  spill : SpillPos := .none
  /-- multicast group of a level copy, with its target T_dep (R355) -/
  level : Option (Nat × Int) := none
  /-- departure d of R281, device-time units -/
  dep : Int := 0
  /-- charged length L_c (R282) -/
  lc : Nat := 0
  /-- T_out, once stamped -/
  tOut : Int := 0
  /-- frame bytes as they leave, once joined (R134) -/
  out : List Byte := []
  /-- real time at which the copy was selected -/
  selAt : Nat := 0
  /-- the close of the window that admitted the copy, `none` when no gate held it (R293) -/
  close : Option Int := none
  /-- that window has PREEMPT and the copy did not fit in it (R293, R295) -/
  pre : Bool := false
  /-- wire time left of a suspended copy, device-time units (R295) -/
  left : Int := 0
  deriving DecidableEq, Repr

/-- One bundle in a weir: the epoch it carries and its slots, frames on ingress, copies on egress (R16, R137). -/
structure Bundle where
  epoch : Nat
  slots : List Nat
  deriving DecidableEq, Repr

/-- One reach's pipeline. -/
structure ReachSt where
  /-- Header queue: frame numbers in order of readiness [512 entries; R17; reset: empty] -/
  hq : List Nat := []
  /-- Bundles in W0 to W9 [10 × 32 slots; R16; reset: empty] -/
  ing : List (Option Bundle) := List.replicate 10 none
  /-- Egress bundles in W10 to W14 [5 × 32 slots; R16, R138; reset: empty] -/
  egr : List (Option Bundle) := List.replicate 5 none
  /-- Copies selected that wait for the next egress bundle, of another epoch [-; R138; reset: none] -/
  held : List Nat := []
  /-- Rotating pointer over local port indexes [7 bits; R281, R56; reset 0] -/
  rot : Nat := 0
  /-- LFSR of EMIT SAMPLE [32 bits; R370; reset 1, DESIGN CHOICE, log 13] -/
  smpLfsr : Nat := 1
  /-- LFSR of ECN marks [32 bits; R300; reset ECN_SEED 1] -/
  ecnLfsr : Nat := 1
  deriving DecidableEq, Repr

/-! ## Buffers -/

/-- The state word of an allocated buffer and what is charged for it (R237, R240, R247). A buffer that is not listed is free. -/
structure BufSt where
  /-- owner TAG -/
  tag : Nat
  /-- chain link to the next POOL2 buffer -/
  link : Option Nat := none
  /-- charged to headroom: logical port and slot -/
  hr : Option (Nat × Nat) := none
  /-- freeboard group recorded at allocation -/
  grp : Nat := 0
  deriving DecidableEq, Repr

/-- A buffer request that waits (R236, R249). -/
structure BufReq where
  fid : Nat
  pool : Nat
  /-- real time at which the request took the pool-empty path -/
  since : Nat
  /-- waits without limit (LP1152, sluices, the spill return) -/
  patient : Bool
  /-- the copy whose spill return asks, if any -/
  ret : Option Nat := none
  deriving DecidableEq, Repr

/-- The buffer manager beyond its registers. -/
structure BufMgrSt where
  /-- Allocated buffers by pool·2^22 + buffer [679,936 state words at reset carve; R237; reset: all free] -/
  bufs : SMap BufSt := []
  /-- Freeboard levels asserted, by pool p and by 4 + g for group g, as 4 bits WARN PAUSE PUSH FLOOR [(3 + 32) × 4 bits; R241; reset 0] -/
  levels : SMap Nat := []
  /-- Requests waiting on the pool-empty path, oldest first [-; R236, R249; reset: none] -/
  waiting : List BufReq := []
  /-- The free stores are being built [1 bit; R229; reset 0] -/
  building : Bool := false
  /-- Leaf words of the bitmaps under rebuild, by pool·2^22 + first buffer [-; R239; reset: none] -/
  rebuilding : List Nat := []
  deriving DecidableEq, Repr

/-! ## Queues, scheduling, gates -/

/-- An output queue (R256, R257). -/
structure Queue where
  /-- copies, head first -/
  entries : List Nat := []
  /-- QMAX in 128-byte units (R274) -/
  qmax : Nat := 0
  /-- copies dropped on the queue, QDATA[3] -/
  drops : Nat := 0
  deriving DecidableEq, Repr

/-- An entry of a timing wheel (R287 to R289): the shaper of a queue or of a port. -/
structure WEntry where
  reach : Nat
  /-- local queue index, or local port index when `port` -/
  idx : Nat
  port : Bool
  coarse : Bool
  /-- the fine tick at which its slot is serviced -/
  tick : Nat
  deriving DecidableEq, Repr

/-- One gate-list entry (R291). -/
structure Gate where
  open_ : Nat
  close : Nat
  /-- EN, PREEMPT and QMASK as GATE_DATA[2] holds them -/
  ctl : Word
  deriving DecidableEq, Repr

/-- The gate configuration of a logical port that stays in force until the switch instant (R296). -/
structure GateCfg where
  enabled : Bool
  gated : Nat
  cycle : Nat
  base : Nat
  list : List Gate
  /-- the switch instant, device-time units -/
  switchAt : Nat
  deriving DecidableEq, Repr

/-- Switch core, queues, scheduler and shapers beyond their registers. -/
structure SwitchSt where
  /-- Queues by global number; unlisted is empty with QMAX 0 [23,056; R256, R274; reset: empty, QMAX 0] -/
  queues : SMap Queue := []
  /-- Multicast group descriptors [16,384 × 32 bits; R266; reset 0, DESIGN CHOICE, log 14] -/
  groups : SMap Word := []
  /-- Multicast member entries [131,072 × 32 bits; R266; reset 0, DESIGN CHOICE, log 14] -/
  members : SMap Word := []
  /-- Copies by number -/
  copies : SMap Copy := []
  /-- The number the next copy takes [the model's own; reset 0] -/
  nextCopy : Nat := 0
  /-- Copy in transmission by logical port [1,152; R269, R283; reset: none] -/
  sending : SMap Nat := []
  /-- P by logical port, device-time units [1,153; R281; reset 0] -/
  wireFree : SMap Int := []
  /-- Instant at which the last frame started on the wire of a logical port ends, device-time units [1,152; R297, R359; reset 0] -/
  wireEnd : SMap Int := []
  /-- Heads of the queues at the last beat boundary, by queue: the copy, and whether it was eligible at the start of the beat [23,056; R265, R280; reset: none] -/
  heads : SMap (Nat × Bool) := []
  /-- CUR by logical port: ring position 0 to 11 for Q4 to Q15, 12 to 15 for MQ0 to MQ3 [1,153 × 4 bits; R284; reset 0, Q4] -/
  cur : SMap Nat := []
  /-- Turn of service within strict levels 0 to 3, by 4·lp + level: the k served last plus one [R279; reset 0] -/
  turn : SMap Nat := []
  /-- TAT of queue shapers by reach·2048 + q, and of port shapers by 2^20 + reach·128 + n [R286; reset 0] -/
  tat : SMap Int := []
  /-- Timing wheels, in order of placement: a shaper is in at most one slot [16 × 2 × 1,024 slots; R287 to R289; reset: empty] -/
  wheel : List WEntry := []
  /-- Entries whose tick has begun that wait beyond the 64 releases of a beat [R290; reset: none] -/
  released : List WEntry := []
  /-- Entries each reach has released in the present beat [16 × 7 bits; R290; reset 0] -/
  relCount : SMap Nat := []
  /-- Gate lists by bank·2^17 + reach·2^13 + port·64 + entry [2 × 16 × 72 × 64 entries; R291, R302; reset: EN 0] -/
  gates : SMap Gate := []
  /-- Gate configurations still in force before a switch instant, by logical port [R296; reset: none] -/
  oldGates : SMap GateCfg := []
  /-- Hold buffers: the copies in them [16 × 512; R358; reset: empty] -/
  hold : List Nat := []
  deriving DecidableEq, Repr

/-! ## Flume, telemetry, ledger -/

/-- The Flume stacks and the spill engine. -/
structure FlumeSt where
  /-- Bytes written in the 48 GiB, by byte address; a byte nothing has written is a free value [48 GiB; R306; reset: none written, log 15] -/
  mem : SMap Byte := []
  /-- How often a change of FL_PART has left contents undefined: selects the free values [the model's own; log 15; reset 0] -/
  gen : Nat := 0
  /-- 64-byte units that hold an error: 1 corrected, 2 uncorrectable [R318; reset: none] -/
  errs : SMap Nat := []
  /-- Spill pages in use: queue and cells still held, by page number [8,388,608 pages; R314, R316; reset: none] -/
  pages : SMap (Nat × Nat) := []
  /-- Write point of each queue's chain of spill pages, page × 64 + cell [8,192 contexts; R314, R316; reset: none] -/
  ctx : SMap Nat := []
  /-- Queues whose marking has ended for want of a page, until their segment is empty [R316; reset: none] -/
  full : List Nat := []
  /-- Queues in return [R315; reset: none] -/
  returning : List Nat := []
  /-- The 64-byte unit that patrol scrub reads next [30 bits; R319, R322; reset 0] -/
  patrol : Nat := 0
  /-- 0 ACTIVE, 1 DRAINING, 2 SELF_REFRESH [2 bits; R322; reset 0] -/
  pstate : Nat := 0
  /-- Links D8 and D9 failed [1 bit; R321; reset 0] -/
  linkFail : Bool := false
  deriving DecidableEq, Repr

/-- Telemetry, capture and ledger beyond their registers. -/
structure TelSt where
  /-- Sample FIFO, oldest first: entries of 128 bytes [1,024; R371; reset: empty] -/
  smpFifo : List (List Byte) := []
  /-- Capture FIFO, oldest first: records [4,096; R377; reset: empty] -/
  capFifo : List (List Byte) := []
  /-- Token buckets by filter: tokens in records × 10^6, and device time of the last refill [32; R376; reset: full] -/
  buckets : SMap (Nat × Nat) := []
  /-- The open block: its records so far [65,440 bytes; R379; reset: none open] -/
  openBlk : Option (List Byte) := none
  /-- First and last record times, and records in the open block [R379] -/
  blkFirst : Nat := 0
  blkLast : Nat := 0
  blkCount : Nat := 0
  /-- BFLAGS of the open block [R379] -/
  blkFlags : Nat := 0
  /-- KEY_ID of the ledger key in use, 0 before the first block, and the last KEY_ID given [32 bits each; R384; reset 0] -/
  curKey : Nat := 0
  lastKey : Nat := 0
  /-- Slot of Vault page UP5 that holds each ledger key, by KEY_ID [R381, R384; reset: none] -/
  keySlot : SMap Nat := []
  /-- Cause of a GAP record owed, with the start of the lost interval [R386; reset: none] -/
  gap : Option (Nat × Nat) := none
  /-- LOSS_ACC at the last TICK [32 bits; R386; reset 0] -/
  lossSeen : Nat := 0
  /-- What S5 has seen since the last TIME_TRACE: an outvoted counter, a copy reload, samples accepted; and the last PPS_IN stamp [R385; reset 0] -/
  votes : Bool := false
  copyErr : Bool := false
  accepted : Nat := 0
  lastPps : Nat := 0
  /-- Steps whose STEP records S5 still owes: time before, time after, agent [R346, R386; reset: none] -/
  steps : List (Nat × Nat × Nat) := []
  /-- S4: collectors by index, templates by ID, bindings by sampler, as the request bodies give them [R375; reset: none] -/
  collectors : SMap (List Byte) := []
  templates : SMap (List Byte) := []
  binds : SMap (List Byte) := []
  deriving DecidableEq, Repr
/-! ## Tables and sluices -/

/-- A slot of the exact-match store (R177). -/
structure Slot where
  /-- 16 bytes -/
  key : List Byte := List.replicate 16 0
  /-- 16 bytes -/
  data : List Byte := List.replicate 16 0
  /-- the control word -/
  ctl : BitVec 64 := 0
  deriving DecidableEq, Repr

/-- A held bucket lock (R185): owner and the image of the 8 slots that lookups read. -/
structure BLock where
  agent : Nat
  image : List Slot
  deriving DecidableEq, Repr

/-- Where the result of a table command goes. -/
inductive TblDest where
  /-- the command registers of the page -/
  | page
  /-- written back over the block at a host address (a DMA list, R541) -/
  | host (addr : Nat)
  /-- the request slot of a sluice, by serial number (R150) -/
  | sluice (r serial : Nat)
  /-- handed back to an issuer outside the model -/
  | out
  deriving DecidableEq, Repr

/-- A command block taken or waiting (R181, R222, R224). -/
structure TblCmd where
  agent : Nat
  /-- from a table DMA list -/
  dma : Bool
  /-- the 64 bytes -/
  blk : List Byte
  dest : TblDest
  /-- holds a journal record (R446) -/
  held : Bool := false
  deriving DecidableEq, Repr

/-- An entry of a prefix store (R204, R206, R211). -/
structure PSlot where
  vrf : Nat
  len : Nat
  addr : Nat
  data : List Byte
  /-- original length of the prefix: differs from `len` in an expanded entry -/
  orig : Nat
  deriving DecidableEq, Repr

/-- An entry of the masked CAM (R216). A CAM entry that is not listed has VALID 0. -/
structure CamE where
  value : BitVec 160
  mask : BitVec 160
  /-- 8 bytes -/
  data : List Byte
  /-- length of the prefix it holds; 0 for kind 4 -/
  len : Nat := 0
  pinned : Bool := false
  deriving DecidableEq, Repr

/-- S3's record of a prefix (R218, R220). -/
structure PfxRec where
  data : List Byte
  /-- CAM index when its home is the CAM -/
  cam : Option Nat
  pinned : Bool
  deriving DecidableEq, Repr

/-- S2's policy of an instance (R200). -/
structure AgePolicy where
  period : Nat := 30
  limit : Nat := 10
  hold : Nat := 60
  deriving DecidableEq, Repr

/-- An entry of the learn filter (R195). -/
structure Filt where
  key : List Byte
  inst : Nat
  inLp : Nat
  /-- real time of the write -/
  at_ : Nat
  deriving DecidableEq, Repr

/-- The table engines beyond their registers. -/
structure TblSt where
  /-- Exact-match slots by global bucket·8 + slot; unlisted is empty [2,097,152 × 320 bits; R177; reset: empty, DESIGN CHOICE, log 14] -/
  em : SMap Slot := []
  /-- Bucket locks by instance·2^18 + bucket [16 per instance; R185; reset: none] -/
  locks : SMap BLock := []
  /-- Agents owed TIMEOUT for a released lock: (instance·2^18 + bucket, agent) [R188; reset: none] -/
  owed : List (Nat × Nat) := []
  /-- Instances whose slots are being cleared [16 bits; R175; reset: none] -/
  emClearing : List Nat := []
  /-- INSERT handed to S3, by instance [16 × 1; R190; reset: none] -/
  emPend : SMap TblCmd := []
  /-- Commands that wait for S3's INSERT, by instance, oldest first [R183, R190; reset: none] -/
  emWait : SMap (List TblCmd) := []
  /-- Learn queue, oldest first: 32-byte events [65,536; R195; reset: empty] -/
  learnQ : List (List Byte) := []
  /-- Learn filter by bits [11:0] of h0 [4,096; R195; reset: empty] -/
  filt : SMap Filt := []
  /-- Table pages whose lookup path has taken a fatal fault [6 pages; R491; reset: none] -/
  lookupFault : List Nat := []
  /-- S2's policy by instance [16 × 3 values; R200; reset: 30 s, 10, 60 s] -/
  policy : SMap AgePolicy := []
  /-- Pins S2 is timing: instance and key [R197; reset: none] -/
  pins : List (Nat × List Byte) := []
  /-- INSERT_FULL results since the last notice, and real time of that notice, by instance [R196, R200; reset: none] -/
  fullCnt : SMap (Nat × Option Nat) := []
  /-- MAX_PATH of S3 [1 to 8; R190; reset 4] -/
  maxPath : Nat := 4
  /-- Prefix stores by (store·2^17 + bucket)·8 + slot, store 0 IPv4, 1 IPv6 short, 2 IPv6 long [1,048,576 + 524,288 + 65,536 slots; R204; reset: empty, DESIGN CHOICE, log 14] -/
  pst : SMap PSlot := []
  /-- S3's counts behind the filter bits, by (f·128 + bit)·2 + (1 for IPv6); a bit of the filter is set where its count is not zero [1,048,576 × 17 and 524,288 × 109 bits; R204, R209; reset 0] -/
  fcnt : SMap Nat := []
  /-- CAM entries by index [16,384 × (2 × 160 + 64 + 1 bits); R216; reset: none valid] -/
  cam : SMap CamE := []
  /-- S3's shadow of every prefix, in the order of R223 SEARCH, keyed by `Pfx key` [R218, R220; reset: none] -/
  pfx : SMap PfxRec := []
  /-- Command handed to S3, by family 4 or 6 [R217; reset: none] -/
  pfxPend : SMap TblCmd := []
  /-- Commands that wait for it, by family [R217; reset: none] -/
  pfxWait : SMap (List TblCmd) := []
  /-- Families whose structures are being cleared [2 bits; R207; reset: none] -/
  pfxClearing : List Nat := []
  /-- S3 is rebuilding its shadow after a restart [1 bit; R220; reset 0] -/
  pfxRebuild : Bool := false
  deriving DecidableEq, Repr

/-- A sluice request in flight (R150). -/
structure SluReq where
  /-- serial number in its sluice -/
  serial : Nat
  thread : Nat
  lane : Nat
  op : Nat
  /-- N field -/
  n : Nat
  /-- A field is odd -/
  odd : Bool
  /-- LR(A), LR(A + 1) and LR(D) as the word issued it -/
  x : Word
  xh : Word
  y : Word
  /-- register D that takes a value -/
  dreg : Nat
  /-- Onvos status once the request has been carried out -/
  status : Option Nat := none
  /-- value for LR(D) -/
  val : Option Word := none
  /-- bytes for data SRAM, and where -/
  bytes : List Byte := []
  at_ : Nat := 0
  deriving DecidableEq, Repr

/-- A thread of a sluice (R147, R149, R157, R158). -/
structure Thread where
  /-- LR0 to LR15 of each lane, by 16·lane + register [512 × 32 bits; R147; reset 0] -/
  lr : SMap Word := []
  /-- the mask [32 bits; R149; reset: all ones at a start] -/
  mask : Word := 0xFFFFFFFF
  /-- return stack, top first [8 × 14 bits; R147; reset: empty] -/
  stack : List Nat := []
  /-- STATUS.IN_HANDLER and the mask that handler entry saved [1 + 32 bits; R158] -/
  inHandler : Bool := false
  saved : Word := 0
  /-- THREAD_STAT state: 0 IDLE, 1 READY, 2 WAITING, 3 RUNNING [4 bits; R170; reset 0] -/
  st : Nat := 0
  /-- address [14 bits; R170; reset 0] -/
  pc : Nat := 0
  /-- STATUS.ACK_SEEN and STATUS.TMO [2 bits; R149, R154, R155; reset 0] -/
  ackSeen : Bool := false
  tmo : Bool := false
  /-- A wait has timed out: the waiting word executes although its condition is false [1 bit; R155; reset 0] -/
  forced : Bool := false
  /-- The thread stands still for STANDBY [1 bit; R526; reset 0] -/
  stopped : Bool := false
  /-- RSTAT by lane [32 × 8 bits; R149; reset 0] -/
  rstat : SMap Nat := []
  /-- words executed since the last poll point [R160; reset 0] -/
  sincePoll : Nat := 0
  deriving DecidableEq, Repr

/-- One sluice beyond its page's registers. -/
structure Slu where
  /-- Control store by word [16,384 × 256 bits; R147; reset 0 (R163); S0 to S7 hold Onvos images the spec does not give, log 18] -/
  cs : SMap (BitVec 256) := []
  /-- Data SRAM by byte [65,536 × 8; R147; reset 0] -/
  ds : SMap Byte := []
  /-- G0 to G31 [32 × 32 bits; R147; reset 0] -/
  g : SMap Word := []
  threads : List Thread := [{}, {}, {}, {}]
  /-- Last thread to run [2 bits; R157; reset 3, so that T0 comes first, DESIGN CHOICE, log 18] -/
  last : Nat := 3
  /-- CYC [32 bits; R149; reset 0] -/
  cyc : Nat := 0
  /-- TIMER0 and TIMER1 have expired and TICK has come since a word consumed them [3 bits; R153; reset 0] -/
  t0 : Bool := false
  t1 : Bool := false
  tick : Bool := false
  /-- Requests in flight, oldest first [64; R147, R150; reset: none] -/
  reqs : List SluReq := []
  nextReq : Nat := 0
  /-- A STOP is under way [1 bit; R163; reset 0] -/
  halting : Bool := false
  /-- Status of the copy of an image being loaded: OK, or why it failed [8 bits; R165; reset 0] -/
  loadStat : Nat := 0
  /-- Real times of the restarts of the last 60 s [R162; reset: none] -/
  restarts : List Nat := []
  /-- STANDBY entry is under way, or the device is in STANDBY: each thread stands still at its next poll point or wait [1 bit; R526; reset 0] -/
  held : Bool := false
  /-- Its control store was written under R167 since a debug session opened [1 bit; R500; reset 0] -/
  dbgWritten : Bool := false
  /-- Device time at which each timer that counts expires, by timer [2 × 110 bits; R156; reset: not counting] -/
  due : SMap Nat := []
  /-- Arguments of the image load under way, as IMG_CMD.GO sampled them: SRC, IMG_ADDR_HI, IMG_ADDR_LO, IMG_LEN [R165, R568; reset: none] -/
  img : List Nat := []
  deriving DecidableEq, Repr

/-- The sixteen sluices. -/
structure SluSt where
  s : List Slu := List.replicate 16 {}
  deriving DecidableEq, Repr

/-! ## Weir stores, meters, load balancing -/

/-- A meter (R126): settings of R144, and its two buckets in bits × 10^6 with the device time they were filled to. -/
structure Meter where
  cir : Nat
  pir : Nat
  cbs : Nat
  pbs : Nat
  tc : Nat
  tp : Nat
  at_ : Nat
  deriving DecidableEq, Repr

/-- Control stores, meters, counters and the indirection table. -/
structure WeirSt where
  /-- Weir control stores by ((bank·16 + reach)·16 + weir)·2048 + word [2 × 16 × 15 × 2,048 × 256 bits; R139; reset: 0, DESIGN CHOICE, log 14] -/
  cs : SMap (BitVec 256) := []
  /-- Meters by reach·32768 + index; unlisted has rates and bursts 0 [16 × 32,768; R126; reset 0, DESIGN CHOICE, log 14] -/
  meters : SMap Meter := []
  /-- Counters by reach·65536 + index: packets and bytes [16 × 65,536 × 128 bits; R127; reset 0, DESIGN CHOICE, log 14] -/
  counters : SMap (Nat × Nat) := []
  /-- Indirection entries by group·512 + index [4,096 × 512 × 32 bits; R103; reset 0, DESIGN CHOICE, log 14] -/
  indE : SMap Word := []
  /-- Indirection group descriptors [4,096 × 32 bits; R103; reset 0, DESIGN CHOICE, log 14] -/
  indG : SMap Word := []
  deriving DecidableEq, Repr

/-! ## The whole -/

/-- Everything of the device outside the AUX domain, the TIME counters and the key stores. -/
structure Chip where
  /-- Every register of BAR0 that holds a value, keyed by BAR0 offset, bank B of an RWE register at 2^28 + offset; unlisted reads as its reset value. -/
  regs : SMap Word := []
  /-- What the block has sent, oldest first [the model's own record of its outputs; reset: nothing] -/
  out : List Output := []
  /-- How many free values have been taken [the model's own counter; log 3; reset 0] -/
  fresh : Nat := 0
  /-- Upper halves captured by reads of name_LO, by agent·2^28 + offset [per agent; R36; reset: none] -/
  shadow : SMap Word := []
  /-- Storage words that hold an upset, by (page·64 + memory)·2^24 + word [R480; reset: none] -/
  upsets : SMap Upset := []
  /-- Real time of the last beat boundary [R16; reset 0] -/
  lastBeat : Nat := 0
  /-- Beat boundaries passed [the count behind BEAT_CNT; R392; reset 0] -/
  beat : Nat := 0
  mbx : MbxSt := {}
  ep : EpochSt := {}
  pwr : PwrSt := {}
  dma : DmaSt := {}
  links : LinkSt := {}
  /-- Frames in the device by number -/
  frames : SMap Frame := []
  /-- The number the next frame takes [the model's own; reset 0] -/
  nextFrame : Nat := 0
  reaches : List ReachSt := List.replicate 16 {}
  buf : BufMgrSt := {}
  sw : SwitchSt := {}
  flm : FlumeSt := {}
  tel : TelSt := {}
  weirs : WeirSt := {}
  tbl : TblSt := {}
  slu : SluSt := {}
  /-- Configuration area of the boot flash: images by slot, newest first [R449, R451; reset: none, log 8] -/
  flash : SMap (List (Nat × List Byte)) := []
  deriving DecidableEq, Repr

/-- The state of the block, with the queue of the commands that wait. -/
structure State where
  /-- Commands that wait, first in first out. -/
  pending : List Instr := []
  aux : Aux := {}
  clk : Clk := {}
  vault : Vault := {}
  chip : Chip := {}
  deriving DecidableEq, Repr

/-- The block right after reset: the supplies have risen, POR_N has been released and the boot timeline of
R524 has run with both firmware slots good and no configuration image in flash, so that it stands at epoch 0
with reset values (R450). The registers that boot leaves away from their table's reset value are listed. -/
def State.reset : State :=
  { chip := { regs :=
      [ (0x00010010, 0x02000000#32),   -- RSTCLK INT_CAUSE: READY_EV (R524 step 9)
        (0x0001001C, 0x80000019#32),   -- RSTCLK INT_FIRST: READY_EV was first (R45)
        (0x02210008, 0x00000001#32) ]  -- buffer manager PAGE_CTL.EN (R229)
      } }

end Sys2Proof.Machine
end

