-- ==== Sys2Proof/Machine/Ops.lean ====
section
/-!
DEFINITION. Machine/Ops.lean: the named operations over registers, interrupts, time and power domains that
every family of commands is written in.
-/
namespace Sys2Proof.Machine

/-! ## Reset values of registers (R38 and the tables; R41, R47, R53, R215, R434) -/

/-- Pages whose block holds no SRAM: their scrub registers read zero and ignore writes (R47). R479, R497 and
R530 say it of THERM, FAULT and RSTCLK; CHIP and the reach common pages name no memory. DEDUCED (log 16). -/
def noSram (k : Reg.Kind) : Bool :=
  match k with
  | .chip | .rstclk | .therm | .fault | .reachCommon => true
  | _ => false

/-- PAGE_CTL.EN at reset: 1 in the global pages, Vault common and the host DMA pages, 0 elsewhere (R41). -/
def enReset (pg : Nat) : Nat := if pg < 0x009 ∨ pg = 0x010 ∨ (0x260 ≤ pg ∧ pg < 0x269) then 1 else 0

/-- The default vector of page `n` (R53). -/
def defaultVector (n : Nat) : Nat :=
  if n = 0x000 ∨ n = 0x001 ∨ n = 0x004 ∨ n = 0x008 then 0
  else if n = 0x002 ∨ n = 0x007 then 1
  else if n = 0x003 then 2
  else if n = 0x005 then 3
  else if n = 0x006 then 4
  else if n = 0x010 ∨ (0x020 ≤ n ∧ n < 0x040) then 5
  else if 0x040 ≤ n ∧ n < 0x088 then 6 + (n - 0x040) / 9
  else if 0x090 ≤ n ∧ n < 0x120 then 6 + (n - 0x090) / 18
  else if 0x120 ≤ n ∧ n < 0x220 then 14 + (n - 0x120) / 16
  else if 0x220 ≤ n ∧ n < 0x230 then 30
  else if 0x230 ≤ n ∧ n < 0x240 then 31
  else if 0x240 ≤ n ∧ n < 0x250 then 32
  else if 0x250 ≤ n ∧ n < 0x260 then 33
  else if 0x260 ≤ n ∧ n < 0x270 then 34
  else 0

/-- Registers whose value after boot differs from their table's reset column, because a rule gives it:
CAL_STAT.G 1.0 (R457), THERM_STAT thermal cap 820 W (R472), LB_STAT with the PLL of the reset mode locked
(R61, R524 step 7), FL_STAT ready (R524 step 7), DLINK_STAT up (R524), REFCLK_STAT and TIME_CLK_STAT
present and locked, POOL_CAP of the reset carve (R229, R524 step 7), SL_STAT RUNNING for S0 to S7 and
STOPPED for S8 to S15 (R163), IMG_VERSION and IMG_SVN of the firmware of S0 to S7. DEDUCED (log 17). -/
def bootValue (a : Nat) : Option Nat :=
  if a = Reg.pwr_CAL_STAT then some 0x1000
  else if a = Reg.therm_THERM_STAT then some 0x334
  else if a / 65536 ≥ 0x040 ∧ a / 65536 < 0x088 ∧ a % 65536 = 0x100 then some 0x5
  else if 0x120 ≤ a / 65536 ∧ a / 65536 < 0x220 ∧ a / 65536 % 16 = 3 ∧ a % 65536 = 0x104 then
    some (if a / 65536 < 0x1A0 then 0x30000 else 0x10000)
  else if 0x120 ≤ a / 65536 ∧ a / 65536 < 0x1A0 ∧ a / 65536 % 16 = 3 ∧ a % 65536 = 0x11C then
    some (Config.fwVersion ((a / 65536 - 0x120) / 16)).toNat
  else if 0x120 ≤ a / 65536 ∧ a / 65536 < 0x1A0 ∧ a / 65536 % 16 = 3 ∧ a % 65536 = 0x120 then
    some (Config.fwSvn ((a / 65536 - 0x120) / 16)).toNat
  else if a = Reg.flume_FL_STAT then some 0x3
  else if a = Reg.fault_DLINK_STAT then some 0x03FF0000
  else if a = Reg.rstclk_REFCLK_STAT then some 0x030001FF
  else if a = Reg.time_TIME_CLK_STAT then some 0x1
  else if a = Reg.bufmgr_POOL_CAP 0 then some 393216
  else if a = Reg.bufmgr_POOL_CAP 1 then some 196608
  else if a = Reg.bufmgr_POOL_CAP 2 then some 90112
  else none

/-- What a register that is not listed reads as: its reset value. -/
def rstVal (key : Nat) : Word :=
  let a := key % 0x10000000
  match bootValue a with
  | some v => wd v
  | none =>
    match Reg.rowAt a with
    | none => 0
    | some r =>
      let pg := a / 65536
      let off := a % 65536
      if off = 0x008 then wd (enReset pg)
      else if off = 0x030 then
        (match Reg.kindOf pg with
         | some k => if noSram k then 0 else wd r.rst
         | none => 0)
      else if pg = 0 ∧ 0x1000 ≤ off then wd (0x80000000 + defaultVector ((off - 0x1000) / 4))
      else if a = Reg.vault_UP_OWNER 0 then 0x11
      else if a = Reg.vault_UP_OWNER 5 then 0x16
      else if pg = 0x232 ∧ 0x280 ≤ off ∧ off < 0x2C0 then 1
      else if pg = 0x232 ∧ 0x2C0 ≤ off ∧ off < 0x300 then 2
      else wd r.rst

/-! ## Reading and writing registers -/

/-- The value a register holds. -/
def Chip.rd (c : Chip) (a : Nat) : Word := (mget c.regs a).getD (rstVal a)

/-- A register given a value. -/
def Chip.wr (c : Chip) (a : Nat) (v : Word) : Chip :=
  { c with regs := mput c.regs a (if v = rstVal a then none else some v) }

/-- A field `[hi:lo]` of a register. -/
def Chip.rdF (c : Chip) (a hi lo : Nat) : Nat := fld (c.rd a) hi lo

/-- A field of a register given a value. -/
def Chip.wrF (c : Chip) (a hi lo v : Nat) : Chip := c.wr a (setFld (c.rd a) hi lo v)

/-- Bit `i` of a register. -/
def Chip.rdB (c : Chip) (a i : Nat) : Bool := bit (c.rd a) i

/-- Bits of a register set (an OR of a mask). -/
def Chip.orW (c : Chip) (a : Nat) (m : Word) : Chip := c.wr a (c.rd a ||| m)

/-- A saturating counter register advanced (R7). -/
def Chip.count (c : Chip) (a : Nat) (n : Nat) : Chip := c.wr a (satAdd (c.rd a) n)

/-- A saturating counter held in the field `[hi:lo]` of a register advanced by one. -/
def Chip.countF (c : Chip) (a hi lo : Nat) : Chip :=
  c.wrF a hi lo (clampTo (2 ^ (hi + 1 - lo) - 1) (c.rdF a hi lo + 1))

/-- A 64-bit counter pair advanced, modulo 2^64 (R36). -/
def Chip.count64 (c : Chip) (lo hi : Nat) (n : Nat) : Chip :=
  let v := (c.rd lo).toNat + 4294967296 * (c.rd hi).toNat + n
  (c.wr lo (wd (v % 4294967296))).wr hi (wd (v / 4294967296))

/-- A value of a 64-bit register pair. -/
def Chip.rd64 (c : Chip) (lo hi : Nat) : Nat := (c.rd lo).toNat + 4294967296 * (c.rd hi).toNat

/-- A 64-bit register pair given a value. -/
def Chip.wr64 (c : Chip) (lo hi v : Nat) : Chip :=
  (c.wr lo (wd (v % 4294967296))).wr hi (wd (v / 4294967296 % 4294967296))

/-- Something the block sends. -/
def Chip.emit (c : Chip) (o : Output) : Chip := { c with out := c.out ++ [o] }

/-- A fresh free value: the spec leaves the value open (log 3). -/
def Chip.free (c : Chip) : Word × Chip := (Config.freeWord c.fresh, { c with fresh := c.fresh + 1 })

/-! ## Banks (R48, R436) -/

/-- The active bank: false A, true B (R453). -/
def Chip.bankB (c : Chip) : Bool := c.rdB Reg.epoch_EPOCH_STAT 16

/-- Key of an RWE register in a bank. -/
def bankKey (b : Bool) (a : Nat) : Nat := if b then 0x10000000 + a else a

/-- An RWE register as one bank holds it. -/
def Chip.rdE (c : Chip) (b : Bool) (a : Nat) : Word := c.rd (bankKey b a)

/-- A field of an RWE register in a bank. -/
def Chip.rdEF (c : Chip) (b : Bool) (a hi lo : Nat) : Nat := fld (c.rdE b a) hi lo

/-- Whether the epoch machine is in STAGING (R438). -/
def Chip.staging (c : Chip) : Bool := c.rdF Reg.epoch_EPOCH_STAT 31 28 == 2

/-- The pages whose RWE fields are banked (R436). -/
def bankedPage (pg : Nat) : Bool :=
  match Reg.kindOf pg with
  | some .parser | some .weir | some .sched | some .wheel | some .level | some .trace => true
  | _ => false

/-- The bank that holds an epoch stamp: the active bank for CUR, the other one otherwise (R436, R442). -/
def Chip.bankOf (c : Chip) (e : Nat) : Bool :=
  if e = c.rdF Reg.epoch_EPOCH_STAT 15 0 then c.bankB else !c.bankB

/-! ## Interrupts (R44, R45, R54) -/

/-- Whether any of the `n` registers from `a`, 4 bytes apart, is not zero. -/
def Chip.anySet (c : Chip) (a : Nat) : Nat → Bool
  | 0 => false
  | n + 1 => c.rd a != 0 || c.anySet (a + 4) n

/-- Lanes of block `k` whose LN_EV is not zero, as bits (R85). -/
def Chip.laneEvs (c : Chip) (k : Nat) : Nat → Nat
  | 0 => 0
  | i + 1 => c.laneEvs k i + (if c.rd (Reg.lane_LN_EV k i) = 0 then 0 else 2 ^ i)

/-- The RO bits of INT_CAUSE that follow a condition, by page: R85 lane events, R87 MSC_EV, R252 FBG_WARN_EV,
R276 flush and storm, R305 TH_EV, R352 PTPQ_EV and TXTS_EV, R393 SMPQ_EV, R411 mailbox bits. -/
def Chip.levelCause (c : Chip) (pg : Nat) : Word :=
  match Reg.kindOf pg with
  | some .lane => wd (c.laneEvs (pg - 0x040) 16)
  | some .port => if c.rd (Reg.port_MSC_PEND (pg - 0x090)) = 0 then 0 else oneBit 24
  | some .bufmgr => if c.rd Reg.bufmgr_FBG_WARN_PEND = 0 then 0 else oneBit 19
  | some .switch =>
    (if c.anySet (Reg.switch_FLUSH_DONE_PEND 0) 36 then oneBit 27 else 0) |||
    (if c.anySet (Reg.switch_WD_PEND 0) 36 then oneBit 26 else 0)
  | some .gauge => if c.anySet (Reg.gauge_TH_PEND ((pg - 0x126) / 16) 0) 46 then oneBit 27 else 0
  | some .time =>
    (if c.rd Reg.time_PTPQ_HEAD = c.rd Reg.time_PTPQ_TAIL &&& 0xFFF then 0 else oneBit 20) |||
    (if c.anySet (Reg.time_TXTS_PEND 0) 36 then oneBit 18 else 0)
  | some .telemetry =>
    if c.rd Reg.telemetry_SMPQ_HEAD = c.rd Reg.telemetry_SMPQ_TAIL then 0 else oneBit 25
  | some .mbx =>
    (if c.rd Reg.mbx_POST_PEND = 0 then 0 else oneBit 27) |||
    (if c.rd Reg.mbx_ACK_PEND = 0 then 0 else oneBit 26) |||
    (if c.rd Reg.mbx_TMO_PEND = 0 then 0 else oneBit 25) |||
    (if c.rd Reg.mbx_XOVER_PEND = 0 then 0 else oneBit 24)
  | _ => 0

/-- INT_CAUSE of a page as it reads: the event bits held and the bits that follow a condition. -/
def Chip.cause (c : Chip) (pg : Nat) : Word := c.rd (Reg.INT_CAUSE pg) ||| c.levelCause pg

/-- A page asserts when INT_CAUSE AND INT_ENABLE is not zero (R51). -/
def Chip.asserts (c : Chip) (pg : Nat) : Bool := (c.cause pg &&& c.rd (Reg.INT_ENABLE pg)) != 0

/-- MSI-X vectors a function's table holds: PF0 128, VFn 8 (R532). -/
def msixSize (f : Nat) : Nat := if f = 0 then 128 else 8

/-- The MSI-X vector of a page, `none` for a route to INT_N (R52, R53). -/
def Chip.route (c : Chip) (pg : Nat) : Option (Nat × Nat) :=
  let w := c.rd (Reg.chip_INT_ROUTE pg)
  let f := fld w 18 16
  let v := fld w 6 0
  if bit w 31 && v < 64 && v < msixSize f then some (f, v) else none

/-- The pages with an INT_ENABLE away from reset: no other page asserts. -/
def Chip.enabledPages (c : Chip) : List Nat :=
  (c.regs.filter fun kv => kv.1 % 65536 == 0x14 && kv.1 < 0x10000000).map fun kv => kv.1 / 65536

/-- Completions of a ring beyond RING_ACK (R543), from its registers. -/
def Chip.ringBeyond (c : Chip) (r : Nat) : Nat :=
  let b := r / 8
  let i := r % 8
  let size := 2 ^ (max 6 (min 16 (c.rdF (Reg.ringblk_RING_CFG b i) 28 24)))
  ((c.rdF (Reg.ringblk_RING_HEAD b i) 15 0 + size) - (c.rdF (Reg.ringblk_RING_ACK b i) 15 0 % size)) % size

/-- A ring asserts when its completions beyond RING_ACK reach COAL_CNT, or the oldest has waited COAL_TIME
(R543; a COAL_CNT of 0 acts as 1). -/
def Chip.ringAsserts (c : Chip) (r : Nat) : Bool :=
  let n := c.ringBeyond r
  (max 1 (c.rdF (Reg.ringblk_RING_COAL (r / 8) (r % 8)) 15 0) ≤ n) || (n != 0 && c.dma.coalDue.contains r)

/-- Owner function of a ring block (R534, BLOCK_OWNER). -/
def Chip.blockOwner (c : Chip) (b : Nat) : Nat := c.rdF Reg.dma_BLOCK_OWNER (3 * b + 2) (3 * b)

/-- The vector of a ring (R543): PF0 vector 64 + r, or VFn vector i. -/
def Chip.ringVector (c : Chip) (r : Nat) : Nat × Nat :=
  let f := c.blockOwner (r / 8)
  if f = 0 then (0, 64 + r) else (f, r % 8)

/-- A vector is pending while a page routed to it or a ring that uses it asserts (R54, R543). -/
def Chip.vecPending (c : Chip) (fv : Nat × Nat) : Bool :=
  c.enabledPages.any (fun pg => c.asserts pg && c.route pg == some fv) ||
  (List.range 64).any (fun r => c.ringVector r == fv && c.ringAsserts r)

/-- One MSI-X message, unless the PCIe mask bit of the vector holds it (R54; log 12). -/
def Chip.message (c : Chip) (fv : Nat × Nat) : Chip :=
  if c.dma.masked.contains (128 * fv.1 + fv.2) then c else c.emit (.msix fv.1 fv.2)

/-- The change from `c` to `c'` touched the causes or the enables of page `pg`: a message goes out when its
vector goes from not pending to pending (R54). -/
def Chip.settle (c c' : Chip) (pg : Nat) : Chip :=
  if c'.asserts pg && !c.asserts pg then
    match c'.route pg with
    | some fv => if c.vecPending fv then c' else c'.message fv
    | none => c'
  else c'

/-- INT_FIRST takes a cause bit that sets while VALID is 0 (R45). -/
def Chip.firstCause (c : Chip) (pg i : Nat) : Chip :=
  if c.rdB (Reg.INT_FIRST pg) 31 then c else c.wr (Reg.INT_FIRST pg) (wd (0x80000000 + i))

/-- The highest set bit of a word below bit `n`. -/
def topBit (w : Word) : Nat → Option Nat
  | 0 => none
  | n + 1 => if bit w n then some n else topBit w n

/-- Cause bits of a page set in one clock: they set, the highest new one may become INT_FIRST (R45), and the
page's vector may fire (R54). A bit that is already set is no new cause. -/
def Chip.raiseM (c : Chip) (pg : Nat) (m : Word) : Chip :=
  let fresh := m &&& ~~~ c.rd (Reg.INT_CAUSE pg)
  let c1 := c.orW (Reg.INT_CAUSE pg) m
  let c2 := match topBit fresh 32 with
    | some i => c1.firstCause pg i
    | none => c1
  c.settle c2 pg

/-- One cause bit of a page sets. -/
def Chip.raise (c : Chip) (pg i : Nat) : Chip := c.raiseM pg (oneBit i)

/-- The change from `c` to `c1` may have set RO cause bits of page `pg`: they are recorded by INT_FIRST and may
fire the vector (R45, R54). -/
def Chip.edge (c c1 : Chip) (pg : Nat) : Chip :=
  let c2 := match topBit (c1.cause pg &&& ~~~ c.cause pg) 32 with
    | some i => c1.firstCause pg i
    | none => c1
  c.settle c2 pg

/-- Pending bits of a register of page `pg` set, whose OR is the RO cause bit `i`: the cause sets, is
recorded by INT_FIRST and may fire the vector (R45, R54). -/
def Chip.pend (c : Chip) (pg a : Nat) (m : Word) (i : Nat) : Chip :=
  let c1 := c.orW a m
  let c2 := if bit (c.cause pg) i then c1 else if bit (c1.cause pg) i then c1.firstCause pg i else c1
  c.settle c2 pg

/-- INT_FIRST.VALID clears once every cause bit of the page is zero (R45). -/
def Chip.firstSettle (c : Chip) (pg : Nat) : Chip :=
  if c.cause pg = 0 then c.wr (Reg.INT_FIRST pg) 0 else c

/-- INT_N is low while a page whose route is off MSI-X, or invalid, asserts (R55). -/
def Chip.intN (c : Chip) : Bool := c.enabledPages.any fun pg => c.asserts pg && (c.route pg).isNone

/-! ## Fatal faults and soft resets (R42, R43, R491, R494) -/

/-- PAGE_STAT.FAULT of a page. -/
def Chip.faulted (c : Chip) (pg : Nat) : Bool := c.rdB (Reg.PAGE_STAT pg) 2

/-- A soft reset of a page runs. -/
def Chip.inReset (c : Chip) (pg : Nat) : Bool := c.rdB (Reg.PAGE_CTL pg) 1

/-- PAGE_CTL.EN of a page. -/
def Chip.enabled (c : Chip) (pg : Nat) : Bool := c.rdB (Reg.PAGE_CTL pg) 0

/-- FIRST_FATAL and its time, when no capture is held (R494, R495). -/
def Chip.firstFatal (c : Chip) (tod pg : Nat) : Chip :=
  if c.rdB Reg.fault_FIRST_FATAL 31 then c
  else
    (((c.wr Reg.fault_FIRST_FATAL (wd (0x80000000 + pg))).wr Reg.fault_FIRST_FATAL_NS
      (wd (tod / 806400000000000 % 1000000000))).wr Reg.fault_FIRST_FATAL_SEC
      (wd (tod / 806400000000000000000000 % 4294967296))).raise 0x008 27

/-- A block takes a fatal fault: FAULT and FATAL_EV set, FATAL_CNT counts, FIRST_FATAL captures the first (R491,
R494). A block that already has FAULT set takes no further one. -/
def Chip.fatal (c : Chip) (tod pg : Nat) : Chip :=
  if c.faulted pg then c
  else (((c.wrF (Reg.PAGE_STAT pg) 2 2 1).raise pg 31).count Reg.fault_FATAL_CNT 1).firstFatal tod pg

/-! ## Storage errors (R46, R480) -/

/-- Key of a storage word among the upsets. -/
def upKey (pg mem word : Nat) : Nat := (pg * 64 + mem) * 16777216 + word

/-- What reading a storage word finds. -/
inductive EccRes where
  | clean
  | corrected
  | bad
  deriving DecidableEq, Repr

/-- A corrected error: ERR_CE_CNT counts it, CE_TH_EV sets when the count reaches CE_TH, and it is captured
when no capture is held (R44, R46, R47). -/
def Chip.correctable (c : Chip) (pg mem word : Nat) (u : Upset) : Chip :=
  let c1 := c.count (Reg.ERR_CE_CNT pg) 1
  let th := c1.rdF (Reg.SCRUB_CTL pg) 31 16
  let c2 := if th ≠ 0 ∧ (c1.rd (Reg.ERR_CE_CNT pg)).toNat = th then c1.raise pg 29 else c1
  if c2.rdB (Reg.ERR_ADDR pg) 31 then c2
  else (c2.wr (Reg.ERR_ADDR pg) (wd (0x80000000 + mem * 0x1000000 + word))).wr
    (Reg.ERR_SYND pg) (wd (u.bitpos * 65536 + u.synd))

/-- An uncorrectable error: ERR_UE_CNT and UE_EV, and a capture unless an uncorrectable one is held (R46). -/
def Chip.uncorrectable (c : Chip) (pg mem word : Nat) (u : Upset) : Chip :=
  let c1 := (c.count (Reg.ERR_UE_CNT pg) 1).raise pg 30
  if c1.rdB (Reg.ERR_ADDR pg) 31 && c1.rdB (Reg.ERR_ADDR pg) 30 then c1
  else (c1.wr (Reg.ERR_ADDR pg) (wd (0xC0000000 + mem * 0x1000000 + word))).wr
    (Reg.ERR_SYND pg) (wd (0xFF0000 + u.synd))

/-- A storage word is read: SECDED corrects one bit and reports more (R482). -/
def Chip.ecc (c : Chip) (pg mem word : Nat) : EccRes × Chip :=
  match mget c.upsets (upKey pg mem word) with
  | none => (.clean, c)
  | some u => if u.unc then (.bad, c.uncorrectable pg mem word u) else (.corrected, c.correctable pg mem word u)

/-- A storage word is rewritten: an upset is gone, a stuck bit stays (R480). -/
def Chip.rewrite (c : Chip) (pg mem word : Nat) : Chip :=
  match mget c.upsets (upKey pg mem word) with
  | none => c
  | some u => if u.stuck then c else { c with upsets := merase c.upsets (upKey pg mem word) }

/-! ## Clock domains and time -/

/-- The AUX domain runs: VDD_AUX is up. -/
def State.auxOn (s : State) : Bool := s.aux.rail != .off

/-- The device is out of reset and not frozen: TIME, PCIe and the register fabric run (R512, R527). -/
def State.live (s : State) : Bool := s.aux.rail == .run && !s.aux.frozen

/-- The core clock runs: not frozen, and not STANDBY (R512, R526). -/
def State.coreOn (s : State) : Bool := s.live && s.aux.pstate != 2 && s.aux.phase == 6

/-- A change of the chip made while the core clock runs; nothing changes while it is stopped (R512, R526). -/
def State.onCore (s : State) (f : Chip → Chip) : State := if s.coreOn then { s with chip := f s.chip } else s

/-- A change of the chip made by a part that also runs in STANDBY: the TIME, AUX and PCIe side (R527). -/
def State.onLive (s : State) (f : Chip → Chip) : State := if s.live then { s with chip := f s.chip } else s

/-- Device-time units of one nanosecond: 3150 × 256 × 10^9, so that a TIME clock increment of R331 is whole. -/
def nsU : Nat := 806400000000000

/-- Device-time units of 2^-16 ns (FRAC). -/
def fracU : Nat := 12304687500

/-- Device-time units of a quarter nanosecond (Q). -/
def qU : Nat := 201600000000000

/-- Device-time units of one second. -/
def secU : Nat := 1000000000 * nsU

/-- SEC of a device time (R326). -/
def todSec (t : Nat) : Nat := t / secU

/-- NS of a device time (R326). -/
def todNs (t : Nat) : Nat := t / nsU % 1000000000

/-- FRAC of a device time (R326). -/
def todFrac (t : Nat) : Nat := t % nsU / fracU

/-- A device time within its second in quarter nanoseconds. -/
def todQ (t : Nat) : Nat := t % secU / qU

/-- A device time rounded to the nearest multiple of 0.25 ns, ties upward (R334). -/
def roundQ (t : Nat) : Nat := (t + qU / 2) / qU * qU

/-- An integer device time rounded in the same way. -/
def roundQI (t : Int) : Int := (t + (qU / 2 : Nat)) / (qU : Nat) * (qU : Nat)

/-- Seconds (48 bits) and quarter nanoseconds as the 10 bytes of SEC[47:0] and Q. -/
def secQBytes (t : Nat) : List Byte := beBytes 6 (todSec t % 2 ^ 48) ++ beBytes 4 (todQ t)

/-- Real-time units of one nanosecond. -/
def rtNs : Nat := 3150

/-- Real-time units of one core clock at a pace (R24): 2.5, 2.25, 2.0, 1.75 and 1.25 GHz. -/
def clockUnits (pace : Nat) : Nat :=
  match pace with
  | 0 => 1260
  | 1 => 1400
  | 2 => 1575
  | 3 => 1800
  | _ => 2520

/-- The present pace (R476). -/
def Chip.pace (c : Chip) : Nat := c.rdF Reg.pwr_PACE_STAT 26 24

/-- Whether the droop stretch doubles the core clock (R466). -/
def Chip.droop (c : Chip) : Bool := c.rdB Reg.pwr_PACE_STAT 0

/-- Real-time units of the present core clock period. -/
def Chip.clockPeriod (c : Chip) : Nat := clockUnits c.pace * (if c.droop then 2 else 1)

/-- Real-time units of a beat of 8 core clocks (R16, R18). -/
def Chip.beatUnits (c : Chip) : Nat := 8 * c.clockPeriod

/-- Device time passes with real time: `d` real-time units add `d × (256·10^9 + F)` device-time units, the
increment of R331 for every 4,032 of them. The TIME clock is stopped while the device is frozen (R512). -/
def Clk.advance (k : Clk) (t : Nat) : Clk :=
  if k.now < t then
    { k with now := t, tod := k.tod + ((t - k.now : Nat) * (256000000000 + k.freq)).toNat }
  else k

/-- Lag of the CORE view of device time, in real-time units: 2 TIME clocks and up to 2 core clocks (R528; log 45). -/
def Chip.coreLag (c : Chip) (now : Nat) : Nat := 8064 + Config.coreLag now % (2 * c.clockPeriod + 1)

/-- Device-time units that pass in `d` real-time units at the rate in force. -/
def Clk.span (k : Clk) (d : Nat) : Nat := ((d : Int) * (256000000000 + k.freq)).toNat

/-- Device time as the core sees it at a beat boundary or a word: the operands TNS and TSEC (R114, R149, R528). -/
def Chip.coreTod (c : Chip) (k : Clk) : Nat := k.tod - k.span (c.coreLag k.now)

/-! ## Small tools -/

/-- A record of a list changed at one place. -/
def modAt {α : Type} (l : List α) (i : Nat) (f : α → α) : List α :=
  match l[i]? with
  | some x => upd l i (f x)
  | none => l

/-- A reach's pipeline changed. -/
def Chip.onReach (c : Chip) (r : Nat) (f : ReachSt → ReachSt) : Chip := { c with reaches := modAt c.reaches r f }

/-- A reach's pipeline. -/
def Chip.reach (c : Chip) (r : Nat) : ReachSt := c.reaches[r]?.getD {}

/-- A frame's record changed, if the frame is in the device. -/
def Chip.onFrame (c : Chip) (fid : Nat) (f : Frame → Frame) : Chip :=
  match mget c.frames fid with
  | some x => { c with frames := mput c.frames fid (some (f x)) }
  | none => c

/-- A copy's record changed, if the copy exists. -/
def Chip.onCopy (c : Chip) (cid : Nat) (f : Copy → Copy) : Chip :=
  match mget c.sw.copies cid with
  | some x => { c with sw := { c.sw with copies := mput c.sw.copies cid (some (f x)) } }
  | none => c

/-- An output queue. -/
def Chip.queue (c : Chip) (q : Nat) : Queue := (mget c.sw.queues q).getD {}

/-- An output queue changed. -/
def Chip.onQueue (c : Chip) (q : Nat) (f : Queue → Queue) : Chip :=
  { c with sw := { c.sw with queues := mset {} c.sw.queues q (f (c.queue q)) } }

/-- Bytes listed in a store that has no default. -/
def putBytes (m : SMap Byte) (a : Nat) : List Byte → SMap Byte
  | [] => m
  | b :: bs => putBytes (mput m a (some b)) (a + 1) bs

/-- `n` bytes of the Flume from a byte address; a byte nothing has written is free (R306, log 15). -/
def Chip.flBytes (c : Chip) (a n : Nat) : List Byte :=
  (List.range n).map fun i => (mget c.flm.mem (a + i)).getD (Config.flumeByte c.flm.gen (a + i))

/-- Units of 64 bytes that hold an error, without those of a range just written (R319). -/
def flMend (errs : SMap Nat) (a n : Nat) : SMap Nat :=
  if n = 0 then errs else mclear errs (a / 64) ((a + n - 1) / 64 + 1)

/-- Bytes stored in the Flume at a byte address. -/
def Chip.flStore (c : Chip) (a : Nat) (bs : List Byte) : Chip :=
  { c with flm := { c.flm with mem := putBytes c.flm.mem a bs, errs := flMend c.flm.errs a bs.length } }

/-- The core clocks that have begun since reset, as a number that orders instants. -/
def Chip.clockIx (c : Chip) (k : Clk) : Nat := 8 * c.beat + (k.now - c.lastBeat) / c.clockPeriod

/-- The outcome of a command that answers a next state. -/
abbrev Out := Host.Outcome State Fault Refusal

/-! ## Onvos status codes (R8) -/

/-- The operation completed. -/
abbrev stOk : Nat := 0
/-- The resource was engaged. -/
abbrev stBusy : Nat := 1
/-- The named entry does not exist. -/
abbrev stNotFound : Nat := 2
/-- An insert named a key already present. -/
abbrev stExists : Nat := 3
/-- No room. -/
abbrev stFull : Nat := 4
/-- Held under a lock of another agent. -/
abbrev stLocked : Nat := 5
/-- Discarded by a fatal fault or reset. -/
abbrev stAborted : Nat := 6
/-- An argument is out of range or malformed. -/
abbrev stBadArg : Nat := 7
/-- No permission. -/
abbrev stDenied : Nat := 8
/-- The command named an epoch that is neither current nor staging. -/
abbrev stEpochStale : Nat := 9
/-- Not finished within its limit. -/
abbrev stTimeout : Nat := 10
/-- An authentication, signature or ECC check failed. -/
abbrev stIntegrity : Nat := 11
/-- No buffer or working memory. -/
abbrev stNoBuffer : Nat := 12

/-! ## Logical ports (R14, R58, R77, R269) -/

/-- MODE of the port of a logical port. -/
def Chip.portMode (c : Chip) (lp : Nat) : Nat := c.rdF (Reg.port_PORT_MODE (lp / 8)) 2 0

/-- Lanes of a sub-port in a mode (R58). -/
def modeLanes (mode : Nat) : Nat := if mode = 0 then 8 else if mode = 1 then 4 else if mode = 2 then 2 else 1

/-- A logical port the present mode makes active (R14); LP1152 always is. -/
def Chip.lpActive (c : Chip) (lp : Nat) : Bool :=
  lp == 1152 || (decide (lp < 1152) && lp % 8 % modeLanes (c.portMode lp) == 0)

/-- LINK_STAT.STATE of a logical port: 0 DISABLED, 1 WAIT_PLL, 2 AN, 3 TRAIN, 4 ADAPT, 5 ALIGN, 6 CAL, 7 UP,
8 FAULT, 9 DEEP, 10 RAW (R77). -/
def Chip.linkSt (c : Chip) (lp : Nat) : Nat := c.rdF (Reg.port_LINK_STAT (lp / 8) (lp % 8)) 19 16

/-- PSTAT.FLUSHING of a logical port (R269). -/
def Chip.flushing (c : Chip) (lp : Nat) : Bool := c.rdB (Reg.switch_PSTAT lp) 8

/-- A logical port is forwarding up: its link is UP and no flush of it is in progress (R77, R269). LP1152 has
no link: it is up. -/
def Chip.fwdUp (c : Chip) (lp : Nat) : Bool :=
  lp == 1152 || (decide (lp < 1152) && c.lpActive lp && c.linkSt lp == 7 && !c.flushing lp)

/-- The reach of a logical port; LP1152 is in reach 0 (R13, R15). -/
def reachOf (lp : Nat) : Nat := if lp < 1152 then lp / 72 else 0

/-- The local index of a logical port in its reach, 72 for LP1152. -/
def localOf (lp : Nat) : Nat := if lp < 1152 then lp % 72 else 72

/-! ## Sluices as agents (R30, R163, R394) -/

/-- Agent number of sluice `r`. -/
def sluiceAgent (r : Nat) : Nat := 17 + r

/-- SL_STAT.STATE of sluice `r` (R163): 0 RESET, 1 STOPPED, 2 LOADING, 3 RUNNING, 4 ABORTED. -/
def Chip.sluState (c : Chip) (r : Nat) : Nat := c.rdF (Reg.sluice_SL_STAT r) 19 16

/-- The sluice runs, so the service it gives is served (R168). -/
def Chip.serves (c : Chip) (r : Nat) : Bool := c.sluState r == 3

/-! ## The undo journal (R437, R445, R446) -/

/-- Records a segment holds (R445). -/
def jnlMax : Nat := 262144

/-- A journalled command is taken (R446, R447): BUSY while a replay runs unless S3 issues it; FULL when
no record is free and OVF_MODE is 0; otherwise OK. The flag says whether it holds a record: with OVF_MODE 1
and no free record it goes unrecorded, LOST sets and ROLLBACK_OK falls. -/
def Chip.jnlTake (c : Chip) (agent : Nat) : Nat × Bool × Chip :=
  if c.rdB Reg.epoch_JNL_STAT 30 && agent != sluiceAgent 3 then (stBusy, false, c)
  else if c.ep.journal.length + c.ep.reserved < jnlMax then
    (stOk, true, { c with ep := { c.ep with reserved := c.ep.reserved + 1 } })
  else
    let c1 := c.raise 0x005 23
    if c1.rdB Reg.epoch_JNL_CTL 0 then
      (stOk, false, (c1.orW Reg.epoch_JNL_STAT 0x80000000).wrF Reg.epoch_EPOCH_PREV 30 30 0)
    else (stFull, false, c1)

/-- A reserved record that the outcome does not need is released (R446). -/
def Chip.jnlDrop (c : Chip) (held : Bool) : Chip :=
  if held then { c with ep := { c.ep with reserved := c.ep.reserved - 1 } } else c

/-- A journalled change completes with the record it reserved (R445). -/
def Chip.jnlAdd (c : Chip) (k : Clk) (held : Bool) (kind op agent : Nat) (present : Bool)
    (before : List Byte) : Chip :=
  if held then { c with ep := { c.ep with
    reserved := c.ep.reserved - 1
    journal := c.ep.journal ++ [{ kind, op, agent, present, time := k.tod, before }] } }
  else c

end Sys2Proof.Machine
end

