-- ==== Sys2Proof/Machine/Operands.lean ====
section
/-!
DEFINITION. Machine/Operands.lean: the fields of a 256-bit microword, the operands a word reads and the
carry bytes it may write, for weirs and sluices (R113 to R117, R121, R148, R149).
-/
namespace Sys2Proof.Machine

/-! ## The microword (R113) -/

/-- A field `[hi:lo]` of a microword. -/
def mwF (w : BitVec 256) (hi lo : Nat) : Nat := (w.toNat >>> lo) % 2 ^ (hi + 1 - lo)

/-- The fields of R113. -/
abbrev mwNext (w : BitVec 256) : Nat := mwF w 255 242
abbrev mwBr (w : BitVec 256) : Nat := mwF w 241 238
abbrev mwTim (w : BitVec 256) : Nat := mwF w 237 234
abbrev mwSafe (w : BitVec 256) : Nat := mwF w 233 232
abbrev mwMove (w : BitVec 256) : Nat := mwF w 103 80
abbrev mwTable (w : BitVec 256) : Nat := mwF w 79 64
abbrev mwHash (w : BitVec 256) : Nat := mwF w 63 52
abbrev mwMeter (w : BitVec 256) : Nat := mwF w 51 40
abbrev mwEmit (w : BitVec 256) : Nat := mwF w 39 32
abbrev mwImm (w : BitVec 256) : Word := BitVec.ofNat 32 (mwF w 31 0)

/-- ALU field `n`, 0 to 3. -/
def mwAlu (w : BitVec 256) (n : Nat) : Nat := mwF w (231 - 32 * n) (200 - 32 * n)

/-- OP, SRCA, SRCB and DST of an ALU field (R114). -/
abbrev aluOp (f : Nat) : Nat := f / 2 ^ 26
abbrev aluA (f : Nat) : Nat := f / 2 ^ 17 % 512
abbrev aluB (f : Nat) : Nat := f / 2 ^ 8 % 512
abbrev aluDst (f : Nat) : Nat := f % 256

/-- A microword from its eight registers, register 0 holding bits [31:0] (R113). -/
def mwOfWords (l : List Word) : BitVec 256 :=
  BitVec.ofNat 256 (l.foldr (fun w acc => w.toNat + 4294967296 * acc) 0)

/-- Register `i` of a microword. -/
def mwWord (w : BitVec 256) (i : Nat) : Word := BitVec.ofNat 32 (w.toNat >>> (32 * i))

/-- A microword from 32 bytes, byte 0 holding bits [255:248] (R164, R449). -/
def mwOfBytes (l : List Byte) : BitVec 256 := BitVec.ofNat 256 (beNat (slice l 0 32))

/-! ## Which encodings exist (R114, R115, R117, R148, R149) -/

/-- An opcode reads its operand A. -/
def opReadsA (op : Nat) : Bool := op != 0 && decide (op ≤ 0x32)

/-- An opcode reads its operand B. -/
def opReadsB (op : Nat) : Bool :=
  opReadsA op && !(([0x01, 0x06, 0x07, 0x0C, 0x23, 0x24, 0x25, 0x26, 0x27, 0x2E, 0x2F] : List Nat).contains op)

/-- An opcode that writes a result to its destination. -/
def opWrites (op : Nat) : Bool := op != 0 && decide (op ≤ 0x2F)

/-- The opcodes an engine has: a sluice has no 0x30 to 0x32 (R148). -/
def opExists (sluice : Bool) (op : Nat) : Bool := if sluice then decide (op ≤ 0x2F) else decide (op ≤ 0x32)

/-- The operand codes an engine has. -/
def srcExists (sluice : Bool) (code : Nat) : Bool :=
  (decide (code ≤ 0x0EF) || decide (0x0F0 ≤ code)) && decide (code ≤ if sluice then 0x0FB else 0x0F8)

/-- The destination codes an engine has. -/
def dstExists (sluice : Bool) (code : Nat) : Bool := decide (code ≤ 0xD3) || (sluice && decide (0xE0 ≤ code))

/-- The kind of reserved encoding an ALU field uses: 1 opcode, 2 source, 3 destination (R118, ILL_LAST). -/
def aluIllegal (sluice : Bool) (f : Nat) : Option Nat :=
  let op := aluOp f
  if !opExists sluice op then some 1
  else if (opReadsA op && !srcExists sluice (aluA f)) || (opReadsB op && !srcExists sluice (aluB f)) then some 2
  else if opWrites op && !dstExists sluice (aluDst f) then some 3
  else none

/-! ## The carry (R96, R114 to R116) -/

/-- Byte `a` of a carry. -/
def cbyte (m : SMap Byte) (a : Nat) : Byte := mrd 0 m a

/-- `n` bytes of a carry from `a`, zero beyond byte 767. -/
def cbytes (m : SMap Byte) (a n : Nat) : List Byte :=
  (List.range n).map fun i => if a + i < 768 then cbyte m (a + i) else 0

/-- A big-endian field of a carry. -/
def cfld (m : SMap Byte) (a n : Nat) : Nat := beNat (cbytes m a n)

/-- Carry word `w`. -/
def cword (m : SMap Byte) (w : Nat) : Word := wd (cfld m (4 * w) 4)

/-- A carry with bytes written by the hardware. -/
def cput (m : SMap Byte) (a : Nat) (bs : List Byte) : SMap Byte := writeBytes m a bs

/-- A big-endian field of a carry written by the hardware. -/
def cputN (m : SMap Byte) (a n v : Nat) : SMap Byte := cput m a (beBytes n v)

/-- Bytes that ALU and MOVE writes never alter (R116). -/
def protectedByte (a : Nat) : Bool := decide (a < 0x010) || a == 0x017 || decide (0x2C0 ≤ a)

/-- One byte written by an ALU or MOVE (R116): bits [7:6] of byte 0x018 stay. -/
def cstore (m : SMap Byte) (a : Nat) (b : Byte) : SMap Byte :=
  if protectedByte a then m
  else if a = 0x018 then mset 0 m a ((cbyte m a &&& 0xC0) ||| (b &&& 0x3F))
  else mset 0 m a b

/-- Bytes written by an ALU or MOVE. -/
def cstores (m : SMap Byte) (a : Nat) : List Byte → SMap Byte
  | [] => m
  | b :: bs => cstores (cstore m a b) (a + 1) bs

/-! ## Carry fields by name (R97, R132) -/

abbrev cInLp (m : SMap Byte) : Nat := cfld m 0x000 2
abbrev cEpoch (m : SMap Byte) : Nat := cfld m 0x002 2
abbrev cExpLen (m : SMap Byte) : Nat := cfld m 0x006 2
abbrev cParsedLen (m : SMap Byte) : Nat := cfld m 0x008 2
abbrev cLenValid (m : SMap Byte) : Bool := (cbyte m 0x00B).getLsbD 7
abbrev cRecirc (m : SMap Byte) : Bool := (cbyte m 0x00B).getLsbD 5
abbrev cEgLp (m : SMap Byte) : Nat := cfld m 0x010 2 % 2048
abbrev cMcGroup (m : SMap Byte) : Nat := cfld m 0x012 2
abbrev cFwdKind (m : SMap Byte) : Nat := cfld m 0x014 1
abbrev cQueue (m : SMap Byte) : Nat := cfld m 0x015 1
abbrev cClass (m : SMap Byte) : Nat := cfld m 0x016 1
abbrev cDrop (m : SMap Byte) : Nat := cfld m 0x017 1 % 64
abbrev cToHost (m : SMap Byte) : Bool := (cbyte m 0x018).getLsbD 7
abbrev cHostOnly (m : SMap Byte) : Bool := (cbyte m 0x018).getLsbD 6
abbrev cCapture (m : SMap Byte) : Bool := (cbyte m 0x018).getLsbD 5
abbrev cNoCut (m : SMap Byte) : Bool := (cbyte m 0x018).getLsbD 4

/-- The first non-zero DROP_REASON written stands (R133). -/
def csetDrop (m : SMap Byte) (code : Nat) : SMap Byte :=
  if cDrop m = 0 ∧ code % 64 ≠ 0 then cputN m 0x017 1 (code % 64) else m

/-- DROP_REASON written whatever it held (BEAT_OVERRUN, WEIR_FAULT; R133). -/
def cforceDrop (m : SMap Byte) (code : Nat) : SMap Byte := cputN m 0x017 1 code

/-- TRAP and PUNT (R117). -/
def ctrap (m : SMap Byte) (code : Nat) (hostOnly : Bool) : SMap Byte :=
  let m1 := if cToHost m then m else cputN m 0x019 1 (code % 256)
  cputN m1 0x018 1 ((cbyte m1 0x018).toNat ||| (if hostOnly then 0xC0 else 0x80))

end Sys2Proof.Machine
end

