-- ==== Sys2Proof/Machine/Fate.lean ====
section
/-!
DEFINITION. Machine/Fate.lean: how a frame or a copy ends: its drop code, its trace record, the sample and the
capture record it offers (R272, R273, R367 to R377), with the frame check sequence and the port rates.
-/
namespace Sys2Proof.Machine

/-! ## Frame check sequence and rates (R58, R134) -/

/-- The FCS of IEEE 802.3 over bytes, as its four bytes on the wire. -/
def fcsOf (bs : List Byte) : List Byte := wordBytesLE (crc32 0xEDB88320 0xFFFFFFFF bs ^^^ 0xFFFFFFFF)

/-- A frame's last four bytes are its FCS. -/
def fcsGood (bs : List Byte) : Bool :=
  decide (4 ≤ bs.length) && bs.drop (bs.length - 4) == fcsOf (bs.take (bs.length - 4))

/-- A frame body with the inverted FCS that makes the peer discard it (R263). -/
def stompedFrame (body : List Byte) : List Byte := body ++ (fcsOf body).map fun b => ~~~ b

/-- Rate of a sub-port in Gb/s, by MODE (R58). -/
def modeRate (mode : Nat) : Nat :=
  match mode with
  | 0 => 1600
  | 1 => 800
  | 2 => 400
  | 3 => 200
  | 4 => 100
  | 5 => 50
  | _ => 25

/-- Nominal rate of a logical port, Gb/s. -/
def Chip.lpRate (c : Chip) (lp : Nat) : Nat := modeRate (c.portMode lp)

/-- Wire time of `n` bytes at a rate in Gb/s, in device-time units. -/
def wireTime (rate n : Nat) : Nat := n * 8 * nsU / rate

/-- MAX_LEN of an ingress logical port (R86, R152, R282): 16,383 for LP1152 and injected frames. -/
def Chip.maxLen (c : Chip) (lp : Nat) : Nat :=
  if lp < 1152 then max 64 (c.rdF (Reg.port_MAC_CTL (lp / 8)) 13 0) else 16383

/-! ## Drop codes (R272) -/

abbrev drParse : Nat := 0x01
abbrev drHeader : Nat := 0x02
abbrev drRecirc : Nat := 0x05
abbrev drEpoch : Nat := 0x08
abbrev drNoBuffer : Nat := 0x09
abbrev drLength : Nat := 0x0A
abbrev drHeadroom : Nat := 0x0B
abbrev drFloor : Nat := 0x0C
abbrev drPushed : Nat := 0x0D
abbrev drQueue : Nat := 0x0E
abbrev drNoDesc : Nat := 0x0F
abbrev drNoForward : Nat := 0x10
abbrev drInactive : Nat := 0x11
abbrev drPortDown : Nat := 0x12
abbrev drMcGroup : Nat := 0x13
abbrev drWatchdog : Nat := 0x14
abbrev drFcs : Nat := 0x15
abbrev drMacsec : Nat := 0x16
abbrev drData : Nat := 0x17
abbrev drGate : Nat := 0x18
abbrev drLevel : Nat := 0x19

/-- A drop is counted, and captured by the watch (R272, R273). `egLp` is 0x7FF when there is none. -/
def Chip.countDrop (c : Chip) (code inLp egLp : Nat) : Chip :=
  if code = 0 ∨ 63 < code then c
  else
    let c1 := c.count (Reg.switch_DROP_CNT (code - 1)) 1
    let w := c1.rd Reg.switch_DROP_WATCH
    if bit w 31 && fld w 5 0 == code && !c1.rdB Reg.switch_DROP_LAST 31 then
      (c1.wr Reg.switch_DROP_LAST (wd (0x80000000 + code * 4194304 + egLp * 2048 + inLp))).raise 0x220 24
    else c1

/-! ## The trace record at fate (R367, R369) -/

/-- STATUS and LEN written into a carry's trace record. -/
def fateTrace (m : SMap Byte) (tsErr : Bool) (code len : Nat) : SMap Byte :=
  let st := (cbyte m 0x2CE).toNat
  let ts := if tsErr || decide (128 ≤ st) then 128 else 0
  cputN (cputN m 0x2CE 1 (ts + st % 128 / 64 * 64 + code % 64)) 0x2E0 2 (len % 65536)

/-- The 64 bytes of the trace record. -/
def traceBytes (m : SMap Byte) : List Byte := cbytes m 0x2C0 64

/-- TFLAGS of a carry. -/
abbrev tFlags (m : SMap Byte) : Nat := cfld m 0x2D2 2

/-- An offer to the sample ring (R369, R370, R371). SMP_EN 0 stops the offers (DEDUCED, log 24). -/
def Chip.offerSample (c : Chip) (reach : Nat) (m : SMap Byte) (code : Nat) (frame : List Byte) : Chip :=
  let s := tFlags m / 64 % 32
  if tFlags m / 32 % 2 = 0 || !c.rdB Reg.telemetry_TEL_CTL 0 || (code != 0 && !c.rdB (Reg.telemetry_SMP_CFG s) 30) then c
  else
    let c1 := c.count (Reg.trace_SMP_OFFER_CNT reach) 1
    if 1024 ≤ c1.tel.smpFifo.length then (c1.count Reg.telemetry_SMPQ_DROP_CNT 1).raise 0x250 27
    else
      let hdr : List Byte := beBytes 1 s ++ beBytes 1 reach ++ [if code = 0 then 0 else 1] ++ List.replicate 13 0
      { c1 with tel := { c1.tel with smpFifo := c1.tel.smpFifo ++ [hdr ++ traceBytes m ++ slice frame 0 48] } }

/-- Tokens that pass one capture record: a bucket of RATE per millisecond gains RATE units per device-time unit. -/
def capTok : Nat := 1000000 * nsU

/-- The token bucket of a filter (R376): whether it passes a record now, and the device after it. -/
def Chip.capBucket (c : Chip) (k : Clk) (f : Nat) : Bool × Chip :=
  let rate := c.rdF (Reg.telemetry_CAP_CFG f) 19 0
  let full := max 1 (c.rdF (Reg.telemetry_CAP_BURST f) 15 0) * capTok
  if rate = 0 then (true, c)
  else
    let have_ := match mget c.tel.buckets f with
      | none => full
      | some (n, t) => min full (n + rate * (k.tod - t))
    let ok := decide (capTok ≤ have_)
    let left := if ok then have_ - capTok else have_
    (ok, { c with tel := { c.tel with buckets := mput c.tel.buckets f (some (left, k.tod)) } })

/-- A capture record is lost (R377). -/
def Chip.captureLost (c : Chip) : Chip :=
  let c1 := c.count Reg.telemetry_CAP_LOSS_CNT 1
  (c1.wr Reg.ledger_LOSS_ACC (c1.rd Reg.ledger_LOSS_ACC + 1)).raise 0x250 26

/-- DROP_CAP names a drop code (R376). -/
def Chip.dropCap (c : Chip) (code : Nat) : Bool :=
  c.rdB Reg.telemetry_DROP_CAP_CTL 31 && code != 0 &&
    (if code < 32 then c.rdB Reg.telemetry_DROP_CAP_LO code else c.rdB Reg.telemetry_DROP_CAP_HI (code - 32))

/-- An offer to the capture FIFO (R376, R377). The record waits with its header's time zero: the time is the one
at which it enters the ledger writer (R380). When both conditions hold, the drop capture decides the filter
(log 24). -/
def Chip.offerCapture (c : Chip) (k : Clk) (m : SMap Byte) (code : Nat) (frame : List Byte) (len : Nat) : Chip :=
  let byDrop := c.dropCap code
  let f := if byDrop then c.rdF Reg.telemetry_DROP_CAP_CTL 4 0 else tFlags m / 2048
  if !c.rdB Reg.telemetry_TEL_CTL 1 || !(byDrop || (cCapture m && c.rdB (Reg.telemetry_CAP_CFG f) 31)) then c
  else
    match c.capBucket k f with
    | (false, c1) => c1.count (Reg.telemetry_CAP_LIM_CNT f) 1
    | (true, c1) =>
      let n := min (64 * min 8 (c1.rdF (Reg.telemetry_CAP_CFG f) 27 24)) len
      let body := slice frame 0 ((n + 15) / 16 * 16)
      let body1 := (body.take n) ++ List.replicate (body.length - n) 0
      let hdr : List Byte := [1, 0] ++ beBytes 2 (80 + body1.length) ++ beBytes 2 ((if byDrop then 32768 else 0) + n) ++
        List.replicate 10 0
      let c2 := c1.count (Reg.telemetry_CAP_CNT f) 1
      if 4096 ≤ c2.tel.capFifo.length then c2.captureLost
      else { c2 with tel := { c2.tel with capFifo := c2.tel.capFifo ++ [hdr ++ traceBytes m ++ body1] } }

/-- The fate of a copy, or of a frame dropped before point 6 (R369). `frame` is the stored frame as received and
`len` how many bytes of it were stored. -/
def Chip.fate (c : Chip) (k : Clk) (reach : Nat) (m : SMap Byte) (tsErr : Bool) (code : Nat) (frame : List Byte)
    (len : Nat) : Chip :=
  let t := fateTrace m tsErr code len
  let fr := frame.take len
  (c.offerSample reach t code fr).offerCapture k t code fr len

end Sys2Proof.Machine
end

