-- ==== Sys2Proof/Machine/Cipher.lean ====
section
/-!
DEFINITION. Machine/Cipher.lean: the port MACsec engines and the SA commands, and unwrapping of a wrapped key
(17_cipher.md R412 to R421, R428, R429).
-/
namespace Sys2Proof.Machine

/-- The device with the Vault and the port keys. -/
abbrev CV := Chip × Vault

/-! ## SAs (R413) -/

/-- Key of an SA: direction 0 transmit, 1 receive. -/
def saKey (lp dir k an : Nat) : Nat := 64 * lp + 32 * dir + 4 * k + an

/-- Bits of MSC_CTL of a logical port. -/
def Chip.msc (c : Chip) (lp hi lo : Nat) : Nat := c.rdF (Reg.port_MSC_CTL (lp / 8) (lp % 8)) hi lo

/-- VALIDATE: 0 DISABLED, 1 CHECK, 2 STRICT. -/
def Chip.mscValidate (c : Chip) (lp : Nat) : Nat := min 2 (c.msc lp 29 28)

/-- CONF_OFF in bytes. -/
def Chip.confOff (c : Chip) (lp : Nat) : Nat :=
  match c.msc lp 21 20 with
  | 1 => 30
  | 2 => 50
  | _ => 0

/-- A pending bit of the port's MACsec block sets (R420, R421). -/
def Chip.mscPend (c : Chip) (lp i : Nat) : Chip :=
  c.pend (0x090 + lp / 8) (Reg.port_MSC_PEND (lp / 8)) (oneBit i) 24

/-- One of the counters IN_x_CNT. -/
def Chip.inX (c : Chip) (lp x : Nat) : Chip := c.count (Reg.port_IN_X_CNT (lp / 8) (lp % 8) x) 1

/-- An EtherType passes unprotected (R414). -/
def Chip.mscBypass (c : Chip) (lp et : Nat) : Bool :=
  let b := c.rd (Reg.port_BYPASS_ETYPE (lp / 8))
  et == 0x888E || (et != 0 && (et == fld b 15 0 || et == fld b 31 16))

/-- The largest overhead of the transmit SC, as R282 uses it (R414). -/
def Chip.mscOverhead (c : Chip) (lp : Nat) : Nat :=
  if lp < 1152 && c.msc lp 31 31 == 1 then (if c.msc lp 26 26 = 1 then 32 else 24) else 0

/-- The PN limit (R415). -/
def Chip.pnLimit (c : Chip) (lp : Nat) : Nat := if c.msc lp 24 24 = 1 then 2 ^ 64 - 1 else 2 ^ 32 - 1

/-- The 12-byte IV of a frame: SSCI and PN with the salt for XPN, SCI and PN otherwise (IEEE 802.1AE). -/
def mscIv (xpn : Bool) (sci : List Byte) (sa : Sa) (pn : Nat) : List Byte :=
  if xpn then Crypto.xorB (beBytes 4 sa.ssci ++ beBytes 8 pn) (slice sa.salt 0 12)
  else slice sci 0 8 ++ beBytes 4 (pn % 4294967296)

/-! ## Transmit (R414 to R416) -/

/-- A frame that finds no PN is dropped (R415). -/
def mscExhausted (cv : CV) (lp : Nat) : Option (List Byte) × CV :=
  (none, ((cv.1.inX lp 7).mscPend lp (16 + lp % 8), cv.2))

/-- The frame under an SA: SecTAG, secure data and ICV. -/
def Chip.protect (c : Chip) (lp : Nat) (sa : Sa) (body : List Byte) : List Byte :=
  let bitOf := fun i => c.msc lp i i
  let enc := bitOf 23
  let sci := wordBytesBE (c.rd (Reg.port_TX_SCI_LO (lp / 8) (lp % 8))) ++ wordBytesBE (c.rd (Reg.port_TX_SCI_HI (lp / 8) (lp % 8)))
  let data := body.drop 12
  let tci := bitOf 25 * 64 + bitOf 26 * 32 + enc * 12 + c.msc lp 1 0
  let tag := [0x88, 0xE5] ++ beBytes 1 tci ++ beBytes 1 (if data.length < 48 then data.length else 0) ++
    beBytes 4 (sa.pn % 4294967296) ++ (if bitOf 26 = 1 then sci else [])
  let off := if enc = 1 then min data.length (c.confOff lp) else data.length
  let aad := body.take 12 ++ tag ++ data.take off
  let (ct, icv) := Crypto.gcmEnc sa.key (mscIv (bitOf 24 == 1) sci sa sa.pn) aad (data.drop off)
  aad ++ ct ++ icv

/-- What leaves the port for a frame without its FCS, `none` when it is dropped MACSEC_FAIL (R414, R415). -/
def mscTransmit (cv : CV) (lp : Nat) (body : List Byte) : Option (List Byte) × CV :=
  let (c, v) := cv
  if 1152 ≤ lp ∨ c.msc lp 31 31 = 0 ∨ c.mscBypass lp (beNat (slice body 12 2)) then (some body, cv)
  else
    let key := saKey lp 0 0 (c.msc lp 1 0)
    match mget v.sas key with
    | none => mscExhausted cv lp
    | some sa =>
      let lim := c.pnLimit lp
      if lim < sa.pn then mscExhausted cv lp
      else
        let c1 := c.count64 (Reg.port_OUT_PROT_CNT_LO (lp / 8) (lp % 8)) (Reg.port_OUT_PROT_CNT_HI (lp / 8) (lp % 8)) 1
        let th := (c1.rd (Reg.port_PN_WARN_TH (lp / 8))).toNat
        let c2 := if lim - (sa.pn + 1) ≤ th ∧ th < lim - sa.pn then c1.mscPend lp (24 + lp % 8) else c1
        (some (c.protect lp sa body), (c2, { v with sas := mput v.sas key (some { sa with pn := sa.pn + 1 }) }))

/-! ## Receive (R417, R418) -/

/-- What the engine makes of a received frame at point 2. -/
inductive MscIn where
  /-- the frame goes on with these bytes, FCS included, and what its end must still decide -/
  | deliver (bytes : List Byte) (msc : Option MscRx)
  /-- dropped with reason MACSEC_FAIL before it is parsed -/
  | drop
  deriving DecidableEq, Repr

/-- The receive SC with an SCI among the enabled ones. -/
def Chip.rxScOf (c : Chip) (lp : Nat) (sci : List Byte) : Option Nat :=
  (List.range 4).find? fun k =>
    c.rdB (Reg.port_RXSC_CTL (lp / 8) (lp % 8) k) 31 &&
      wordBytesBE (c.rd (Reg.port_RXSC_SCI_LO (lp / 8) (lp % 8) k)) ++
        wordBytesBE (c.rd (Reg.port_RXSC_SCI_HI (lp / 8) (lp % 8) k)) == sci

/-- Upper half of a PN recovered from the lowest acceptable PN (IEEE 802.1AE, PRESUMED, log 25). -/
def recoverPn (xpn : Bool) (low pn32 : Nat) : Nat :=
  if !xpn then pn32
  else
    let l := low % 4294967296
    let up := low / 4294967296
    (if 2147483648 ≤ l ∧ pn32 < 2147483648 then (up + 1) % 4294967296 else up) * 4294967296 + pn32

/-- A frame delivered unverified is counted (R417). -/
def unverified (c : Chip) (lp : Nat) (b : List Byte) : MscIn × Chip := (.deliver b none, c.inX lp 8)

/-- Orders 3 to 6 of R417 once the tag is well formed. -/
def mscSecured (cv : CV) (lp : Nat) (b : List Byte) : MscIn × Chip :=
  let (c, v) := cv
  let tci := beNat (slice b 14 1)
  let cBit := tci.testBit 2
  let eBit := tci.testBit 3
  let scBit := tci.testBit 5
  let val := c.mscValidate lp
  let xpn := c.msc lp 24 24 == 1
  let hdr := if scBit then 28 else 20
  let sci := if scBit then slice b 20 8 else slice b 6 6 ++ [0, 1]
  let sc := if scBit || tci.testBit 6 then c.rxScOf lp sci
    else if c.rdB (Reg.port_RXSC_CTL (lp / 8) (lp % 8) 0) 31 then some 0 else none
  let miss := fun (x : Nat) => if val = 2 ∨ (val = 1 ∧ cBit) then (MscIn.drop, c.inX lp x) else unverified (c.inX lp x) lp b
  match sc with
  | none => miss 3
  | some k =>
    let key := saKey lp 1 k (tci % 4)
    match mget v.sas key with
    | none => miss 4
    | some sa =>
      let pn := recoverPn xpn sa.pn (beNat (slice b 16 4))
      if c.msc lp 27 27 = 1 ∧ pn < sa.pn then
        (if val = 0 then unverified (c.inX lp 2) lp b else (.drop, c.inX lp 2))
      else
        let data := slice b hdr (b.length - 20 - hdr)
        let icv := slice b (b.length - 20) 16
        let sci' := if scBit || tci.testBit 6 then sci
          else wordBytesBE (c.rd (Reg.port_RXSC_SCI_LO (lp / 8) (lp % 8) 0)) ++ wordBytesBE (c.rd (Reg.port_RXSC_SCI_HI (lp / 8) (lp % 8) 0))
        let off := if eBit then min data.length (c.confOff lp) else data.length
        let aad := b.take hdr ++ data.take off
        let (pt, ok) := Crypto.gcmDec sa.key (mscIv xpn sci' sa pn) aad (data.drop off) icv
        let body := b.take 12 ++ data.take off ++ pt
        (.deliver (body ++ fcsOf body)
          (some { sa := key, pn, icvOk := ok, dropOnFail := val == 2 || cBit, unchecked := val == 0 }), c)

/-- The engine at point 2 (R417): the SecTAG is read and the SA chosen; the ICV waits for the frame's end. -/
def mscReceive (cv : CV) (lp : Nat) (b : List Byte) : MscIn × Chip :=
  let c := cv.1
  let et := beNat (slice b 12 2)
  let tci := beNat (slice b 14 1)
  let val := c.mscValidate lp
  if 1152 ≤ lp ∨ c.msc lp 30 30 = 0 then (.deliver b none, c)
  else if et ≠ 0x88E5 then
    if c.mscBypass lp et then (.deliver b none, c)
    else if val = 2 then (.drop, c.inX lp 5) else (.deliver b none, c.inX lp 5)
  else if tci.testBit 7 ∨ (tci.testBit 5 ∧ tci.testBit 6) ∨ tci.testBit 4 ∨ 48 ≤ beNat (slice b 15 1) % 64 ∨
      (tci.testBit 2 ∧ !tci.testBit 3) then
    (if val = 0 then unverified (c.inX lp 6) lp b else (.drop, c.inX lp 6))
  else mscSecured cv lp b

/-- The engine at a frame's end (R417 orders 6 and 7, R418): whether the frame is dropped MACSEC_FAIL. -/
def mscEnd (cv : CV) (lp : Nat) (m : MscRx) : Bool × CV :=
  let (c, v) := cv
  if m.unchecked then (false, (c.inX lp 8, v))
  else if !m.icvOk then (m.dropOnFail, (c.inX lp (if m.dropOnFail then 1 else 0), v))
  else
    let ok := (c.count64 (Reg.port_IN_OK_CNT_LO (lp / 8) (lp % 8)) (Reg.port_IN_OK_CNT_HI (lp / 8) (lp % 8)) 1)
    match mget v.sas m.sa with
    | none => (false, (ok, v))
    | some sa =>
      if c.msc lp 27 27 = 0 then (false, (ok, v))
      else if m.pn < sa.pn then (true, ((c.inX lp 2).mscPend lp (8 + lp % 8), v))
      else
        let low := max sa.pn (m.pn + 1 - (c.rd (Reg.port_REPLAY_WIN (lp / 8) (lp % 8))).toNat)
        (false, (ok, { v with sas := mput v.sas m.sa (some { sa with pn := low }) }))

/-! ## Wrapped keys (R428) -/

/-- A wrapped key opened under a KEK: FIXED, starting counter and the 32 key bytes; `none` when the check
fails or the inner header differs from the clear one. -/
def openWrapped (kek blob : List Byte) : Option (Nat × Nat × List Byte) :=
  match Crypto.kwUnwrap kek (slice blob 8 56) with
  | some pt => if slice pt 0 8 = slice blob 0 8 then some (beNat (slice pt 4 4), beNat (slice pt 8 8), slice pt 16 32) else none
  | none => none

/-- A slot of the Vault. -/
def Vault.slot (v : Vault) (u s : Nat) : Option KeySlot := mget v.slots (16 * u + s)

/-- The KEK a clear header names. -/
def Vault.kek (v : Vault) (blob : List Byte) : Option (List Byte) :=
  match v.slot (beNat (slice blob 1 1)) (beNat (slice blob 2 1)) with
  | some s => if s.typ = 4 then some s.key else none
  | none => none

/-! ## SA commands (R419, R420) -/

/-- SA_KEY as 64 bytes. -/
def Chip.saKeyBytes (c : Chip) (p : Nat) : List Byte :=
  ((List.range 16).map fun n => wordBytesBE (c.rd (Reg.port_SA_KEY p n))).flatten

/-- SA_SALT as 12 bytes. -/
def Chip.saSalt (c : Chip) (p : Nat) : List Byte :=
  ((List.range 3).map fun n => wordBytesBE (c.rd (Reg.port_SA_SALT p n))).flatten

/-- A command completes: SA_KEY is cleared, the status stands, SA_DONE sets. -/
def saDone (cv : CV) (p st : Nat) (inUse : Bool) : CV :=
  let c1 := (List.range 16).foldl (fun c n => c.wr (Reg.port_SA_KEY p n) 0) cv.1
  ((c1.wr (Reg.port_SA_STATUS p) (wd (st + if inUse then 256 else 0))).mscPend (8 * p) 0, cv.2)

/-- The key that INSTALL loads, or the status that refuses it. -/
def saLoadKey (cv : CV) (agent p : Nat) (keysrc tx : Bool) (pn : Nat) : Nat × List Byte :=
  let (c, v) := cv
  let blob := c.saKeyBytes p
  if keysrc then
    if (blob.drop 32).any (· != 0) then (stBadArg, [])
    else if c.rdB Reg.vault_VLT_CFG 31 then (stDenied, [])
    else (stOk, blob.take 32)
  else
    let u := beNat (slice blob 1 1)
    if v.state = 2 then (stAborted, [])
    else if u < 32 ∧ c.rdF (Reg.vault_UP_OWNER u) 7 0 ≠ agent then (stDenied, [])
    else match v.kek blob with
      | none => (stIntegrity, [])
      | some kek =>
        match openWrapped kek blob with
        | none => (stIntegrity, [])
        | some (_, ctr, key) =>
          if beNat (slice blob 0 1) ≠ 1 then (stIntegrity, [])
          else if tx && decide (pn < ctr) then (stBadArg, [])
          else (stOk, key)

/-- INSTALL. -/
def saInstall (cv : CV) (agent p : Nat) (key : Nat) (keysrc tx : Bool) : CV :=
  let (c, v) := cv
  let pn := c.rd64 (Reg.port_SA_PN_LO p) (Reg.port_SA_PN_HI p)
  if (mget v.sas key).isSome then saDone cv p stBadArg false
  else
    match saLoadKey cv agent p keysrc tx pn with
    | (0, k) =>
      let sa : Sa := { key := k, salt := c.saSalt p, ssci := (c.rd (Reg.port_SA_SSCI p)).toNat, pn }
      saDone (c, { v with sas := mput v.sas key (some sa) }) p stOk false
    | (st, _) => saDone cv p st false

/-- READ. -/
def saRead (cv : CV) (p key : Nat) : CV :=
  let sa := mget cv.2.sas key
  let pn := match sa with | some s => s.pn | none => 0
  saDone (cv.1.wr64 (Reg.port_SA_PN_LO p) (Reg.port_SA_PN_HI p) pn, cv.2) p stOk sa.isSome

/-- RETIRE. -/
def saRetire (cv : CV) (p lp key an : Nat) (tx : Bool) : CV :=
  if tx && cv.1.msc lp 1 0 == an then saDone cv p stDenied false
  else saDone (cv.1, { cv.2 with sas := merase cv.2.sas key }) p stOk false

/-- A write of SA_CMD. -/
def saCmd (cv : CV) (agent p : Nat) (w : Word) : CV :=
  let cv1 := (cv.1.wr (Reg.port_SA_CMD p) (w &&& 0x0F173301), cv.2)
  let tx := !bit w 20
  let lp := 8 * p + fld w 18 16
  let key := saKey lp (if tx then 0 else 1) (if tx then 0 else fld w 13 12) (fld w 9 8)
  if !bit w 31 then cv1
  else match fld w 27 24 with
    | 1 => saInstall cv1 agent p key (bit w 0) tx
    | 2 => saRead cv1 p key
    | 3 => saRetire cv1 p lp key (fld w 9 8) tx
    | _ => saDone cv1 p stBadArg false

/-- SA_INUSE of a logical port. -/
def Vault.saInUse (v : Vault) (lp : Nat) : Nat :=
  (List.range 16).foldl (fun n i => if (mget v.sas (saKey lp 1 (i / 4) (i % 4))).isSome then n + 2 ^ i else n)
    ((List.range 4).foldl (fun n a => if (mget v.sas (saKey lp 0 0 a)).isSome then n + 2 ^ (16 + a) else n) 0)

/-- Every SA of a port is retired (R421). -/
def Vault.retirePort (v : Vault) (p : Nat) : Vault := { v with sas := mclear v.sas (512 * p) (512 * (p + 1)) }

/-- A write that would give two enabled receive SCs of a sub-port one SCI (R420). -/
def Chip.rxScClash (c : Chip) (p j : Nat) : Bool :=
  let sci := fun k => (c.rd (Reg.port_RXSC_SCI_LO p j k), c.rd (Reg.port_RXSC_SCI_HI p j k))
  let on := fun k => c.rdB (Reg.port_RXSC_CTL p j k) 31
  (List.range 4).any fun a => (List.range 4).any fun b => decide (a < b) && on a && on b && sci a == sci b

/-- A change of the device and the Vault made while the core clock runs. -/
def State.onCoreV (s : State) (f : CV → CV) : State :=
  if s.coreOn then
    let cv := f (s.chip, s.vault)
    { s with chip := cv.1, vault := cv.2 }
  else s

end Sys2Proof.Machine
end

