-- ==== Sys2Proof/Machine/Buffer.lean ====
section
/-!
DEFINITION. Machine/Buffer.lean: pools, occupancies, freeboard levels, buffer state words, frees, carving and
flow control (09_buffer_pools.md). Granting a request, which may push out copies, is in Alloc.lean.
-/
namespace Sys2Proof.Machine

/-! ## Pools (R228, R235, R237, R240) -/

/-- Bytes of a buffer of a pool. -/
def bufSize (p : Nat) : Nat := if p = 0 then 128 else if p = 1 then 512 else 2048

/-- A buffer in 128-byte units (R240). -/
def bufUnits (p : Nat) : Nat := bufSize p / 128

/-- Key of a buffer. -/
def bufKey (p n : Nat) : Nat := p * 4194304 + n

/-- Buffers carved for a pool. -/
def Chip.poolCap (c : Chip) (p : Nat) : Nat := c.rdF (Reg.bufmgr_POOL_CAP p) 21 0

/-- Allocated buffers of a pool that meet a test. -/
def Chip.bufCount (c : Chip) (p : Nat) (f : BufSt → Bool) : Nat :=
  (c.buf.bufs.filter fun kb => kb.1 / 4194304 == p && f kb.2).length

/-- Free buffers of a pool (POOL_FREE). -/
def Chip.poolFree (c : Chip) (p : Nat) : Nat := c.poolCap p - c.bufCount p (fun _ => true)

/-- Shared occupancy of a pool (R240). -/
def Chip.poolShared (c : Chip) (p : Nat) : Nat := c.bufCount p (·.hr.isNone)

/-- Buffers of a pool charged to headroom. -/
def Chip.poolHr (c : Chip) (p : Nat) : Nat := c.bufCount p (·.hr.isSome)

/-- Occupancy of a set of buffers in 128-byte units. -/
def Chip.unitsWhere (c : Chip) (f : BufSt → Bool) : Nat :=
  c.buf.bufs.foldl (fun n kb => if f kb.2 then n + bufUnits (kb.1 / 4194304) else n) 0

/-- Shared occupancy of freeboard group `g` (R240). -/
def Chip.groupShared (c : Chip) (g : Nat) : Nat := c.unitsWhere fun b => b.hr.isNone && b.grp == g

/-- HDRM_USE of a lossless slot (R247). -/
def Chip.hdrmUse (c : Chip) (lp k : Nat) : Nat := c.unitsWhere fun b => b.hr == some (lp, k)

/-- Freeboard group of an ingress logical port; an injected frame reads the setting of LP1152 (R152). -/
def Chip.fbGroup (c : Chip) (inLp : Nat) : Nat := c.rdF (Reg.bufmgr_FBG_MAP (min inLp 1152)) 4 0

/-- Owner tag of a frame's buffers (R237). -/
def bufTag (inLp : Nat) : Nat := if inLp < 1153 then 0x800 + inLp else 0x100 + 17 + (inLp - 1153)

/-- The free stores stand: EN is 1 and they are built (R229), and the block has no fatal fault and no soft reset
(R491). -/
def Chip.bmReady (c : Chip) : Bool :=
  c.enabled 0x221 && !c.buf.building && !c.faulted 0x221 && !c.inReset 0x221

/-- A buffer may not be granted while its bitmap word is rebuilt (R239). -/
def Chip.bmHeld (c : Chip) (p n : Nat) : Bool := c.buf.rebuilding.contains (bufKey p (n / 64 * 64))

/-- The lowest-numbered free buffer of a pool (R235). -/
def Chip.lowestFree (c : Chip) (p : Nat) : Option Nat :=
  let bound := min (c.poolCap p) (c.bufCount p (fun _ => true) + 64 * c.buf.rebuilding.length + 1)
  (List.range bound).find? fun n => (mget c.buf.bufs (bufKey p n)).isNone && !c.bmHeld p n

/-! ## Freeboard levels (R241, R242) -/

/-- Level bits of a pool (0 to 2) or of group `g` at 4 + g: bit l is level l. -/
def Chip.fbLevels (c : Chip) (i : Nat) : Nat := mrd 0 c.buf.levels i

/-- A level of a pool, or of a group at 4 + g, is asserted: 0 WARN, 1 PAUSE, 2 PUSH, 3 FLOOR. -/
def Chip.fbOn (c : Chip) (i l : Nat) : Bool := (c.fbLevels i).testBit l

/-- A level after a clock that ends at an occupancy (R241). -/
def levelAfter (set_ clr occ : Nat) (old : Bool) : Bool :=
  if set_ ≤ occ then true else if occ < min clr set_ then false else old

/-- The four levels after a clock. -/
def Chip.levelsAfter (c : Chip) (i occ : Nat) (set_ clr : Nat → Nat) : Nat :=
  (List.range 4).foldl (fun acc l =>
    acc + if levelAfter (c.rd (set_ l)).toNat (c.rd (clr l)).toNat occ (c.fbOn i l) then 2 ^ l else 0) 0

/-- The levels of a pool follow its occupancy; FB_WARN and FB_FLOOR set their events as they assert. -/
def Chip.fbPool (c : Chip) (p : Nat) : Chip :=
  let old := c.fbLevels p
  let new_ := c.levelsAfter p (c.poolShared p) (fun l => Reg.bufmgr_POOL_SET p l) (fun l => Reg.bufmgr_POOL_CLR p l)
  let c1 := { c with buf := { c.buf with levels := mset 0 c.buf.levels p new_ } }
  let c2 := if new_.testBit 0 && !old.testBit 0 then c1.raise 0x221 (20 + p) else c1
  if new_.testBit 3 && !old.testBit 3 then c2.raise 0x221 (16 + p) else c2

/-- The levels of a group follow its occupancy. -/
def Chip.fbGroupUpd (c : Chip) (g : Nat) : Chip :=
  if 31 < g then c
  else
    let old := c.fbLevels (4 + g)
    let new_ := c.levelsAfter (4 + g) (c.groupShared g) (fun l => Reg.bufmgr_FBG_SET g l) (fun l => Reg.bufmgr_FBG_CLR g l)
    let c1 := { c with buf := { c.buf with levels := mset 0 c.buf.levels (4 + g) new_ } }
    if new_.testBit 0 && !old.testBit 0 then c1.pend 0x221 Reg.bufmgr_FBG_WARN_PEND (oneBit g) 19 else c1

/-! ## State words and frees (R237 to R239) -/

/-- A rejected free (R238): kind 0 double, 1 foreign. -/
def Chip.freeErr (c : Chip) (kind p n req held tag : Nat) : Chip :=
  let c1 := (c.count Reg.bufmgr_FREE_ERR_CNT 1).raise 0x221 27
  if c1.rdB Reg.bufmgr_FREE_ERR_BUF 31 then c1
  else (c1.wr Reg.bufmgr_FREE_ERR_BUF (wd (0x80000000 + kind * 0x40000000 + p * 0x1000000 + n))).wr
    Reg.bufmgr_FREE_ERR_REQ (wd (req * 0x1000000 + held % 4096 * 4096 + tag % 4096))

/-- A state word is read: an uncorrectable error leaves ALLOC as the bitmap has it and makes the owner lost (R239). -/
def Chip.bufRead (c : Chip) (p n : Nat) : Chip :=
  match c.ecc 0x221 1 (bufKey p n) with
  | (.bad, c1) =>
    let lost := match mget c1.buf.bufs (bufKey p n) with
      | some b => { c1 with buf := { c1.buf with bufs := mput c1.buf.bufs (bufKey p n) (some { b with tag := 0xFFF }) } }
      | none => c1
    lost.rewrite 0x221 1 (bufKey p n)
  | (_, c1) => c1

/-- A free is presented (R238): whether it is accepted, and the device. -/
def Chip.freeBuf (c : Chip) (p n tag req : Nat) : Bool × Chip :=
  let c1 := c.bufRead p n
  match mget c1.buf.bufs (bufKey p n) with
  | none => (false, c1.freeErr 0 p n req 0 tag)
  | some b =>
    if b.tag ≠ tag ∧ b.tag ≠ 0xFFF then (false, c1.freeErr 1 p n req b.tag tag)
    else
      let c2 := { c1 with buf := { c1.buf with bufs := merase c1.buf.bufs (bufKey p n) } }
      (true, (c2.fbPool p).fbGroupUpd b.grp)

/-- Data of a list of buffers is read: whether an uncorrectable error is found (R239). -/
def Chip.readBufs (c : Chip) : List (Nat × Nat) → Bool × Chip
  | [] => (false, c)
  | (p, n) :: l =>
    match c.ecc 0x221 0 (bufKey p n) with
    | (.bad, c1) => (true, (c1.readBufs l).2)
    | (_, c1) => c1.readBufs l

/-- A list of buffers freed with one tag. -/
def Chip.freeAll (c : Chip) (tag req : Nat) : List (Nat × Nat) → Chip
  | [] => c
  | (p, n) :: l => (c.freeBuf p n tag req).2.freeAll tag req l

/-- A frame gives its buffers back and its waiting requests up. -/
def Chip.freeFrame (c : Chip) (fid req : Nat) : Chip :=
  match mget c.frames fid with
  | none => c
  | some f =>
    let c1 := c.freeAll (bufTag f.inLp) req f.bufs
    let c2 := c1.onFrame fid fun x => { x with bufs := [], hasDesc := false }
    { c2 with buf := { c2.buf with waiting := c2.buf.waiting.filter fun r => r.fid != fid } }

/-- A frame whose copies have all reached their fate gives its buffers up; it leaves the device once its last
byte has arrived (R267). -/
def Chip.reap (c : Chip) (fid req : Nat) : Chip :=
  match mget c.frames fid with
  | none => c
  | some f =>
    if f.pos = .done ∧ f.refs = 0 then
      let c1 := c.freeFrame fid req
      if f.ended then { c1 with frames := merase c1.frames fid } else c1
    else c

/-- Bytes of a frame that its buffers hold: all it has, once it has ended, or what the buffers granted so far
and the bytes told so far allow (log 24). -/
def Frame.held (f : Frame) : Nat := if f.ended then f.stored else min f.arrived f.stored

/-- A frame is dropped before point 6: one fate, and its buffers are freed (R258, R369). `eg` is the EG_LP the
drop is reported with. -/
def Chip.dropFrame (c : Chip) (k : Clk) (fid code eg req : Nat) : Chip :=
  match mget c.frames fid with
  | none => c
  | some f =>
    let r := f.reach
    let m := cputN f.carry 0x2CC 2 eg
    let c1 := (c.countDrop code f.inLp eg).fate k r m f.tsErr code f.bytes f.held
    let c2 := c1.onFrame fid fun x => { x with pos := .done, refs := 0, failed := some code, issued := [], results := [] }
    (c2.onReach r fun x => { x with hq := x.hq.filter (· != fid) }).reap fid req

/-! ## Lossless slots (R243, R244, R247) -/

/-- CLASS and EN of lossless slot `k` of a logical port. -/
def Chip.slotClass (c : Chip) (lp k : Nat) : Nat := c.rdF (Reg.port_FC_CTL (lp / 8) (lp % 8)) (14 + 4 * k) (12 + 4 * k)
def Chip.slotEn (c : Chip) (lp k : Nat) : Bool := c.rdB (Reg.port_FC_CTL (lp / 8) (lp % 8)) (15 + 4 * k)

/-- The lossless slot of a class: the lowest-numbered enabled one (R243). LP1152 and injected frames have none. -/
def Chip.slotOf (c : Chip) (lp cls : Nat) : Option Nat :=
  if lp < 1152 then (List.range 3).find? fun k => c.slotEn lp k && c.slotClass lp k == cls else none

/-- An enabled slot that no lower-numbered slot of its class disables (R243). -/
def Chip.slotActs (c : Chip) (lp k : Nat) : Bool := c.slotOf lp (c.slotClass lp k) == some k && c.slotEn lp k

/-- XOFF of a slot, as FC_STAT shows it. -/
def Chip.xoff (c : Chip) (lp k : Nat) : Bool := c.rdB (Reg.port_FC_STAT (lp / 8) (lp % 8)) (8 + k)

/-- Received pause stops a class (FC_STAT.RX_PAUSED). -/
def Chip.rxPaused (c : Chip) (lp cls : Nat) : Bool :=
  decide (lp < 1152) && c.rdB (Reg.port_FC_STAT (lp / 8) (lp % 8)) (cls % 8)

/-- What XOFF of a slot of a logical port follows (R244). -/
def Chip.xoffWanted (c : Chip) (lp : Nat) : Bool :=
  c.fbOn 0 1 || c.fbOn 1 1 || c.fbOn 2 1 || c.fbOn (4 + c.fbGroup lp) 1

/-! ## Flow-control frames (R245, R246) -/

/-- FC_CTL.MODE: 0 none, 1 pause, 2 PFC. -/
def Chip.fcMode (c : Chip) (lp : Nat) : Nat :=
  let m := c.rdF (Reg.port_FC_CTL (lp / 8) (lp % 8)) 31 30
  if m = 3 then 0 else m

/-- QUANTA as it acts. -/
def Chip.fcQuanta (c : Chip) (lp : Nat) : Nat := max 2 (c.rdF (Reg.port_FC_TIME (lp / 8) (lp % 8)) 31 16)

/-- Source address FC_SA, bytes 0 to 5. -/
def Chip.fcSa (c : Chip) (lp : Nat) : List Byte :=
  beBytes 2 (c.rdF (Reg.port_FC_SA_HI (lp / 8)) 15 0) ++ wordBytesBE (c.rd (Reg.port_FC_SA_LO (lp / 8)))

/-- A MAC Control frame: opcode and parameters, padded, with its FCS. -/
def Chip.macCtlFrame (c : Chip) (lp opcode : Nat) (params : List Byte) : List Byte :=
  let body := slice ([0x01, 0x80, 0xC2, 0x00, 0x00, 0x01] ++ c.fcSa lp ++ [0x88, 0x08] ++ beBytes 2 opcode ++ params) 0 60
  body ++ fcsOf body

/-- Classes with their times in a flow-control frame of the logical port: PFC names each class, pause one time. -/
def Chip.fcFrame (c : Chip) (lp : Nat) (times : List (Nat × Nat)) : List Byte :=
  if c.fcMode lp = 2 then
    let vec := times.foldl (fun v ct => v ||| 2 ^ ct.1) 0
    let slots := (List.range 8).map fun cl =>
      beBytes 2 (match times.find? (·.1 == cl) with | some ct => ct.2 | none => 0)
    c.macCtlFrame lp 0x0101 (beBytes 2 vec ++ slots.flatten)
  else c.macCtlFrame lp 0x0001 (beBytes 2 (times.foldl (fun v ct => max v ct.2) 0))

/-- A flow-control frame takes the wire at the next frame boundary, and P of its logical port moves by its wire time
(R245, R297). -/
def Chip.bumpP (c : Chip) (k : Clk) (lp n : Nat) : Chip :=
  let w : Int := (wireTime (c.lpRate lp) (n + 20) : Nat)
  let first : Int := (k.tod + c.rdF (Reg.port_PORT_TX_DLY (lp / 8) (lp % 8)) 23 0 * (nsU / 256) : Nat)
  { c with sw := { c.sw with
    wireFree := mset 0 c.sw.wireFree lp (mrd 0 c.sw.wireFree lp + w)
    wireEnd := mset 0 c.sw.wireEnd lp (max first (mrd 0 c.sw.wireEnd lp) + w) } }

/-- A flow-control frame is sent, while the link is UP (R245). -/
def Chip.sendFc (c : Chip) (k : Clk) (lp : Nat) (times : List (Nat × Nat)) : Chip :=
  if c.fcMode lp = 0 ∨ c.linkSt lp ≠ 7 then c
  else
    let b := c.fcFrame lp times
    ((c.emit (.flow lp b)).count (Reg.port_PFC_TX_CNT (lp / 8) (lp % 8)) 1).bumpP k lp b.length

/-- Slots of a logical port in XOFF, with the time they ask for. -/
def Chip.xoffTimes (c : Chip) (lp : Nat) : List (Nat × Nat) :=
  ((List.range 3).filter (c.xoff lp)).map fun k => (c.slotClass lp k, c.fcQuanta lp)

/-- XOFF of slots of a port changes and the port sends one frame for them (R244, R245): in MODE 1 the pause state is the
OR of the slots, so a frame goes only when that changes. -/
def Chip.xoffSet (c : Chip) (clk : Clk) (lp : Nat) (ks : List Nat) (on : Bool) : Chip :=
  let before := !(c.xoffTimes lp).isEmpty
  let c1 := ks.foldl (fun x k => x.wrF (Reg.port_FC_STAT (lp / 8) (lp % 8)) (8 + k) (8 + k) on.toNat) c
  let after := !(c1.xoffTimes lp).isEmpty
  if ks.isEmpty ∨ (c.fcMode lp = 1 && before == after) then c1
  else c1.sendFc clk lp (ks.map fun k => (c.slotClass lp k, if on then c.fcQuanta lp else 0))

/-- XOFF_CHANGE of a slot: it follows the freeboard levels (R244), or the quiesce of the device while
`quiesce` holds (R526). Slots of the port that change the same way change in the same clock and share the frame. -/
def Chip.xoffChange (c : Chip) (clk : Clk) (lp k : Nat) (quiesce : Bool) : Chip :=
  if 1152 ≤ lp ∨ 3 ≤ k then c
  else
    let want := fun j => c.slotActs lp j && (quiesce || c.xoffWanted lp)
    if c.xoff lp k = want k then c
    else c.xoffSet clk lp ((List.range 3).filter fun j => c.xoff lp j != want j && want j == want k) (want k)

/-- REFRESH quanta pass while XOFF lasts (R245). -/
def Chip.pfcRefresh (c : Chip) (k : Clk) (lp : Nat) : Chip :=
  if 1152 ≤ lp ∨ (c.xoffTimes lp).isEmpty then c else c.sendFc k lp (c.xoffTimes lp)

/-- A received MAC Control frame is consumed (R246): pause and PFC stop classes with RX_EN, any other opcode is
counted. -/
def Chip.macControl (c : Chip) (lp : Nat) (b : List Byte) : Chip :=
  let op := beNat (slice b 14 2)
  let st := Reg.port_FC_STAT (lp / 8) (lp % 8)
  let en := c.rdB (Reg.port_FC_CTL (lp / 8) (lp % 8)) 0
  if 1152 ≤ lp ∨ beNat (slice b 12 2) ≠ 0x8808 then c
  else if op = 0x0001 then
    let c1 := c.count (Reg.port_PFC_RX_CNT (lp / 8) (lp % 8)) 1
    if en then c1.wrF st 7 0 (if beNat (slice b 16 2) = 0 then 0 else 255) else c1
  else if op = 0x0101 then
    let c1 := c.count (Reg.port_PFC_RX_CNT (lp / 8) (lp % 8)) 1
    let vec := beNat (slice b 16 2)
    if en then
      (List.range 8).foldl (fun x cl =>
        if vec.testBit cl then x.wrF st cl cl (if beNat (slice b (18 + 2 * cl) 2) = 0 then 0 else 1) else x) c1
    else c1
  else c.count (Reg.port_MACCTL_OTHER_CNT (lp / 8) (lp % 8)) 1

/-- The pause time received for a class runs out (R246). -/
def Chip.pauseExpiry (c : Chip) (lp cls : Nat) : Chip :=
  if 1152 ≤ lp ∨ 8 ≤ cls then c else c.wrF (Reg.port_FC_STAT (lp / 8) (lp % 8)) cls cls 0

/-- A write of FC_CTL (R253): a slot disabled while in XOFF sends its XON, and later frames use the new value. -/
def Chip.fcCtlWrite (c : Chip) (clk : Clk) (p j : Nat) (v : Word) : Chip :=
  let lp := 8 * p + j
  let gone := (List.range 3).filter fun k => c.xoff lp k && !bit v (15 + 4 * k)
  let c1 := c.xoffSet clk lp gone false
  c1.wr (Reg.port_FC_CTL p j) v

/-! ## Carving (R229) -/

/-- CARVE_ERR_EV. -/
def Chip.carveErr (c : Chip) : Chip := c.raise 0x221 23

/-- A write of CARVE. -/
def Chip.carveWrite (c : Chip) (v : Word) : Chip :=
  if !c.rdB (Reg.PAGE_CTL 0x221) 0 && c.buf.bufs.isEmpty then c.wr Reg.bufmgr_CARVE v else c.carveErr

/-- EN of the buffer manager page is set: CARVE is checked and the build starts; `false` when it is refused. -/
def Chip.bmEnable (c : Chip) : Bool × Chip :=
  let w := c.rd Reg.bufmgr_CARVE
  let (u0, u1, u2) := (fld w 8 0, fld w 18 10, fld w 28 20)
  if u0 + u1 + u2 ≠ 320 ∨ u2 = 0 then (false, c.carveErr)
  else
    let c1 := ((c.wr (Reg.bufmgr_POOL_CAP 0) (wd (u0 * 8192))).wr (Reg.bufmgr_POOL_CAP 1) (wd (u1 * 2048))).wr
      (Reg.bufmgr_POOL_CAP 2) (wd (u2 * 512))
    (true, { c1 with buf := { c1.buf with building := true } })

/-- The free stores are built. -/
def Chip.bmBuilt (c : Chip) : Chip :=
  if c.rdB (Reg.PAGE_CTL 0x221) 0 then { c with buf := { c.buf with building := false } } else c

/-- A bitmap word is rebuilt from the ALLOC bits (R239). -/
def Chip.bitmapRebuilt (c : Chip) (p n : Nat) : Chip :=
  let w := bufKey p (n / 64 * 64)
  ({ c with buf := { c.buf with rebuilding := c.buf.rebuilding.filter (· != w) } }).rewrite 0x221 2 (w / 64)

/-! ## BUF_CMD (R251) -/

/-- BUF_CMD completes. -/
def Chip.bufDone (c : Chip) (st : Nat) : Chip := (c.wr Reg.bufmgr_BUF_STATUS (wd st)).raise 0x221 0

/-- A write of BUF_CMD. -/
def Chip.bufCmd (c : Chip) (agent : Nat) (v : Word) : Chip :=
  let c1 := c.wr Reg.bufmgr_BUF_CMD (v &&& 0x0FFFFFFF)
  let op := fld v 27 24
  let p := fld v 23 22
  let n := fld v 21 0
  if !bit v 31 then c1
  else if (op ≠ 1 ∧ op ≠ 2) ∨ p = 3 ∨ c1.poolCap p ≤ n then c1.bufDone stBadArg
  else if op = 1 then
    let c2 := c1.bufRead p n
    let w := match mget c2.buf.bufs (bufKey p n) with
      | some b => 0x1000 + b.tag
      | none => 0
    (c2.wr Reg.bufmgr_BUF_DATA (wd w)).bufDone stOk
  else
    match c1.freeBuf p n (c1.rdF Reg.bufmgr_BUF_DATA 11 0) agent with
    | (true, c2) => c2.bufDone stOk
    | (false, c2) => c2.bufDone stDenied

end Sys2Proof.Machine
end

