-- ==== Sys2Proof/Machine/Switch.lean ====
section
/-!
DEFINITION. Machine/Switch.lean: the switch core (10_switch_core_and_queues.md): copies and their fates,
admission, replication, push-out, port-down flush, PFC watchdog, and the queue and multicast commands.
-/
namespace Sys2Proof.Machine

/-! ## Queues (R256, R257) -/

/-- Global number of queue `k` of a logical port, or of host queue `k` for LP1152. -/
def queueNo (lp k : Nat) : Nat := if lp < 1152 then 20 * lp + k else 23040 + k

/-- Reach and local queue index of a queue (11_scheduling_and_shaping.md, Order of service). -/
def queueLoc (q : Nat) : Nat × Nat :=
  if q < 23040 then (q / 1440, q % 1440) else (0, 1440 + (q - 23040))

/-- UNITS of a copy's frame. -/
def Chip.copyUnits (c : Chip) (cid : Nat) : Nat :=
  match mget c.sw.copies cid with
  | some cp => match mget c.frames cp.fid with | some f => f.units | none => 0
  | none => 0

/-- QDEPTH of a queue (R257). -/
def Chip.qDepth (c : Chip) (q : Nat) : Nat := (c.queue q).entries.foldl (fun n cid => n + c.copyUnits cid) 0

/-- Depth a copy is tested against: the queue's entries and the shares of copies admitted and not yet linked (R258). -/
def Chip.qShare (c : Chip) (q : Nat) : Nat :=
  c.sw.copies.foldl (fun n kc => if kc.2.q == q && kc.2.pos == .linking then n + c.copyUnits kc.1 else n) (c.qDepth q)

/-- Queue entries in use: copies linked, or admitted and to be linked, until their fate. -/
def Chip.qentFree (c : Chip) : Nat := 2097152 - c.sw.copies.length

/-- Free descriptors (R255). -/
def Chip.descFree (c : Chip) : Nat := 1048576 - (c.frames.filter fun kf => kf.2.hasDesc).length

/-- A copy drops out of its queue; an emptied queue has DEFICIT 0 (R284). -/
def Chip.unlink (c : Chip) (cid q : Nat) : Chip :=
  if (c.queue q).entries.contains cid then
    let c1 := c.onQueue q fun x => { x with entries := x.entries.filter (· != cid) }
    let (r, l) := queueLoc q
    if (c1.queue q).entries.isEmpty then c1.wr (Reg.sched_DEFICIT r l) 0 else c1
  else c

/-! ## Spill space (R316) -/

/-- Cells of a spilled copy are released; a page with none left is free, and a queue whose write point was in
it starts a new one. -/
def Chip.spillFree (c : Chip) (q : Nat) : List (Nat × Nat × Nat) → Chip
  | [] => c
  | (pg, _, n) :: l =>
    let left := match mget c.flm.pages pg with | some x => x.2 - n | none => 0
    let pages := mput c.flm.pages pg (if left = 0 then none else some (q, left))
    let ctx := if left = 0 ∧ (mget c.flm.ctx q).any (fun w => w / 64 == pg) then merase c.flm.ctx q else c.flm.ctx
    ({ c with flm := { c.flm with pages, ctx } }).spillFree q l

/-- The spill space of a copy is released. -/
def Chip.spillRelease (c : Chip) (cp : Copy) : Chip :=
  match cp.spill with
  | .written rs => c.spillFree cp.q rs
  | .returning rs => c.spillFree cp.q rs
  | _ => c

/-! ## Fates of copies (R261, R263, R267, R272) -/

/-- Requester code of the free that follows a copy's end (R238). -/
def Copy.freeReq (cp : Copy) : Nat := if cp.begun then 64 + reachOf cp.lp else 80

/-- The stored frame of a copy as received, and how many bytes of it are held. -/
def Chip.copyFate (c : Chip) (k : Clk) (cp : Copy) (code : Nat) : Chip :=
  match mget c.frames cp.fid with
  | some f => c.fate k (reachOf cp.lp) cp.carry f.tsErr code f.bytes f.held
  | none => c

/-- A copy reaches its fate: it leaves its queue, and its frame is freed with its last copy. -/
def Chip.endCopy (c : Chip) (k : Clk) (cid code : Nat) : Chip :=
  match mget c.sw.copies cid with
  | none => c
  | some cp =>
    let c1 := ((c.unlink cid cp.q).spillRelease cp).copyFate k cp code
    let sending := if mget c1.sw.sending cp.lp = some cid then merase c1.sw.sending cp.lp else c1.sw.sending
    let hold := c1.sw.hold.filter (· != cid)
    let c2 := { c1 with sw := { c1.sw with copies := merase c1.sw.copies cid, sending, hold } }
    let c3 := c2.onFrame cp.fid fun f => { f with refs := f.refs - 1 }
    c3.reap cp.fid cp.freeReq

/-- A copy is dropped with a code; `onQueue` when the drop counts on its queue (R274 QDATA[3]). -/
def Chip.dropCopy (c : Chip) (k : Clk) (cid code : Nat) (onQueue : Bool) : Chip :=
  match mget c.sw.copies cid with
  | none => c
  | some cp =>
    let inLp := match mget c.frames cp.fid with | some f => f.inLp | none => 0x7FF
    let c1 := c.countDrop code inLp cp.lp
    let c2 := if onQueue then c1.onQueue cp.q fun x => { x with drops := clampTo 0xFFFFFFFF (x.drops + 1) } else c1
    c2.endCopy k cid code

/-- Bytes of a copy in transmission that its MAC has sent, rounded up to 64, as the stomp ends it (R263): what of its wire
time is not still to come, counted at the MAC, PORT_TX_DLY before the reference plane. -/
def Chip.sentBytes (c : Chip) (k : Clk) (cp : Copy) : Nat :=
  let rate := c.lpRate cp.lp
  let dly : Nat := c.rdF (Reg.port_PORT_TX_DLY (cp.lp / 8) (cp.lp % 8)) 23 0 * (nsU / 256)
  let rest : Int := if cp.pos == .suspended then cp.left else mrd 0 c.sw.wireEnd cp.lp - (k.tod + dly : Nat)
  let d := ((wireTime rate (cp.out.length + 20) : Int) - rest).toNat
  min (cp.out.length - 4) ((d * rate / (8 * nsU) + 64) / 64 * 64)

/-- A copy that has begun transmission is stomped (R263). -/
def Chip.stompCopy (c : Chip) (k : Clk) (cid code : Nat) : Chip :=
  match mget c.sw.copies cid with
  | none => c
  | some cp =>
    let body := cp.out.take (c.sentBytes k cp)
    let c1 := ((c.emit (.frame cp.lp (stompedFrame body) true)).count Reg.switch_STOMP_CNT 1).raise 0x220 22
    c1.dropCopy k cid code false

/-- A copy is in transmission, or suspended in it. -/
def Copy.onWire (cp : Copy) : Bool := cp.pos == .sending || cp.pos == .suspended

/-- A copy ends with a code wherever it is: stomped if in transmission, dropped otherwise. -/
def Chip.killCopy (c : Chip) (k : Clk) (cid code : Nat) (onQueue : Bool) : Chip :=
  match mget c.sw.copies cid with
  | none => c
  | some cp => if cp.onWire then c.stompCopy k cid code else c.dropCopy k cid code onQueue

/-- Every copy that meets a test ends with a code. -/
def Chip.killCopies (c : Chip) (k : Clk) (f : Copy → Bool) (code : Nat) (onQueue : Bool) : Chip :=
  ((c.sw.copies.filter fun kc => f kc.2).map (·.1)).foldl (fun x cid => x.killCopy k cid code onQueue) c

/-- A frame fails (R261, R263): copies that have not begun are dropped, copies in transmission are stomped; a
copy selected and not yet in transmission meets the failure at its start. Before point 6 the failure waits for
admission. The first failure stands. -/
def Chip.failFrame (c : Chip) (k : Clk) (fid code : Nat) : Chip :=
  match mget c.frames fid with
  | none => c
  | some f =>
    if f.failed.isSome then c
    else
      let c1 := c.onFrame fid fun x => { x with failed := some code }
      c1.killCopies k (fun cp => cp.fid == fid && (cp.onWire || !cp.begun)) code false

/-! ## Admission (R258 to R260, R262) -/

/-- The PFC watchdog has stormed the slot of a class on a port (R271). -/
def Chip.stormed (c : Chip) (lp cls : Nat) : Bool :=
  match c.slotOf lp cls with
  | some k => c.rdB (Reg.switch_PSTAT lp) (16 + k)
  | none => false

/-- The watchdog is dropping a class of a port (R271, ACTION 0). -/
def Chip.wdDrops (c : Chip) (lp cls : Nat) : Bool := !c.rdB Reg.switch_WD_CTL 30 && c.stormed lp cls

/-- The queue holds a copy of a class. -/
def Chip.queueHas (c : Chip) (q cls : Nat) : Bool :=
  (c.queue q).entries.any fun cid => match mget c.sw.copies cid with
    | some cp => cClass cp.carry % 8 == cls
    | none => false

/-- The tests of R260 for one copy: 0 when it is admitted. -/
def Chip.admitCode (c : Chip) (f : Frame) (lp q : Nat) : Nat :=
  let need := if f.hasDesc then 0 else 1
  let d := c.descFree
  let e := c.qentFree
  if lp < 1152 ∧ c.wdDrops lp f.cls ∧ c.queueHas q f.cls then drWatchdog
  else if (c.queue q).qmax < c.qShare q + f.units then drQueue
  else if e < 1 ∨ d < need then drNoDesc
  else if !f.lossless && (decide (d - need < c.rdF Reg.switch_DESC_RSV 20 0) || decide (e - 1 < c.rdF Reg.switch_QENT_RSV 21 0)) then
    drNoDesc
  else 0

/-- A copy is admitted cut-through eligible (R259, R262). -/
def Chip.cutThrough (c : Chip) (f : Frame) (lp : Nat) : Bool :=
  c.rdB Reg.switch_CORE_CTL 0 && c.rdB (Reg.switch_PCFG lp) 0 && !cNoCut f.carry && decide (f.inLp < 1152) &&
    decide (lp < 1152) && decide (c.lpRate lp ≤ c.lpRate f.inLp) && !f.complete

/-- Per-copy fields of the trace record at point 6 (R367, R368). -/
def copyTrace (m : SMap Byte) (eg cls kq : Nat) (ct level : Bool) : SMap Byte :=
  let t := tFlags m
  let t1 := if ct then t ||| 8 else t
  let t2 := if level then t1 ||| 16 else t1
  cputN (cputN (cputN m 0x2CC 2 eg) 0x2CF 1 (cls * 32 + kq)) 0x2D2 2 t2

/-- One copy is tested and admitted, or dropped (R260). -/
def Chip.tryCopy (c : Chip) (k : Clk) (fid lp kq : Nat) (trap : Bool) (level : Option (Nat × Int)) : Chip :=
  match mget c.frames fid with
  | none => c
  | some f =>
    let q := queueNo lp kq
    let ct := !trap && c.cutThrough f lp
    let eg := if trap && cHostOnly f.carry then 0x7FF else lp
    let m := copyTrace f.carry eg f.cls kq ct level.isSome
    let code := c.admitCode f lp q
    if code ≠ 0 then
      let c1 := if code = drNoDesc then c.raise 0x220 23 else c
      let c2 := (c1.countDrop code f.inLp lp).onQueue q fun x => { x with drops := clampTo 0xFFFFFFFF (x.drops + 1) }
      c2.fate k (reachOf lp) m f.tsErr code f.bytes f.held
    else
      let cp : Copy := { fid, lp, q, trap, ct, carry := m, level }
      let c1 := c.onFrame fid fun x => { x with refs := x.refs + 1, hasDesc := true }
      { c1 with sw := { c1.sw with copies := mput c1.sw.copies c1.sw.nextCopy (some cp), nextCopy := c1.sw.nextCopy + 1 } }

/-- Copies that would have gone to a port are dropped at admission (R258 orders 4, 5; R267). -/
def Chip.refuse (c : Chip) (k : Clk) (f : Frame) (code lp : Nat) : Chip :=
  (c.countDrop code f.inLp lp).fate k (reachOf lp) (cputN f.carry 0x2CC 2 lp) f.tsErr code f.bytes f.held

/-- Signed value of a field of `n` bits. -/
def signed (n v : Nat) : Int := if 2 ^ (n - 1) ≤ v then (v : Int) - (2 ^ n : Nat) else v

/-- T_dep of a level copy (R354, R355), from the bank of the frame's epoch in the egress reach. -/
def Chip.levelTarget (c : Chip) (f : Frame) (g lp : Nat) : Int :=
  let r := reachOf lp
  let b := c.bankOf (cEpoch f.carry)
  let prof := c.rdEF b (Reg.level_LR_GMAP r (g / 8)) (4 * (g % 8) + 3) (4 * (g % 8))
  let d := max 1600 (min 80000 (c.rdEF b (Reg.level_LR_PROF r prof) 16 0))
  let s := max (-800) (min 800 (signed 12 (c.rdEF b (Reg.level_LR_SKEW r (lp % 72)) 11 0)))
  (f.tIn : Int) + ((d : Int) + s) * (qU : Nat)

/-- A release profile, skew or map word that a level copy reads holds an uncorrectable error (R366). Memory 2 of the page
numbers profiles from 0, skews from 16 and map words from 128, bank B above 4,096 (log 23). -/
def Chip.levelBad (c : Chip) (f : Frame) (g lp : Nat) : Bool × Chip :=
  let r := reachOf lp
  let b := c.bankOf (cEpoch f.carry)
  let base := if b then 4096 else 0
  let prof := c.rdEF b (Reg.level_LR_GMAP r (g / 8)) (4 * (g % 8) + 3) (4 * (g % 8))
  [128 + g / 8, prof, 16 + lp % 72].foldl (fun (acc : Bool × Chip) w =>
    match acc.2.ecc (Reg.pg_level r) 2 (base + w) with
    | (.bad, c1) => (true, c1)
    | (_, c1) => (acc.1, c1)) (false, c)

/-- Replication of a frame onto one member (R267). -/
def Chip.member (c : Chip) (k : Clk) (fid g : Nat) (desc : Word) (i : Nat) : Chip :=
  match mget c.frames fid with
  | none => c
  | some f =>
    match c.ecc 0x222 1 i with
    | (.bad, c1) => c1.refuse k f drData 0x7FF
    | (_, c1) =>
      let w := mrd 0 c1.sw.members i
      let lp := fld w 10 0
      if !bit w 31 then c1
      else if lp = f.inLp ∧ !bit desc 29 then c1.count Reg.mcast_MC_PRUNE_CNT 1
      else if !c1.lpActive lp then c1.refuse k f drInactive lp
      else if !c1.fwdUp lp then c1.refuse k f drPortDown lp
      else
        let lvl := bit desc 30 && c1.rdB (Reg.PAGE_CTL (Reg.pg_level (reachOf lp))) 0
        let (late, c2) := if lvl then c1.levelBad f g lp else (false, c1)
        if late then c2.refuse k f drLevel lp
        else c2.tryCopy k fid lp (16 + fld w 17 16) false (if lvl then some (g, c2.levelTarget f g lp) else none)

/-- FB_FLOOR of the frame's pool or group refuses it (R242, R258 order 7). -/
def Chip.floorRefuses (c : Chip) (f : Frame) : Bool :=
  let pool := match f.bufs with | b :: _ => c.fbOn b.1 3 | [] => false
  f.headroom.isNone && decide (f.cls < c.rdF Reg.bufmgr_BM_CFG 18 16) && (pool || c.fbOn (4 + c.fbGroup f.inLp) 3)

/-- Host queue of a trapped frame (R259). -/
def Chip.trapQueue (c : Chip) (m : SMap Byte) : Nat :=
  let t := (cbyte m 0x019).toNat / 16
  c.rdF (if t < 8 then Reg.switch_HOSTQ_MAP 0 else Reg.switch_HOSTQ_MAP 1) (4 * (t % 8) + 3) (4 * (t % 8))

/-- Orders 3 to 8 of R258 for the copies other than the host copy. -/
def Chip.admitForward (c : Chip) (k : Clk) (fid : Nat) (f : Frame) : Chip :=
  let m := f.carry
  let lp := cEgLp m
  let floor := fun (c : Chip) (eg : Nat) => ((c.refuse k f drFloor eg).count Reg.bufmgr_FLOOR_DROP_CNT 1)
  match cFwdKind m with
  | 1 =>
    if 1152 < lp ∨ !c.lpActive lp then c.refuse k f drInactive lp
    else if !c.fwdUp lp then c.refuse k f drPortDown lp
    else if c.floorRefuses f then floor c lp
    else c.tryCopy k fid lp (cQueue m % 16) false none
  | 2 =>
    let g := cMcGroup m
    if 16383 < g then c.refuse k f drMcGroup 0x7FF
    else
      match c.ecc 0x222 0 g with
      | (.bad, c1) => c1.refuse k f drMcGroup 0x7FF
      | (_, c1) =>
        let d := mrd 0 c1.sw.groups g
        if !bit d 31 then c1.refuse k f drMcGroup 0x7FF
        else if c1.floorRefuses f then floor c1 0x7FF
        else (List.range (fld d 27 17)).foldl (fun x i => x.member k fid g d (fld d 16 0 + i)) c1
  | _ => if cToHost m then c else c.refuse k f drNoForward 0x7FF

/-! ## Push-out (R264) -/

/-- The tail copy of a queue makes it a candidate for a pushing frame of class `cls` in group `g`. -/
def Chip.candidate (c : Chip) (cls g : Nat) (pool : Option Nat) (kq : Nat × Queue) : Option (Nat × Nat × Nat × Nat) :=
  match kq.2.entries.getLast? with
  | none => none
  | some cid =>
    match mget c.sw.copies cid with
    | none => none
    | some cp =>
      match mget c.frames cp.fid with
      | none => none
      | some f =>
        let cl := cClass cp.carry % 8
        let holds : Bool := match pool with | some p => f.bufs.any (fun b => b.1 == p) | none => true
        if kq.1 < 23040 ∧ kq.1 % 20 < 16 ∧ c.fbGroup f.inLp = g ∧ cl < cls ∧ !f.lossless ∧ !cp.begun ∧
            f.refs = 1 ∧ cp.spill = .none ∧ holds then
          some (cl, c.qDepth kq.1, kq.1, cid)
        else none

/-- Candidate `x` goes before `y`: the lower tail CLASS, then the greater QDEPTH, then the lower queue number. -/
def victimBefore (x y : Nat × Nat × Nat × Nat) : Bool :=
  decide (x.1 < y.1) || (x.1 == y.1 && (decide (y.2.1 < x.2.1) || (x.2.1 == y.2.1 && decide (x.2.2.1 < y.2.2.1))))

/-- The victim queue's tail copy. -/
def Chip.victim (c : Chip) (cls g : Nat) (pool : Option Nat) : Option Nat :=
  ((c.sw.queues.filterMap (c.candidate cls g pool)).foldl (fun best x =>
    match best with
    | none => some x
    | some y => if victimBefore x y then some x else best) none).map fun x => x.2.2.2

/-- What an eviction frees: buffers of the pool asked for, or units. -/
def Chip.victimGain (c : Chip) (cid : Nat) (pool : Option Nat) : Nat :=
  match mget c.sw.copies cid with
  | none => 0
  | some cp =>
    match mget c.frames cp.fid with
    | none => 0
    | some f => match pool with
      | some p => (f.bufs.filter fun b => b.1 == p).length
      | none => f.units

/-- Push-out evicts copies until `need` is freed, four at most, or no candidate remains. -/
def Chip.pushOut (c : Chip) (k : Clk) (cls g : Nat) (pool : Option Nat) (need : Nat) : Nat → Nat → Chip
  | 0, _ => c
  | n + 1, freed =>
    if need ≤ freed then c
    else match c.victim cls g pool with
      | none => c
      | some cid =>
        (c.dropCopy k cid drPushed true).pushOut k cls g pool need n (freed + c.victimGain cid pool)

/-- CORE_CTL.PUSH_EN. -/
def Chip.pushEn (c : Chip) : Bool := c.rdB Reg.switch_CORE_CTL 1

/-- PUSH_CLASS. -/
def Chip.pushClass (c : Chip) : Nat := c.rdF Reg.bufmgr_BM_CFG 26 24

/-- Push-out at point 6, after the frame's own copies have been linked or refused (R264). -/
def Chip.pushAtAdmit (c : Chip) (k : Clk) (fid : Nat) : Chip :=
  match mget c.frames fid with
  | none => c
  | some f =>
    let g := c.fbGroup f.inLp
    let pool := match f.bufs with | b :: _ => c.fbOn b.1 2 | [] => false
    if f.refs ≠ 0 && (pool || c.fbOn (4 + g) 2) && decide (c.pushClass ≤ f.cls) && c.pushEn then
      c.pushOut k f.cls g none f.units 4 0
    else c

/-- Admission of a frame at point 6 (R258). -/
def Chip.admitFrame (c : Chip) (k : Clk) (fid : Nat) : Chip :=
  match mget c.frames fid with
  | none => c
  | some f0 =>
    if f0.pos = .done then c
    else
      let m := f0.carry
      let cls := cClass m % 8
      let f := { f0 with cls, lossless := f0.headroom.isSome || (c.slotOf f0.inLp cls).isSome, pos := .done }
      let c1 := c.onFrame fid fun _ => f
      if cDrop m ≠ 0 then c1.dropFrame k fid (cDrop m) 0x7FF 80
      else if c1.faulted 0x220 || c1.inReset 0x220 then c1.dropFrame k fid drData 0x7FF 80
      else
        let hostQ := c1.trapQueue m
        let c2 := if cHostOnly m || cToHost m then c1.tryCopy k fid 1152 hostQ true none else c1
        let c3 := if cHostOnly m then c2 else c2.admitForward k fid f
        let c4 := c3.pushAtAdmit k fid
        let c5 := match f.failed with
          | some code => c4.killCopies k (fun cp => cp.fid == fid) code false
          | none => c4
        c5.reap fid 80

/-! ## Linking (R258, R313) -/

/-- The spill profile of a queue, when the queue is spill-enabled (R312). -/
def Chip.spillProf (c : Chip) (q : Nat) : Option Nat :=
  let lp := q / 20
  let w := c.rd (Reg.spill_SPILL_PROF lp)
  if q < 23040 && decide (4 ≤ q % 20) && decide (q % 20 < 16) && c.rdB Reg.spill_SPILL_CTL 0 && bit w 31 && bit w (q % 20 - 4) then
    some (fld w 18 16)
  else none

/-- On-die depth of a queue: UNITS of its copies that hold buffers (R313). -/
def Chip.onDie (c : Chip) (q : Nat) : Nat :=
  (c.queue q).entries.foldl (fun n cid =>
    match mget c.sw.copies cid with
    | some cp => match cp.spill with | .written _ => n | _ => n + c.copyUnits cid
    | none => n) 0

/-- Copies of a queue's spilled segment. -/
def Chip.segment (c : Chip) (q : Nat) : List Nat :=
  (c.queue q).entries.filter fun cid => match mget c.sw.copies cid with
    | some cp => cp.spill != .none
    | none => false

/-- Spill contexts in use (SPILL_STAT). -/
def Chip.spillCtxs (c : Chip) : Nat := (c.sw.queues.filter fun kq => !(c.segment kq.1).isEmpty).length

/-- Whether a copy about to be linked is marked for spill (R313, R316, R474), and the device. -/
def Chip.markSpill (c : Chip) (cp : Copy) : Bool × Chip :=
  match c.spillProf cp.q, mget c.frames cp.fid with
  | some m, some f =>
    if f.lossless ∨ f.refs ≠ 1 ∨ c.pwr.flumeHot then (false, c)
    else if !(c.segment cp.q).isEmpty then (!c.flm.full.contains cp.q, c)
    else if c.onDie cp.q < c.rdF (Reg.spill_SPILL_TH_HI m) 23 0 then (false, c)
    else if 8192 ≤ c.spillCtxs then (false, (c.count Reg.spill_SPILL_CTX_CNT 1).raise 0x241 26)
    else (true, { c with flm := { c.flm with full := c.flm.full.filter (· != cp.q) } })
  | _, _ => (false, c)

/-- A copy is linked at the end of step 8, or dropped if its port has left forwarding up (R258, R269 step 2). -/
def Chip.linkCopy (c : Chip) (k : Clk) (cid : Nat) : Chip :=
  match mget c.sw.copies cid with
  | none => c
  | some cp =>
    if !c.fwdUp cp.lp then c.dropCopy k cid drPortDown true
    else
      let (mark, c1) := c.markSpill cp
      let m := cputN cp.carry 0x2DC 4 (c1.qDepth cp.q % 16777216)
      let c2 := c1.onCopy cid fun x =>
        { x with pos := .queued, linkTime := k.tod, carry := m, spill := if mark then .marked else .none }
      c2.onQueue cp.q fun x => { x with entries := x.entries ++ [cid] }

/-- The oldest admitted copy that is not yet linked. -/
def Chip.toLink (c : Chip) : Option Nat := (c.sw.copies.find? fun kc => kc.2.pos == .linking).map (·.1)

/-! ## Port-down flush (R269) -/

/-- A logical port leaves forwarding up: FLUSHING sets and a copy in transmission is stomped. -/
def Chip.portDown (c : Chip) (k : Clk) (lp : Nat) : Chip :=
  (c.wrF (Reg.switch_PSTAT lp) 8 8 1).killCopies k (fun cp => cp.lp == lp && cp.onWire) drPortDown false

/-- The flush engine has unlinked every entry of the port (R269 steps 4 to 6). -/
def Chip.flushDone (c : Chip) (k : Clk) (lp : Nat) : Chip :=
  if 1152 ≤ lp ∨ !c.flushing lp then c
  else
    let c1 := c.killCopies k (fun cp => cp.lp == lp && cp.pos == .queued) drPortDown true
    let c2 := c1.killCopies k (fun cp => cp.lp == lp && cp.begun) drPortDown false
    (c2.wrF (Reg.switch_PSTAT lp) 8 8 0).pend 0x220 (Reg.switch_FLUSH_DONE_PEND (lp / 32)) (oneBit (lp % 32)) 27

/-! ## PFC watchdog (R271) -/

/-- A slot's timer reaches WD_DETECT. -/
def Chip.wdStorm (c : Chip) (lp k : Nat) : Chip :=
  let cls := c.slotClass lp k
  let queued := c.sw.copies.any fun kc => kc.2.lp == lp && kc.2.pos == .queued && cClass kc.2.carry % 8 == cls
  if 1152 ≤ lp ∨ 3 ≤ k ∨ !c.rdB (Reg.switch_PCFG lp) 1 ∨ !c.slotActs lp k ∨ !c.rxPaused lp cls ∨ !queued ∨
      c.rdB (Reg.switch_PSTAT lp) (16 + k) then c
  else
    ((c.wrF (Reg.switch_PSTAT lp) (16 + k) (16 + k) 1).count Reg.switch_WD_STORM_CNT 1).pend 0x220
      (Reg.switch_WD_PEND (lp / 32)) (oneBit (lp % 32)) 26

/-- A stormed slot returns to normal. -/
def Chip.wdReturn (c : Chip) (lp k : Nat) : Chip :=
  if 1152 ≤ lp ∨ 3 ≤ k ∨ !c.rdB (Reg.switch_PSTAT lp) (16 + k) then c
  else (c.wrF (Reg.switch_PSTAT lp) (16 + k) (16 + k) 0).raise 0x220 25

/-- WD_RESTORE ms pass without a PFC frame for the class; a WD_RESTORE of 0 leaves the return to the host. -/
def Chip.wdRestore (c : Chip) (lp k : Nat) : Chip :=
  if c.rdF Reg.switch_WD_TIME 31 16 = 0 then c else c.wdReturn lp k

/-- A write of WD_CLR. -/
def Chip.wdClr (c : Chip) (v : Word) : Chip := c.wdReturn (fld v 10 0) (fld v 17 16)

/-! ## QCMD and MC_CMD (R275, R277, R278) -/

/-- QCMD completes. -/
def Chip.qDone (c : Chip) (st : Nat) : Chip := (c.wr Reg.switch_QSTATUS (wd st)).raise 0x220 0

/-- QDATA[0] to QDATA[3] loaded from a queue. -/
def Chip.qShow (c : Chip) (q : Nat) : Chip :=
  let x := c.queue q
  (((c.wr Reg.switch_QDATA0 (wd x.qmax)).wr Reg.switch_QDATA1 (wd (c.qDepth q % 16777216))).wr Reg.switch_QDATA2
    (wd x.entries.length)).wr Reg.switch_QDATA3 (wd x.drops)

/-- A write of QCMD. -/
def Chip.qCmd (c : Chip) (v : Word) : Chip :=
  let c1 := c.wr Reg.switch_QCMD (v &&& 0x0F007FFF)
  let op := fld v 27 24
  let q := fld v 14 0
  let qmax := c1.rdF Reg.switch_QDATA0 23 0
  if !bit v 31 then c1
  else if op < 1 ∨ 3 < op ∨ 23055 < q ∨ (op = 2 ∧ 0x800000 < qmax) then c1.qDone stBadArg
  else if op = 1 then (c1.qShow q).qDone stOk
  else if op = 2 then (c1.onQueue q fun x => { x with qmax }).qDone stOk
  else ((c1.qShow q).onQueue q fun x => { x with drops := 0 }).qDone stOk

/-- MC_CMD completes. -/
def Chip.mcDone (c : Chip) (st : Nat) : Chip := (c.wr Reg.mcast_MC_STATUS (wd st)).raise 0x222 0

/-- A word an MC_CMD write may not store (R278). -/
def mcBad (group : Bool) (i : Nat) (d : Word) : Bool :=
  if group then decide (16383 < i) || bit d 28 || decide (1153 < fld d 27 17) || decide (131072 < fld d 16 0 + fld d 27 17)
  else fld d 30 18 != 0 || fld d 15 11 != 0 || decide (1151 < fld d 10 0)

/-- The BEFORE image of a word and its index (R445). -/
def mcImage (w : Word) (i : Nat) : List Byte := wordBytesBE w ++ beBytes 4 i ++ List.replicate 56 0

/-- WRITE_GROUP and WRITE_MEMBER, journalled (R278, R437). -/
def Chip.mcWrite (c : Chip) (k : Clk) (agent : Nat) (group : Bool) (i : Nat) : Chip :=
  let d := c.rd Reg.mcast_MC_DATA
  if mcBad group i d then c.mcDone stBadArg
  else
    match c.jnlTake agent with
    | (0, held, c1) =>
      let old := if group then mrd 0 c1.sw.groups i else mrd 0 c1.sw.members i
      let c2 := if group then { c1 with sw := { c1.sw with groups := mset 0 c1.sw.groups i d } }
        else { c1 with sw := { c1.sw with members := mset 0 c1.sw.members i d } }
      let c3 := c2.rewrite 0x222 (if group then 0 else 1) i
      (c3.jnlAdd k held 6 (if group then 1 else 3) agent true (mcImage old i)).mcDone stOk
    | (st, _, c1) => c1.mcDone st

/-- MC_CMD READ_GROUP and READ_MEMBER: INTEGRITY when the word cannot be read (R8). -/
def Chip.mcRead (c : Chip) (mem i : Nat) (w : Word) : Chip :=
  match c.ecc 0x222 mem i with
  | (.bad, c1) => c1.mcDone stIntegrity
  | (_, c1) => (c1.wr Reg.mcast_MC_DATA w).mcDone stOk

/-- A write of MC_CMD. Replication of a frame is one step of the model, so no operation waits for one (R268). -/
def Chip.mcCmd (c : Chip) (k : Clk) (agent : Nat) (v : Word) : Chip :=
  let c1 := c.wr Reg.mcast_MC_CMD (v &&& 0x0F01FFFF)
  let i := fld v 16 0
  if !bit v 31 then c1
  else if c.faulted 0x222 then c1.mcDone stAborted
  else match fld v 27 24 with
    | 1 => c1.mcWrite k agent true i
    | 2 => if 16383 < i then c1.mcDone stBadArg
           else c1.mcRead 0 i (mrd 0 c1.sw.groups i)
    | 3 => c1.mcWrite k agent false i
    | 4 => c1.mcRead 1 i (mrd 0 c1.sw.members i)
    | _ => c1.mcDone stBadArg

end Sys2Proof.Machine
end

