-- ==== Sys2Proof/Machine/Alloc.lean ====
section
/-!
DEFINITION. Machine/Alloc.lean: the choice of a pool and the requests for buffers (R230 to R236, R247, R249).
-/
namespace Sys2Proof.Machine

/-! ## The choice (R230) -/

/-- The length the buffer manager works with is known: LEN_VALID of a port frame; always for a host or injected
frame, whose length is told with it (R152, R538). -/
def Frame.lenKnown (f : Frame) : Bool := decide (1152 ≤ f.inLp) || cLenValid f.carry

/-- E: the expected length with LEN_SLACK; the whole length, without slack, of a host or injected frame. -/
def Chip.expected (c : Chip) (f : Frame) : Nat :=
  if 1152 ≤ f.inLp then f.bytes.length else cExpLen f.carry + c.rdF Reg.bufmgr_BM_CFG 7 0

/-- The frame takes a chain of POOL2 buffers. -/
def Chip.chained (c : Chip) (f : Frame) : Bool := !f.lenKnown || decide (2048 < c.expected f)

/-- The smallest carved pool whose buffers hold `n` bytes. -/
def Chip.poolFor (c : Chip) (n : Nat) : Nat :=
  if n ≤ 128 ∧ c.poolCap 0 ≠ 0 then 0 else if n ≤ 512 ∧ c.poolCap 1 ≠ 0 then 1 else 2

/-- The pool of a frame's first buffer. -/
def Chip.poolOf (c : Chip) (f : Frame) : Nat := if c.chained f then 2 else c.poolFor (c.expected f)

/-! ## Granting (R235, R236) -/

/-- The lowest-numbered free buffer; a bitmap word found bad is rebuilt and passed over (R239). -/
def Chip.pick (c : Chip) (p : Nat) : Nat → Option Nat × Chip
  | 0 => (none, c)
  | fuel + 1 =>
    match c.lowestFree p with
    | none => (none, c)
    | some n =>
      match c.ecc 0x221 2 (bufKey p n / 64) with
      | (.bad, c1) =>
        ({ c1 with buf := { c1.buf with rebuilding := bufKey p (n / 64 * 64) :: c1.buf.rebuilding } }).pick p fuel
      | (_, c1) => (some n, c1)

/-- A request finds a buffer: one is free, and a request not charged to headroom leaves HR_RSV (R236). -/
def Chip.grantable (c : Chip) (p : Nat) (hr : Bool) : Bool :=
  (c.lowestFree p).isSome &&
    (hr || decide (c.poolShared p < c.poolCap p - c.rdF (Reg.bufmgr_HR_RSV p) 21 0))

/-- A buffer is granted to a frame: its state word is written, a chain is linked, the levels follow (R231, R237). -/
def Chip.grant (c : Chip) (fid p : Nat) : Chip :=
  match c.pick p 4, mget c.frames fid with
  | (some n, c1), some f =>
    let hr := f.headroom.map fun k => (f.inLp, k)
    let b : BufSt := { tag := bufTag f.inLp, hr, grp := c1.fbGroup f.inLp }
    let bufs1 := match f.bufs.getLast? with
      | some (2, m) => (match mget c1.buf.bufs (bufKey 2 m) with
        | some x => mput c1.buf.bufs (bufKey 2 m) (some { x with link := some n })
        | none => c1.buf.bufs)
      | _ => c1.buf.bufs
    let c2 := { c1 with buf := { c1.buf with bufs := mput bufs1 (bufKey p n) (some b) } }
    let c3 := c2.onFrame fid fun x => { x with bufs := x.bufs ++ [(p, n)], units := x.units + bufUnits p }
    (c3.fbPool p).fbGroupUpd (c3.fbGroup f.inLp)
  | (_, c1), _ => c1

/-- A frame is dropped at or after point 4 for want of a buffer or of headroom. A header that has entered a weir
goes on to point 6, where the failure drops it. -/
def Chip.pointFour (c : Chip) (k : Clk) (fid code : Nat) : Chip :=
  match mget c.frames fid with
  | none => c
  | some f => match f.pos with
    | .mac | .queue => c.dropFrame k fid code 0x7FF 82
    | _ => c.failFrame k fid code

/-- NO_BUFFER (R229, R236). -/
def Chip.noBuffer (c : Chip) (k : Clk) (fid : Nat) : Chip :=
  ((c.count Reg.bufmgr_NO_BUF_CNT 1).raise 0x221 25).pointFour k fid drNoBuffer

/-- HEADROOM_EXCEEDED (R247). -/
def Chip.noHeadroom (c : Chip) (k : Clk) (fid lp : Nat) : Chip :=
  (((c.count Reg.bufmgr_HDRM_DROP_CNT 1).count (Reg.port_HDRM_DROP_PORT_CNT (lp / 8) (lp % 8)) 1).raise 0x221 24).pointFour
    k fid drHeadroom

/-- A request waits on the pool-empty path. -/
def Chip.await (c : Chip) (k : Clk) (fid p : Nat) (patient : Bool) : Chip :=
  { c with buf := { c.buf with waiting := c.buf.waiting ++ [{ fid, pool := p, since := k.now, patient }] } }

/-- A frame from LP1152 or a sluice waits and is never dropped for a buffer (R249). -/
def Frame.patient (f : Frame) : Bool := decide (1152 ≤ f.inLp)

/-- A request of a frame for a buffer of a pool (R236, R247, R249). -/
def Chip.request (c : Chip) (k : Clk) (fid p : Nat) : Chip :=
  match mget c.frames fid with
  | none => c
  | some f =>
    let hrFull := match f.headroom with
      | some s => decide (c.rdF (Reg.port_HDRM_TH (f.inLp / 8) (f.inLp % 8) s) 19 0 < c.hdrmUse f.inLp s + bufUnits p)
      | none => false
    if hrFull then c.noHeadroom k fid f.inLp
    else if f.patient && c.fbOn p 1 then c.await k fid p true
    else if c.grantable p f.headroom.isSome then c.grant fid p
    else if f.patient then c.await k fid p true
    else if c.fbOn p 2 && decide (c.pushClass ≤ f.arrClass) then
      let c1 := if c.pushEn then c.pushOut k f.arrClass (c.fbGroup f.inLp) (some p) 1 4 0 else c
      c1.await k fid p false
    else c.noBuffer k fid

/-! ## Chains (R231, R232) -/

/-- A frame waits for a buffer. -/
def Chip.waits (c : Chip) (fid : Nat) : Bool := c.buf.waiting.any fun r => r.fid == fid

/-- Bytes that the buffers of a frame can hold. -/
def Frame.room (f : Frame) : Nat := f.bufs.foldl (fun n b => n + bufSize b.1) 0

/-- Further POOL2 buffers are requested while bytes have arrived that the chain does not hold. -/
def Chip.chainMore (c : Chip) (k : Clk) (fid : Nat) : Nat → Chip
  | 0 => c
  | n + 1 =>
    match mget c.frames fid with
    | none => c
    | some f =>
      if f.bufs.isEmpty ∨ f.failed.isSome ∨ c.waits fid ∨ f.held ≤ f.room ∨ !c.chained f then c
      else (c.request k fid 2).chainMore k fid n

/-- Buffers a frame of 16,383 bytes can take. -/
def chainFuel : Nat := 9

/-- Byte E + 1 of a frame with a valid length arrives (R232). -/
def Chip.lengthMismatch (c : Chip) (k : Clk) (fid : Nat) : Chip :=
  match mget c.frames fid with
  | none => c
  | some f =>
    if !f.lenKnown ∨ !f.asked ∨ f.failed.isSome ∨ f.bytes.length ≤ c.expected f then c
    else ((c.count Reg.bufmgr_LEN_LONG_CNT 1).raise 0x221 26).failFrame k fid drLength

/-- A port frame that ends before byte EXP_LEN is counted (R233). -/
def Chip.lenShort (c : Chip) (fid : Nat) : Chip :=
  match mget c.frames fid with
  | none => c
  | some f =>
    if f.inLp < 1152 && f.asked && cLenValid f.carry && decide (f.bytes.length < cExpLen f.carry) then
      c.count Reg.bufmgr_LEN_SHORT_CNT 1
    else c

/-- The length checks of a frame that has ended (R232, R233). -/
def Chip.lengthChecks (c : Chip) (k : Clk) (fid : Nat) : Chip := (c.lengthMismatch k fid).lenShort fid

/-- COMPLETE sets once the last byte is written and the checks have passed (R255, R261). -/
def Chip.tryComplete (c : Chip) (fid : Nat) : Chip :=
  c.onFrame fid fun f =>
    if f.ended && f.failed.isNone && f.asked && decide (f.stored ≤ f.room) then { f with complete := true } else f

/-- BUFFER_ALLOC: the pool is chosen and the first buffer requested (R229, R230, R247). A host or injected frame
asks before it is parsed (R152, R538). -/
def Chip.bufferAlloc (c : Chip) (k : Clk) (fid : Nat) : Chip :=
  match mget c.frames fid with
  | none => c
  | some f =>
    if f.asked ∨ (f.pos = .mac ∧ f.inLp < 1152) ∨ f.pos = .done then c
    else
      let slot := match c.slotOf f.inLp f.arrClass with
        | some s => if c.xoff f.inLp s then some s else none
        | none => none
      let stored := if f.lenKnown then min f.stored (c.expected f) else f.stored
      let c1 := c.onFrame fid fun x => { x with asked := true, headroom := slot, stored }
      if !c1.bmReady then c1.noBuffer k fid
      else
        let c2 := (c1.request k fid (c1.poolOf f)).chainMore k fid chainFuel
        (if f.ended then c2.lengthChecks k fid else c2).tryComplete fid

/-- CHAIN_BUFFER_REQUEST: the first byte that does not fit the chain arrives. -/
def Chip.chainRequest (c : Chip) (k : Clk) (fid : Nat) : Chip :=
  match mget c.frames fid with
  | none => c
  | some f =>
    if f.bufs.isEmpty ∨ f.room < f.arrived ∨ f.ended then c
    else (c.onFrame fid fun x => { x with arrived := f.room + 1 }).chainMore k fid 1

/-! ## The pool-empty path (R236, R249) -/

/-- Requester ID of a waiting request (R236). -/
def Chip.reqId (c : Chip) (r : BufReq) : Nat :=
  if r.ret.isSome then 1169 else match mget c.frames r.fid with | some f => f.inLp | none => 0

/-- Arrival class of a waiting request's frame. -/
def Chip.reqClass (c : Chip) (r : BufReq) : Nat := match mget c.frames r.fid with | some f => f.arrClass | none => 0

/-- A waiting request is a chain continuation. -/
def Chip.reqChain (c : Chip) (r : BufReq) : Bool := match mget c.frames r.fid with | some f => !f.bufs.isEmpty | none => false

/-- Request `x` is granted before `y`: the higher class, the lower requester, the chain continuation. -/
def Chip.reqBefore (c : Chip) (x y : BufReq) : Bool :=
  decide (c.reqClass y < c.reqClass x) || (c.reqClass x == c.reqClass y &&
    (decide (c.reqId x < c.reqId y) || (c.reqId x == c.reqId y && c.reqChain x && !c.reqChain y)))

/-- A waiting request may be granted now. -/
def Chip.reqReady (c : Chip) (r : BufReq) : Bool :=
  let hr := match mget c.frames r.fid with | some f => r.ret.isNone && f.headroom.isSome | none => false
  c.grantable r.pool hr && !(r.patient && c.fbOn r.pool 1)

/-- A buffer is granted to the return of a spilled copy, whose UNITS stay as they are until it ends (R314, R315). -/
def Chip.grantReturn (c : Chip) (fid p : Nat) : Chip :=
  let u := match mget c.frames fid with | some f => f.units | none => 0
  (c.grant fid p).onFrame fid fun x => { x with units := u }

/-- A return asks for the buffers its frame still needs: it waits while the pool pauses or has none (R249, R315). -/
def Chip.returnAsk (c : Chip) (k : Clk) (cid fid p : Nat) : Nat → Chip
  | 0 => c
  | n + 1 =>
    match mget c.frames fid with
    | none => c
    | some f =>
      if !f.bufs.isEmpty ∧ f.stored ≤ f.room then c
      else if !c.fbOn p 1 && c.grantable p false then (c.grantReturn fid p).returnAsk k cid fid 2 n
      else { c with buf := { c.buf with
        waiting := c.buf.waiting ++ [{ fid, pool := p, since := k.now, patient := true, ret := some cid }] } }

/-- POOL_EMPTY_GRANT: the first waiting request of a pool in R236 order is granted a buffer. -/
def Chip.poolGrant (c : Chip) (k : Clk) (p : Nat) : Chip :=
  let ready := c.buf.waiting.filter fun r => r.pool == p && c.reqReady r
  match ready.foldl (fun best x => match best with
      | none => some x
      | some y => if c.reqBefore x y then some x else best) none with
  | none => c
  | some r =>
    let c1 := { c with buf := { c.buf with waiting := c.buf.waiting.erase r } }
    match r.ret with
    | some cid => (c1.grantReturn r.fid p).returnAsk k cid r.fid 2 chainFuel
    | none => ((c1.grant r.fid p).chainMore k r.fid chainFuel).tryComplete r.fid

/-- NO_BUFFER_TIMEOUT: 64 core clocks pass without a grant (R231, R236). -/
def Chip.noBufferTimeout (c : Chip) (k : Clk) (fid : Nat) : Chip :=
  match c.buf.waiting.find? fun r => r.fid == fid && !r.patient with
  | none => c
  | some r => ({ c with buf := { c.buf with waiting := c.buf.waiting.erase r } }).noBuffer k fid

end Sys2Proof.Machine
end

