-- ==== Sys2Proof/Machine/Flume.lean ====
section
/-!
DEFINITION. Machine/Flume.lean: the Flume stacks, their regions, the spill engine and patrol scrub
(12_flume_tier.md).
-/
namespace Sys2Proof.Machine

/-! ## Regions (R306 to R309) -/

/-- Size of a region in GiB: 0 service, 1 journal, 2 ledger, 3 spill. -/
def Chip.flGib (c : Chip) (r : Nat) : Nat :=
  let w := c.rd Reg.flume_FL_PART
  match r with
  | 0 => fld w 5 0
  | 1 => fld w 13 8
  | 2 => fld w 21 16
  | _ => fld w 29 24

/-- First 64-byte unit of a region. -/
def Chip.flBase (c : Chip) (r : Nat) : Nat := ((List.range r).foldl (fun n i => n + c.flGib i) 0) * 16777216

/-- The region of a 64-byte unit; 4 beyond the 48 GiB. -/
def Chip.flRegion (c : Chip) (u : Nat) : Nat :=
  if 0x30000000 ≤ u then 4 else if u < c.flBase 1 then 0 else if u < c.flBase 2 then 1 else if u < c.flBase 3 then 2 else 3

/-- Units below the image areas' end (R166). -/
def imageUnits : Nat := 262144

/-- The stacks serve requests (R321, R322). -/
def Chip.flReady (c : Chip) : Bool :=
  c.flm.pstate == 0 && !c.flm.linkFail && !c.faulted 0x240 && !c.inReset 0x240

/-- Access of sluice `r` to a unit (R309): whether it may write, or read. -/
def Chip.flMay (c : Chip) (r : Nat) (write : Bool) (u : Nat) : Bool :=
  match c.flRegion u with
  | 0 => !write || decide (imageUnits ≤ u) || r == 0
  | 1 => if write then r == 3 else r == 0 || r == 3
  | 2 => r == 5
  | _ => false

/-! ## Reads with error checks (R318) -/

/-- An uncorrectable error in the stacks: counted and captured. -/
def Chip.flUncorrectable (c : Chip) (u user : Nat) : Chip :=
  let c1 := (c.count Reg.flume_FL_UE_CNT 1).raise 0x240 30
  if c1.rdB Reg.flume_FL_UE_ADDR_HI 31 then c1
  else (c1.wr Reg.flume_FL_UE_ADDR_LO (wd u)).wr Reg.flume_FL_UE_ADDR_HI (wd (0x80000000 + user * 0x1000000))

/-- A 64-byte unit is read: whether it holds an uncorrectable error. `user` is the index of BW_USE. -/
def Chip.flUnit (c : Chip) (user u : Nat) : Bool × Chip :=
  match mrd 0 c.flm.errs u with
  | 0 => (false, c)
  | 1 => (false, c.count Reg.flume_FL_CE_CNT 1)
  | _ => (true, c.flUncorrectable u user)

/-- Units `[u, u + n)` are read. -/
def Chip.flUnits (c : Chip) (user u : Nat) : Nat → Bool × Chip
  | 0 => (false, c)
  | n + 1 =>
    let (b, c1) := c.flUnit user u
    let (b2, c2) := c1.flUnits user (u + 1) n
    (b || b2, c2)

/-- A record of the undo journal with its number, as R445 lays it out: 128 bytes. -/
def JRec.bytes (j : JRec) (seq : Nat) : List Byte :=
  beBytes 1 j.kind ++ beBytes 1 j.op ++ beBytes 1 j.agent ++ beBytes 1 j.present.toNat ++
    beBytes 4 seq ++ secQBytes j.time ++ List.replicate 46 0 ++ slice j.before 0 64

/-- The live record of the undo journal that holds a byte address. -/
def Chip.jnlByte (c : Chip) (a : Nat) : Option Byte :=
  let o := a - 64 * c.flBase 1
  if a < 64 * c.flBase 1 then none
  else
    match c.ep.journal[o / 128]? with
    | none => none
    | some j => (j.bytes (o / 128))[o % 128]?

/-- What the Flume holds from a byte address, the open journal segment included (R445). -/
def Chip.flRead (c : Chip) (a n : Nat) : List Byte :=
  (List.zip (List.range n) (c.flBytes a n)).map fun ib => (c.jnlByte (a + ib.1)).getD ib.2

/-! ## FL_PART (R308) -/

/-- The conditions on a write of FL_PART. Capture is disabled while TEL_CTL.CAP_EN is 0; the journal has no
setting of its own, and counts as disabled while the EPOCH page's EN is 0 (DEDUCED, log 28). -/
def Chip.partOk (c : Chip) (v : Word) : Bool :=
  decide (fld v 29 24 + fld v 21 16 + fld v 13 8 + fld v 5 0 = 48) && decide (1 ≤ fld v 29 24) && decide (1 ≤ fld v 13 8) &&
    decide (c.flGib 0 ≤ fld v 5 0) && !c.rdB Reg.spill_SPILL_CTL 0 && c.flm.pages.isEmpty &&
    !c.rdB Reg.telemetry_TEL_CTL 1 && !c.enabled 0x005

/-- A write of FL_PART: an accepted change leaves the journal, ledger and spill regions undefined. -/
def Chip.partWrite (c : Chip) (v : Word) : Chip :=
  if c.partOk v then
    let b := 64 * c.flBase 1
    ({ c with flm := { c.flm with mem := c.flm.mem.filter (fun kb => kb.1 < b), gen := c.flm.gen + 1, ctx := [] } }).wr
      Reg.flume_FL_PART (v &&& 0x3F3F3F3F)
  else c.raise 0x240 25

/-! ## Spill (R312 to R317) -/

/-- Spill pages of the region. -/
def Chip.spillPageCount (c : Chip) : Nat := c.flGib 3 * 262144

/-- The lowest-numbered free spill page. Which page is taken is not observable (log 29). -/
def Chip.freePage (c : Chip) : Option Nat :=
  (List.range (min c.spillPageCount (c.flm.pages.length + 1))).find? fun p => (mget c.flm.pages p).isNone

/-- Byte address of a cell of a spill page. -/
def Chip.spillAddr (c : Chip) (page cell : Nat) : Nat := 64 * c.flBase 3 + 4096 * page + 64 * cell

/-- Cells are taken for `n` cells of a queue's chain: the runs, or none when pages run out. -/
def Chip.spillTake (c : Chip) (q : Nat) : Nat → Nat → Option (List (Nat × Nat × Nat)) × Chip
  | 0, _ => (none, c)
  | fuel + 1, n =>
    if n = 0 then (some [], c)
    else
      let here := match mget c.flm.ctx q with
        | some w => if w % 64 = 0 then none else some (w / 64, w % 64)
        | none => none
      match here.or (c.freePage.map fun p => (p, 0)) with
      | none => (none, c)
      | some (p, cell) =>
        let m := min n (64 - cell)
        let old := match mget c.flm.pages p with | some x => x.2 | none => 0
        let pages := mput c.flm.pages p (some (q, old + m))
        let ctx := mput c.flm.ctx q (if cell + m = 64 then none else some (64 * p + cell + m))
        let (rs, c1) := ({ c with flm := { c.flm with pages, ctx } }).spillTake q fuel (n - m)
        match rs with
        | some l => (some ((p, cell, m) :: l), c1)
        | none => (none, c)

/-- Bytes written to a list of runs. -/
def Chip.spillPut (c : Chip) : List (Nat × Nat × Nat) → List Byte → Chip
  | [], _ => c
  | (p, cell, n) :: l, bs => (c.flStore (c.spillAddr p cell) (slice bs 0 (64 * n))).spillPut l (bs.drop (64 * n))

/-- Bytes read from a list of runs, with whether an uncorrectable error was found. -/
def Chip.spillGet (c : Chip) : List (Nat × Nat × Nat) → List Byte × Bool × Chip
  | [] => ([], false, c)
  | (p, cell, n) :: l =>
    let a := c.spillAddr p cell
    let (bad, c1) := c.flUnits 1 (a / 64) n
    let (bs, bad2, c2) := c1.spillGet l
    (c.flBytes a (64 * n) ++ bs, bad || bad2, c2)

/-- The first copy of a queue's segment that meets a test. -/
def Chip.segFirst (c : Chip) (q : Nat) (f : SpillPos → Bool) : Option (Nat × Copy) :=
  (((c.queue q).entries.filterMap fun cid => (mget c.sw.copies cid).map fun cp => (cid, cp)).filter fun x => f x.2.spill).head?

/-- SPILL_WRITE: the first marked copy of a queue is written, once complete, and its buffers are freed (R314). A copy
that finds no page stays on die and ends the marking of later copies (R316). -/
def Chip.spillWrite (c : Chip) (k : Clk) (q : Nat) : Chip :=
  match c.segFirst q (· == .marked) with
  | none => c
  | some (cid, cp) =>
    match mget c.frames cp.fid with
    | none => c
    | some f =>
      if !f.complete ∨ !c.flReady then c
      else
        match c.readBufs f.bufs with
        | (true, c1) => c1.dropCopy k cid drData true
        | (false, c1) =>
          match c1.spillTake q 8 ((f.stored + 63) / 64) with
          | (none, c2) =>
            let later := c2.segment q
            let c3 := later.foldl (fun x i => x.onCopy i fun y =>
              if y.spill = .marked then { y with spill := .none } else y) c2
            (({ c3 with flm := { c3.flm with full := q :: c3.flm.full.filter (· != q) } }).count
              Reg.spill_SPILL_FULL_CNT 1).raise 0x241 27
          | (some rs, c2) =>
            let c3 := (c2.spillPut rs (f.bytes.take f.stored)).freeAll (bufTag f.inLp) 81 f.bufs
            let c4 := c3.onFrame cp.fid fun x => { x with bufs := [] }
            let c5 := c4.onCopy cid fun x => { x with
              spill := .written rs, carry := cputN x.carry 0x2D2 2 (tFlags x.carry ||| 4) }
            c5.count64 Reg.spill_SPILL_OUT_CNT_LO Reg.spill_SPILL_OUT_CNT_HI 1

/-- A copy's cells are in the Flume. -/
def SpillPos.isWritten : SpillPos → Bool
  | .written _ => true
  | _ => false

/-- A copy is being read back. -/
def SpillPos.isReturning : SpillPos → Bool
  | .returning _ => true
  | _ => false

/-- SPILL_RETURN: with the on-die depth below LO, and then until it reaches HI, the first written copy of a queue
asks for buffers (R315). -/
def Chip.spillReturn (c : Chip) (k : Clk) (q : Nat) : Chip :=
  let m := c.rdF (Reg.spill_SPILL_PROF (q / 20)) 18 16
  let d := c.onDie q
  let on := c.flm.returning.contains q
  let go := decide (d < c.rdF (Reg.spill_SPILL_TH_LO m) 23 0) || (on && decide (d < c.rdF (Reg.spill_SPILL_TH_HI m) 23 0))
  let rest := c.flm.returning.filter (· != q)
  if 23040 ≤ q ∨ !c.flReady then c
  else
    match c.segFirst q SpillPos.isWritten with
    | none => { c with flm := { c.flm with returning := rest } }
    | some (cid, cp) =>
      if !go then { c with flm := { c.flm with returning := rest } }
      else
        match cp.spill, mget c.frames cp.fid with
        | .written rs, some f =>
          let c1 := { c with flm := { c.flm with returning := q :: rest } }
          let c2 := c1.onCopy cid fun x => { x with spill := .returning rs }
          c2.returnAsk k cid cp.fid (if 2048 < f.stored then 2 else c2.poolFor f.stored) chainFuel
        | _, _ => c

/-- SPILL_RETURN_DONE: the last cell of the first returning copy that has its buffers is written back (R315, R317). -/
def Chip.spillReturnDone (c : Chip) (k : Clk) (q : Nat) : Chip :=
  match c.segFirst q SpillPos.isReturning with
  | none => c
  | some (cid, cp) =>
    match cp.spill, mget c.frames cp.fid with
    | .returning rs, some f =>
      if c.waits cp.fid ∨ f.bufs.isEmpty ∨ f.room < f.stored ∨ !c.flReady then c
      else
        match c.spillGet rs with
        | (_, true, c1) => c1.dropCopy k cid drData true
        | (bs, false, c1) =>
          let c2 := (c1.spillFree q rs).onCopy cid fun x => { x with spill := .none }
          let c3 := c2.onFrame cp.fid fun x => { x with
            bytes := bs.take x.stored ++ x.bytes.drop x.stored
            units := x.bufs.foldl (fun n b => n + bufUnits b.1) 0 }
          c3.count64 Reg.spill_SPILL_RET_CNT_LO Reg.spill_SPILL_RET_CNT_HI 1
    | _, _ => c

/-- Every spilled copy is dropped with reason DATA_ERROR (R321, R325). -/
def Chip.dropSpilled (c : Chip) (k : Clk) : Chip :=
  c.killCopies k (fun cp => cp.spill.isWritten || cp.spill.isReturning) drData true

/-- Flume requests of the sluices that are in flight end ABORTED (R321, R322, R325). -/
def SluReq.flAbort (r : SluReq) : SluReq := if (r.op == 3 || r.op == 4) && r.status.isNone then { r with status := some stAborted } else r

/-- Every Flume request in flight ends ABORTED. -/
def Chip.flAbortAll (c : Chip) : Chip :=
  { c with slu := { c.slu with s := c.slu.s.map fun u => { u with reqs := u.reqs.map SluReq.flAbort } } }

/-! ## Patrol, link failure, self-refresh (R319 to R322) -/

/-- PATROL_READ: the next unit is read, and rewritten if corrected. -/
def Chip.patrolRead (c : Chip) : Chip :=
  if !c.rdB Reg.flume_PATROL_CTL 31 ∨ !c.flReady ∨ c.pwr.flStep ≠ 0 ∨ c.pwr.flumeHot then c
  else
    let u := c.flm.patrol
    let (_, c1) := c.flUnit 4 u
    let errs := if mrd 0 c1.flm.errs u = 1 then merase c1.flm.errs u else c1.flm.errs
    let next := if u + 1 = 0x30000000 then 0 else u + 1
    let c2 := ({ c1 with flm := { c1.flm with patrol := next, errs } }).wrF Reg.flume_PATROL_STAT 23 0 (next / 64)
    if next = 0 then (c2.wrF Reg.flume_PATROL_STAT 31 24 (c2.rdF Reg.flume_PATROL_STAT 31 24 + 1)).raise 0x240 27 else c2

/-- D8 or D9 cannot be restored (R321); the fatal fault itself is taken by the caller. -/
def Chip.flumeLinkFail (c : Chip) (k : Clk) : Chip :=
  let c1 := { c with flm := { c.flm with linkFail := true } }
  ((c1.wrF Reg.flume_FL_STAT 1 0 0).flAbortAll).dropSpilled k

/-- STANDBY entry: no new request is accepted. -/
def Chip.flDrain (c : Chip) : Chip := if c.flm.pstate = 0 then { c with flm := { c.flm with pstate := 1 } } else c

/-- Self-refresh entry on both stacks. -/
def Chip.flSelfRefresh (c : Chip) : Chip :=
  if c.flm.pstate = 1 then ({ c with flm := { c.flm with pstate := 2 } }).wrF Reg.flume_FL_STAT 9 8 3 else c

/-- 10 µs pass in DRAINING. -/
def Chip.flDrainTmo (c : Chip) : Chip := if c.flm.pstate = 1 then c.flAbortAll.flSelfRefresh else c

/-- STANDBY exit: the stacks serve again. -/
def Chip.flWake (c : Chip) : Chip :=
  if c.flm.pstate = 0 then c else ({ c with flm := { c.flm with pstate := 0 } }).wrF Reg.flume_FL_STAT 9 8 0

end Sys2Proof.Machine
end

