-- ==== Sys2Proof/Machine/Parser.lean ====
section
/-!
DEFINITION. Machine/Parser.lean: the walk of the parse graph (04_parser_and_load_balance.md R88 to R98).
-/
namespace Sys2Proof.Machine

/-- A walk in progress. -/
structure Walk where
  /-- offset of the present header -/
  o : Nat := 0
  /-- nodes visited -/
  hops : Nat := 0
  parsed : Nat := 0
  endNode : Nat
  /-- the first node with L3_EN has been visited -/
  tried : Bool := false
  l3 : Nat := 0
  exp : Nat := 0
  valid : Bool := false
  /-- exception code (R93) -/
  exc : Nat := 0
  carry : SMap Byte := []
  deriving DecidableEq, Repr

/-- What a walk reads: the frame, DEPTH in bytes, MAX_LEN, the reach and the bank. -/
structure WalkEnv where
  bytes : List Byte
  depth : Nat
  maxLen : Nat
  reach : Nat
  bank : Bool
  deriving DecidableEq, Repr

/-- `n` bytes of the frame from `a`; a byte at or beyond DEPTH or the end of the frame reads as zero (R89). -/
def WalkEnv.rd (e : WalkEnv) (a n : Nat) : List Byte :=
  (List.range n).map fun i => if a + i < e.depth then e.bytes[a + i]?.getD 0 else 0

/-- Parse depth of a reach in bytes (R95). -/
def Chip.parseDepth (c : Chip) (b : Bool) (r : Nat) : Nat :=
  let d := c.rdEF b (Reg.parser_PARSE_CTL r) 3 0
  64 * (if 1 ≤ d ∧ d ≤ 8 then d else 8)

/-- LEN of a node at offset O (R89 step 1); LEN_MODE 3 has none. -/
def nodeLen (e : WalkEnv) (w0 w1 : Word) (o : Nat) : Nat :=
  match fld w0 25 24 with
  | 0 => fld w0 23 16
  | 1 =>
    let b := beNat (e.rd (o + fld w1 31 26) 1) &&& fld w1 25 18
    (b >>> fld w1 17 15) * 2 ^ fld w1 14 13 + fld w0 23 16
  | _ => min e.depth (e.bytes.length - 4) - o

/-- The exception of a node (R93), 0 when it has none. -/
def nodeExc (e : WalkEnv) (w0 : Word) (o len : Nat) : Nat :=
  let mode := fld w0 25 24
  if mode = 3 then 5
  else if len < fld w0 15 8 ∨ (mode = 1 ∧ len = 0) then 1
  else if mode ≠ 2 ∧ e.bytes.length - 4 < o + len then 2
  else if mode ≠ 2 ∧ e.depth < o + len then 3
  else 0

/-- The extractions of a node (R91), in ascending entry order; no entry lies beyond 1,023. -/
def Chip.nodeExtract (c : Chip) (e : WalkEnv) (w2 : Word) (o : Nat) (m : SMap Byte) : SMap Byte :=
  (List.range (min 8 (fld w2 5 2))).foldl (fun m i =>
    let x := c.rdE e.bank (Reg.parser_EXT e.reach (fld w2 15 6 + i))
    let len := if fld x 22 18 = 0 then 32 else fld x 22 18
    if 1023 < fld w2 15 6 + i then m
    else cput m (0x080 + fld x 17 10) ((e.rd (o + fld x 31 23) len).take (256 - fld x 17 10))) m

/-- The capture of the L3 length (R98). -/
def Walk.capture (w : Walk) (e : WalkEnv) (w3 : Word) (len : Nat) : Walk :=
  if w.tried || !bit w3 31 then w
  else
    let a := w.o + fld w3 30 25
    let l3 := beNat (e.rd a 2) + fld w3 24 17
    let exp := max (w.o + l3 + 4) 64
    if 127 < a + 1 ∨ l3 < len ∨ e.maxLen < exp then { w with tried := true }
    else { w with tried := true, l3, exp, valid := true }

/-- The next node (R90). -/
def Chip.nodeNext (c : Chip) (e : WalkEnv) (w0 w1 w2 : Word) (o : Nat) : Nat :=
  let win := wd (beNat (e.rd (o + fld w1 12 7) 4))
  let base := fld w2 31 22
  let hit := (List.range (min 32 (fld w2 21 16))).find? fun i =>
    decide (base + i ≤ 1023) &&
      (win &&& c.rdE e.bank (Reg.parser_TR_MASK e.reach (base + i))) ==
        (c.rdE e.bank (Reg.parser_TR_VAL e.reach (base + i)) &&& c.rdE e.bank (Reg.parser_TR_MASK e.reach (base + i)))
  match hit with
  | some i => c.rdEF e.bank (Reg.parser_TR_NEXT e.reach (base + i)) 7 0
  | none => fld w0 7 0

/-- The walk from a node that is due (R89, R92, R93). -/
def Chip.walkFrom (c : Chip) (e : WalkEnv) : Nat → Nat → Walk → Walk
  | 0, _, w => { w with exc := 4 }
  | fuel + 1, node, w =>
    if node = 0xFF then w
    else if node = 0xFE then { w with exc := 5 }
    else if 32 ≤ w.hops then { w with exc := 4 }
    else
      let w0 := c.rdE e.bank (Reg.parser_NODE_W0 e.reach node)
      let w1 := c.rdE e.bank (Reg.parser_NODE_W1 e.reach node)
      let w2 := c.rdE e.bank (Reg.parser_NODE_W2 e.reach node)
      let w3 := c.rdE e.bank (Reg.parser_NODE_W3 e.reach node)
      let len := nodeLen e w0 w1 w.o
      let v := { w with hops := w.hops + 1, endNode := node }
      match nodeExc e w0 w.o len with
      | 0 =>
        let map := cputN v.carry (0x040 + 2 * w.hops) 2 (0x8000 + fld w0 31 26 * 512 + w.o % 512)
        let v1 := ({ v with parsed := w.o + len, carry := c.nodeExtract e w2 w.o map }).capture e w3 len
        if fld w0 25 24 = 2 then v1
        else c.walkFrom e fuel (c.nodeNext e w0 w1 w2 w.o) { v1 with o := w.o + len }
      | x => { v with exc := x }

/-- The start node of a frame (R92, R152). -/
def Chip.startNode (c : Chip) (b : Bool) (f : Frame) : Nat :=
  match f.start with
  | some n => n % 256
  | none => c.rdEF b (Reg.parser_PSTART f.reach (localOf f.inLp)) 7 0

/-- A node, transition or extraction of the reach holds an uncorrectable upset that the walk would read: the
model looks at the start node only (log 27). -/
def Chip.parserBad (c : Chip) (r node : Nat) : Bool × Chip :=
  match c.ecc (Reg.pg_parser r) 0 node with
  | (.bad, c1) => (true, c1)
  | (_, c1) => (false, c1)

/-- The walk of a frame in a bank, from an empty carry but for its trace record. -/
def Chip.walk (c : Chip) (b : Bool) (f : Frame) : Walk :=
  let e : WalkEnv := { bytes := f.bytes, depth := c.parseDepth b f.reach, maxLen := c.maxLen f.inLp, reach := f.reach, bank := b }
  let n := c.startNode b f
  c.walkFrom e 33 n { endNode := n, carry := f.carry }

/-- Intrinsic metadata of R97 and the trace record's EPOCH (R20, R367). -/
def Walk.meta (w : Walk) (inLp epoch : Nat) (short : Bool) : SMap Byte :=
  let flags := (if w.valid then 128 else 0) + (if short then 64 else 0)
  let m := cput w.carry 0x000 (beBytes 2 inLp ++ beBytes 2 epoch ++ beBytes 2 w.l3 ++ beBytes 2 w.exp ++
    beBytes 2 w.parsed ++ beBytes 1 w.exc ++ beBytes 1 flags ++ beBytes 1 w.endNode ++ beBytes 1 w.hops)
  cputN m 0x2D0 2 epoch

/-- Action of an exception code (R94); 2 and 3 act as 0 for frames from LP1152 and injected ones. -/
def Chip.excAct (c : Chip) (b : Bool) (f : Frame) (code : Nat) : Nat :=
  if code = 0 then 0
  else
    let a := c.rdEF b (Reg.parser_EXC_ACT f.reach) (2 * code + 1) (2 * code)
    if 1152 ≤ f.inLp ∧ 2 ≤ a then 0 else a

end Sys2Proof.Machine
end

