-- ==== Sys2Proof/Machine/Frames.lean ====
section
/-!
DEFINITION. Machine/Frames.lean: a frame's way from the receive PCS to the header queue, and its end: points 1 to 4
of R19 (01_architecture.md, 04_parser_and_load_balance.md, 10_switch_core_and_queues.md R261, 13_timebase R334 to R336).
-/
namespace Sys2Proof.Machine

/-! ## PTP messages (R335, R336) -/

/-- Offset of the EtherType after zero, one or two tags. -/
def tagEnd (b : List Byte) : Nat :=
  let isTag := fun (o : Nat) => beNat (slice b o 2) == 0x8100 || beNat (slice b o 2) == 0x88A8
  if isTag 12 then (if isTag 16 then 20 else 16) else 12

/-- A PTP message: offset of its PTP header, and the IP version that carries it (0 for EtherType 0x88F7). -/
def ptpHeader (b : List Byte) : Option (Nat × Nat) :=
  let o := tagEnd b
  let et := beNat (slice b o 2)
  let port := fun (a : Nat) => beNat (slice b a 2) == 319 || beNat (slice b a 2) == 320
  if et = 0x88F7 then some (o + 2, 0)
  else if et = 0x0800 ∧ beNat (slice b (o + 2) 1) % 16 = 5 ∧ beNat (slice b (o + 11) 1) = 17 ∧ port (o + 24) then some (o + 30, 4)
  else if et = 0x86DD ∧ beNat (slice b (o + 8) 1) = 17 ∧ port (o + 44) then some (o + 50, 6)
  else none

/-- The 192-byte ring entry. -/
def ptpEntry (lp tIn : Nat) (tsErr : Bool) (b : List Byte) : List Byte :=
  beBytes 6 (todSec tIn % 2 ^ 48) ++ beBytes 4 (todNs tIn) ++ beBytes 2 (todFrac tIn) ++ beBytes 2 lp ++
    beBytes 2 b.length ++ beBytes 1 tsErr.toNat ++ List.replicate 15 0 ++ slice b 0 160

/-- A message is copied into the PTP receive ring, or dropped (R336). The ring is full when one more entry would make
HEAD equal TAIL, which reads as empty (DEDUCED, log 30). -/
def Chip.ptpReceive (c : Chip) (lp tIn : Nat) (tsErr : Bool) (b : List Byte) : Chip :=
  let head := c.rdF Reg.time_PTPQ_HEAD 11 0
  if !c.rdB (Reg.port_TS_CTL (lp / 8) (lp % 8)) 31 || (ptpHeader b).isNone then c
  else if !c.serves 1 || !c.flReady || (head + 1) % 4096 == c.rdF Reg.time_PTPQ_TAIL 11 0 then
    (c.count Reg.time_PTPQ_DROP_CNT 1).raise 0x003 19
  else
    let a := 64 * (c.rd Reg.time_PTPQ_BASE).toNat + 192 * head
    c.edge ((c.flStore a (ptpEntry lp tIn tsErr b)).wr Reg.time_PTPQ_HEAD (wd ((head + 1) % 4096))) 0x003

/-! ## Points 1 and 2 (R19, R234, R334) -/

/-- Arrival class of a frame (R234). -/
def Chip.arrivalClass (c : Chip) (lp : Nat) (b : List Byte) : Nat :=
  let w := c.rd (Reg.port_FC_ARR (lp / 8) (lp % 8))
  let et := beNat (slice b 12 2)
  let dscp := fun (d : Nat) => c.rdF (Reg.port_DSCP_MAP (lp / 8) (d / 8)) (4 * (d % 8) + 2) (4 * (d % 8))
  match fld w 5 4 with
  | 1 => if et = 0x8100 ∨ et = 0x88A8 then beNat (slice b 14 1) / 32 else fld w 2 0
  | 2 => if et = 0x0800 then dscp (beNat (slice b 15 1) / 4)
         else if et = 0x86DD then dscp (beNat (slice b 14 2) / 64 % 64) else fld w 2 0
  | _ => fld w 2 0

/-- The trace record opened at point 1: T_in, IN_LP, no EG_LP and no queue (R367). -/
def trace0 (tIn inLp : Nat) : SMap Byte :=
  cput [] 0x2C0 (secQBytes tIn ++ beBytes 2 inLp ++ beBytes 2 0x7FF ++ [0, 31])

/-- T_in of a frame stamped now: the stamp less PORT_RX_DLY, rounded to 0.25 ns (R334). -/
def Chip.ingressTime (c : Chip) (k : Clk) (lp : Nat) : Nat :=
  roundQ (k.tod - c.rdF (Reg.port_PORT_RX_DLY (lp / 8) (lp % 8)) 23 0 * (nsU / 256))

/-- Stamps of a logical port carry TS_ERR: device time is lost, or its die link has failed (R332, R493). -/
def Chip.stampErr (c : Chip) (k : Clk) (lp : Nat) : Bool :=
  k.todFault || (decide (lp < 1152) && c.links.dieFail.contains (lp / 144))

/-- A frame enters the device. -/
def Chip.addFrame (c : Chip) (f : Frame) : Chip :=
  { c with frames := mput c.frames c.nextFrame (some f), nextFrame := c.nextFrame + 1 }

/-- The frame that a logical port is receiving. -/
def Chip.receiving (c : Chip) (lp : Nat) : Option Nat :=
  (c.frames.find? fun kf => kf.2.inLp == lp && !kf.2.ended).map (·.1)

/-- A counter of the port page counts one frame. -/
def Chip.macCount (c : Chip) (r : Nat → Nat → Nat) (lp : Nat) : Chip := c.count (r (lp / 8) (lp % 8)) 1

/-- A frame the MAC accepts passes MACsec and waits for its walk, or is dropped at point 2 (R417). `bad` when its FCS
fails. -/
def receiveFrame (cv : CV) (k : Clk) (lp : Nat) (b : List Byte) (bad : Bool) : CV :=
  let c := cv.1
  let tIn := c.ingressTime k lp
  let f : Frame := { inLp := lp, reach := reachOf lp, bytes := b, tIn, tsErr := c.stampErr k lp, stampNow := k.now,
                     fecBad := bad, carry := trace0 tIn lp, stored := b.length, arrClass := c.arrivalClass lp b }
  match mscReceive (c.ptpReceive lp tIn f.tsErr b, cv.2) lp b with
  | (.drop, c1) => (((c1.addFrame f).dropFrame k c1.nextFrame drMacsec 0x7FF 82), cv.2)
  | (.deliver b1 msc, c1) =>
    (c1.addFrame { f with bytes := b1, msc, stored := b1.length, arrClass := c1.arrivalClass lp b1 }, cv.2)

/-- FRAME_RECEIVE: a frame starts at the receive PCS of a logical port (R19 points 1 and 2). Its bytes come with the
command; the length discards of the MAC and MAC Control frames, which the MAC consumes, are settled here (log 31). -/
def frameReceive (cv : CV) (k : Clk) (lp : Nat) (b : List Byte) : CV :=
  let c := cv.1
  let bad := !fcsGood b || c.links.loss.contains lp
  if 1152 ≤ lp ∨ !c.lpActive lp ∨ (c.linkSt lp ≠ 7 ∧ c.linkSt lp ≠ 8) ∨ (c.receiving lp).isSome then cv
  else if b.length < 64 then (c.macCount Reg.port_RX_UNDERSIZE_CNT lp, cv.2)
  else if c.maxLen lp < b.length then (c.macCount Reg.port_RX_OVERSIZE_CNT lp, cv.2)
  else if beNat (slice b 12 2) = 0x8808 then
    if bad then (c.macCount Reg.port_RX_FCS_ERR_CNT lp, cv.2)
    else ((c.count64 (Reg.port_RX_OK_CNT_LO (lp / 8) (lp % 8)) (Reg.port_RX_OK_CNT_HI (lp / 8) (lp % 8)) 1).macControl lp b, cv.2)
  else receiveFrame cv k lp b bad

/-! ## Point 3 (R17, R20, R89 to R98) -/

/-- The header of a parsed frame takes its place in the header queue, or is dropped (R17). -/
def Chip.queueHeader (c : Chip) (k : Clk) (fid : Nat) (f : Frame) : Chip :=
  if 512 ≤ (c.reach f.reach).hq.length then
    ((c.count (Reg.parser_HDR_OVR_CNT f.reach) 1).raise (Reg.pg_parser f.reach) 8).dropFrame k fid drHeader 0x7FF 82
  else
    (c.onFrame fid fun x => { x with pos := .queue, readyAt := c.clockIx k }).onReach f.reach fun x => { x with hq := x.hq ++ [fid] }

/-- A walk has ended: its outcome is counted and EXC_ACT decides (R94). -/
def Chip.parsed (c : Chip) (k : Clk) (fid : Nat) (b : Bool) (f : Frame) (w : Walk) : Chip :=
  let tIn := if 1152 ≤ f.inLp then roundQ k.tod else f.tIn
  let m0 := if 1152 ≤ f.inLp then cput (w.meta f.inLp (c.rdF Reg.epoch_EPOCH_STAT 15 0) (decide (f.bytes.length < c.parseDepth b f.reach)))
      0x2C0 (secQBytes tIn)
    else w.meta f.inLp (c.rdF Reg.epoch_EPOCH_STAT 15 0) (decide (f.bytes.length < c.parseDepth b f.reach))
  let act := c.excAct b f w.exc
  let m := if act = 2 then cputN m0 0x018 1 0x80 else if act = 3 then cputN m0 0x018 1 0xC0 else m0
  let c1 := c.onFrame fid fun x => { x with carry := m, tIn }
  let c2 := if w.exc = 0 then c1
    else (c1.count (Reg.parser_EXC_CNT f.reach (w.exc - 1)) 1).raise (Reg.pg_parser f.reach) (w.exc - 1)
  if act = 1 then c2.dropFrame k fid drParse 0x7FF 82 else c2.queueHeader k fid f

/-- PARSE_WALK: the oldest frame of a source that waits for its walk is parsed. A host or injected frame is parsed
once its bytes are in its buffers and the header queue has an entry for it (R15, R17, R152). -/
def Chip.parseWalk (c : Chip) (k : Clk) (src : Nat) : Chip :=
  match c.frames.find? fun kf => kf.2.inLp == src && kf.2.pos == .mac with
  | none => c
  | some (fid, f) =>
    if 1152 ≤ src ∧ (f.bufs.isEmpty ∨ f.room < f.stored ∨ 512 ≤ (c.reach f.reach).hq.length) then c
    else if c.faulted (Reg.pg_parser f.reach) || c.inReset (Reg.pg_parser f.reach) then c.dropFrame k fid drData 0x7FF 82
    else
      let b := c.bankB
      match c.parserBad f.reach (c.startNode b f) with
      | (true, c1) => c1.dropFrame k fid drData 0x7FF 82
      | (false, c1) => c1.parsed k fid b f (c1.walk b f)

/-! ## Buffer rows by source -/

/-- The oldest frame of a source that meets a test. -/
def Chip.frameOf (c : Chip) (src : Nat) (f : Frame → Bool) : Option Nat :=
  (c.frames.find? fun kf => kf.2.inLp == src && f kf.2).map (·.1)

/-- A change of the frame a search finds. -/
def Chip.withFrame (c : Chip) (o : Option Nat) (f : Nat → Chip) : Chip :=
  match o with
  | some fid => f fid
  | none => c

/-- BUFFER_ALLOC of the oldest frame of a source that has not asked; the header is ready no earlier than the grant. -/
def Chip.allocFor (c : Chip) (k : Clk) (src : Nat) : Chip :=
  c.withFrame (c.frameOf src fun f => !f.asked && (f.pos != .mac || decide (1152 ≤ src)) && f.pos != .done) fun fid =>
    (c.bufferAlloc k fid).onFrame fid fun x => if x.pos == .queue then { x with readyAt := c.clockIx k } else x

/-! ## The frame's end (R261) -/

/-- The MACsec verdict at the frame's end. -/
def frameMsc (cv : CV) (k : Clk) (fid : Nat) (f : Frame) : CV :=
  match f.msc with
  | none => cv
  | some m =>
    match mscEnd cv f.inLp m with
    | (true, cv1) => (cv1.1.failFrame k fid drMacsec, cv1.2)
    | (false, cv1) => cv1

/-- FRAME_END: the last byte of the frame in receipt arrives: the FCS, MACsec and length checks decide (R261). -/
def frameEnd (cv : CV) (k : Clk) (lp : Nat) : CV :=
  let c := cv.1
  match c.receiving lp with
  | none => cv
  | some fid =>
    match mget c.frames fid with
    | none => cv
    | some f =>
      let c1 := if f.fecBad then c.macCount Reg.port_RX_FCS_ERR_CNT lp
        else c.count64 (Reg.port_RX_OK_CNT_LO (lp / 8) (lp % 8)) (Reg.port_RX_OK_CNT_HI (lp / 8) (lp % 8)) 1
      if f.pos = .done ∧ f.refs = 0 then ({ c1 with frames := merase c1.frames fid }, cv.2)
      else
        let c2 := c1.onFrame fid fun x => { x with ended := true, arrived := x.bytes.length }
        let c3 := if f.asked then c2.lengthChecks k fid else c2
        let cv4 := if f.fecBad then (c3.failFrame k fid drFcs, cv.2) else frameMsc (c3, cv.2) k fid f
        (((cv4.1.chainMore k fid chainFuel).tryComplete fid).reap fid 80, cv4.2)

end Sys2Proof.Machine
end

