-- ==== Sys2Proof/Machine/Links.lean ====
section
/-!
DEFINITION. Machine/Links.lean: lanes, lane power, raw lane mode and the link state machine of each logical port
(R58 to R87, R569).
-/
namespace Sys2Proof.Machine

/-! ## Lanes of a logical port (R14, R58) -/

/-- The lanes of an active logical port: lane numbers are those of LP(8p + j) upwards. -/
def Chip.lanesOf (c : Chip) (lp : Nat) : List Nat :=
  if c.lpActive lp && decide (lp < 1152) then (List.range (modeLanes (c.portMode lp))).map (lp + ·) else []

/-- The active logical port whose lanes hold lane `l`. -/
def Chip.lpOfLane (c : Chip) (l : Nat) : Nat := l - l % modeLanes (c.portMode l)

/-- A register of a lane: lane `l` is index `l % 16` of block `l / 16`. -/
def laneReg (r : Nat → Nat → Nat) (l : Nat) : Nat := r (l / 16) (l % 16)

/-- Power state of a lane (R69 codes). -/
def Chip.lanePwr (c : Chip) (l : Nat) : Nat := c.rdF (laneReg Reg.lane_LN_STAT l) 17 16

/-- A bit of LN_STAT of every lane of a list. -/
def Chip.lanesF (c : Chip) (hi lo v : Nat) : List Nat → Chip
  | [] => c
  | l :: ls => (c.wrF (laneReg Reg.lane_LN_STAT l) hi lo v).lanesF hi lo v ls

/-- The power state of a logical port: the deepest among its lanes. -/
def Chip.lpPower (c : Chip) (lp : Nat) : Nat := (c.lanesOf lp).foldl (fun n l => max n (c.lanePwr l)) 0

/-- PWR_REQ of a logical port. -/
def Chip.pwrReq (c : Chip) (lp : Nat) : Word := c.rd (Reg.port_PWR_REQ (lp / 8) (lp % 8))

/-- The target state: the deeper of HOST_REQ and PM_REQ (R70). -/
def Chip.pwrTarget (c : Chip) (lp : Nat) : Nat := max (fld (c.pwrReq lp) 1 0) (fld (c.pwrReq lp) 8 8)

/-- ADMIN_UP of a logical port. -/
def Chip.adminUp (c : Chip) (lp : Nat) : Bool := c.rdB (Reg.port_PORT_ADMIN (lp / 8)) (lp % 8)

/-- RAW_EN is 1 on a lane of a logical port (R74). -/
def Chip.rawLanes (c : Chip) (lp : Nat) : Bool := (c.lanesOf lp).any fun l => c.rdB (laneReg Reg.lane_LN_CFG l) 31

/-- LN_EV bits of a lane set (R84, R85). -/
def Chip.laneEv (c : Chip) (l i : Nat) : Chip := c.edge (c.orW (laneReg Reg.lane_LN_EV l) (oneBit i)) (0x040 + l / 16)

/-- An event bit of the port page of a logical port: `base + j`. -/
def Chip.portEv (c : Chip) (lp base : Nat) : Chip := c.raise (0x090 + lp / 8) (base + lp % 8)

/-- A field of LINK_STAT. -/
def Chip.linkF (c : Chip) (lp hi lo v : Nat) : Chip := c.wrF (Reg.port_LINK_STAT (lp / 8) (lp % 8)) hi lo v

/-- A bit of LINK_STAT. -/
def Chip.linkBit (c : Chip) (lp i : Nat) : Bool := c.rdB (Reg.port_LINK_STAT (lp / 8) (lp % 8)) i

/-! ## PLLs of a lane block (R61, R69, R72) -/

/-- The lanes of block `k`. -/
def blockLanes (k : Nat) : List Nat := (List.range 16).map (16 * k + ·)

/-- Every lane of a block is DEEP or OFF. -/
def Chip.blockDown (c : Chip) (k : Nat) : Bool := (blockLanes k).all fun l => 2 ≤ c.lanePwr l

/-- MODE of port `p` needs PLL_H (`high`) or PLL_L. -/
def Chip.needsPll (c : Chip) (p : Nat) (high : Bool) : Bool := (c.portMode (8 * p) == 6) != high

/-- The PLLs that the two ports of a block need run; another is powered down (R61). A PLL that starts is not locked. -/
def Chip.pllSettle (c : Chip) (k : Nat) : Chip :=
  let one (c : Chip) (high : Bool) : Chip :=
    let i := if high then 0 else 1
    if c.needsPll (2 * k) high || c.needsPll (2 * k + 1) high then
      if c.rdB (Reg.lane_LB_STAT k) i then c else c.wrF (Reg.lane_LB_STAT k) i i 1
    else (c.wrF (Reg.lane_LB_STAT k) i i 0).wrF (Reg.lane_LB_STAT k) (i + 2) (i + 2) 0
  if c.links.pllStopping.contains k || c.blockDown k then c else one (one c true) false

/-- A block whose lanes are all DEEP or OFF stops its PLLs (R69, R72). -/
def Chip.pllStop (c : Chip) (k : Nat) : Chip :=
  if c.blockDown k && !c.links.pllStopping.contains k && (c.rd (Reg.lane_LB_STAT k) != 0) then
    { c with links := { c.links with pllStopping := c.links.pllStopping ++ [k] } }
  else c

/-- A running PLL of a block loses lock (R85). -/
def Chip.pllUnlock (c : Chip) (k : Nat) (high : Bool) : Chip :=
  let i := if high then 2 else 3
  if c.rdB (Reg.lane_LB_STAT k) i then
    (c.wrF (Reg.lane_LB_STAT k) i i 0).raise (0x040 + k) (if high then 27 else 26)
  else c

/-! ## Receive adaptation (R67, R68) -/

/-- A lane starts to adapt from its mid-range defaults. -/
def Chip.adaptStart (c : Chip) (l : Nat) : Chip :=
  let c1 := (c.wrF (laneReg Reg.lane_LN_STAT l) 1 1 0).wrF (laneReg Reg.lane_LN_STAT l) 0 0 1
  { c1 with links := { c1.links with dfe := merase c1.links.dfe l } }

/-- Every lane of a list starts to adapt. -/
def Chip.adaptAll (c : Chip) : List Nat → Chip
  | [] => c
  | l :: ls => (c.adaptStart l).adaptAll ls

/-- The preset of each lane is loaded into its live taps at the start of a training run (R67). -/
def Chip.presetAll (c : Chip) : List Nat → Chip
  | [] => c
  | l :: ls => (c.wr (laneReg Reg.lane_TX_EQ_LIVE l) (c.rd (laneReg Reg.lane_TX_EQ l))).presetAll ls

/-- LT_EN of the port of a logical port or lane. -/
def Chip.ltEn (c : Chip) (lp : Nat) : Bool := c.rdB (Reg.port_PORT_AN (lp / 8)) 8

/-- AN_EN of the port of a logical port. -/
def Chip.anEn (c : Chip) (lp : Nat) : Bool := c.rdB (Reg.port_PORT_AN (lp / 8)) 0

/-! ## The link state machine (R77, R78) -/

/-- A logical port takes a link state. LINK_STAT follows: UP in UP, CAL_DONE in UP and FAULT (R82), the locks only from
ALIGN on, LOCAL_FAULT while the receiver is unlocked in ALIGN, CAL, UP or FAULT. Leaving UP or FAULT for another state
than these starts the port-down flush and sets LINK_CHG_EV when `chg`. -/
def Chip.linkSet (c : Chip) (k : Clk) (lp st : Nat) (chg : Bool) : Chip :=
  let old := c.linkSt lp
  let was := old == 7 || old == 8
  let now_ := st == 7 || st == 8
  let lockOk := now_ || st == 6
  let c1 := c.linkF lp 19 16 st
  let c2 := c1.linkF lp 8 8 (if st = 7 then 1 else 0)
  let c3 := c2.linkF lp 0 0 (if now_ then 1 else 0)
  let c4 := if lockOk then c3 else (c3.linkF lp 2 1 0).linkF lp 4 4 0
  let locked := fld (c4.rd (Reg.port_LINK_STAT (lp / 8) (lp % 8))) 2 1 == 3
  let c5 := c4.linkF lp 3 3 (if (lockOk || st == 5) && !locked then 1 else 0)
  let c6 := if now_ then c5 else { c5 with links := { c5.links with loss := c5.links.loss.filter (· != lp) } }
  let c7 := if was && st != 7 then c6.portDown k lp else c6
  if chg then c7.portEv lp 16 else c7

/-- A new state and what entering it starts: adaptation in ADAPT (R68), the presets in TRAIN (R67), and in
UP a flow-control frame while XOFF holds (R245). A lane in raw mode
takes the port to RAW in the next clock (R74, R77). -/
def Chip.linkGo (c : Chip) (k : Clk) (lp st : Nat) (chg : Bool) : Chip :=
  if st != 9 && st != 10 && c.rawLanes lp then c.linkSet k lp 10 (c.linkSt lp == 7 || c.linkSt lp == 8)
  else
    let c1 := c.linkSet k lp st chg
    match st with
    | 1 => c1.pllSettle (lp / 16)
    | 3 => (c1.presetAll (c1.lanesOf lp)).adaptAll (c1.lanesOf lp)
    | 4 => c1.adaptAll (c1.lanesOf lp)
    | 7 => if (c1.xoffTimes lp).isEmpty then c1 else c1.sendFc k lp (c1.xoffTimes lp)
    | _ => c1

/-- Where WAIT_PLL leads, and where a failed ALIGN restarts: AN, TRAIN or ADAPT (R77). -/
def Chip.bringUp (c : Chip) (lp : Nat) : Nat := if c.anEn lp then 2 else if c.ltEn lp then 3 else 4

/-- A DISABLED port whose ADMIN_UP is set starts to come up (R77). -/
def Chip.linkTry (c : Chip) (k : Clk) (lp : Nat) : Chip :=
  if c.lpActive lp && decide (lp < 1152) && c.linkSt lp == 0 && c.adminUp lp && decide (c.pwrTarget lp < 2) then
    c.linkGo k lp 1 false
  else c

/-- ADMIN_UP cleared: DISABLED from any state but RAW; a port whose lanes are DEEP or OFF stays there (R77, R78). -/
def Chip.linkDown (c : Chip) (k : Clk) (lp : Nat) : Chip :=
  let st := c.linkSt lp
  if !c.lpActive lp || 1152 ≤ lp || c.adminUp lp || st == 10 || st == 0 || (st == 9 && 2 ≤ c.pwrTarget lp) then c
  else c.linkSet k lp 0 (st == 7 || st == 8)

/-- A change of ADMIN_UP acts on every active logical port of port `p` (R77). -/
def Chip.adminAct (c : Chip) (k : Clk) (p : Nat) : Nat → Chip
  | 0 => c
  | n + 1 => ((c.adminAct k p n).linkDown k (8 * p + n)).linkTry k (8 * p + n)

/-! ## Lane power (R70 to R73) -/

/-- Lanes start a transition to a power state. -/
def Chip.pwrStart (c : Chip) (lp t : Nat) : Chip :=
  { c with links := { c.links with moving := mput c.links.moving lp (some t) } }

/-- The link of a port whose lanes head for DEEP or OFF: DEEP, which stands for OFF as well (R77). -/
def Chip.linkDeep (c : Chip) (k : Clk) (lp : Nat) : Chip :=
  let st := c.linkSt lp
  if st = 9 then c else c.linkSet k lp 9 (st == 7 || st == 8)

/-- Lanes leave DEEP or OFF: the PLLs restart unless they are still stopping, and the link leaves DEEP (R71, R72, R77). -/
def Chip.pwrWake (c : Chip) (k : Clk) (lp : Nat) (off : Bool) : Chip :=
  let b := lp / 16
  let run := (if c.needsPll (lp / 8) true then 1 else 2)
  let c1 := if c.links.pllStopping.contains b then c else c.orW (Reg.lane_LB_STAT b) (wd run)
  let c2 := c1.pwrStart lp 0
  if c2.linkSt lp != 9 then c2
  else if !c2.adminUp lp then c2.linkGo k lp 0 false
  else c2.linkGo k lp (if off then 1 else 4) false

/-- The lanes of a port act on the target present now, unless a transition runs (R71, R73). Entry to QUIET waits for
QUIET_IDLE. -/
def Chip.pwrAct (c : Chip) (k : Clk) (lp : Nat) : Chip :=
  let t := c.pwrTarget lp
  let cur := c.lpPower lp
  if !c.lpActive lp || 1152 ≤ lp || (mget c.links.moving lp).isSome || t == cur then c
  else if t = 3 then (c.linkDeep k lp).pwrStart lp 3
  else if t = 2 ∧ cur < 2 then (c.linkDeep k lp).pwrStart lp 2
  else if 2 ≤ cur ∧ (t < 2 ∨ cur = 3) then c.pwrWake k lp (cur == 3)
  else if cur = 1 then c.pwrStart lp 0
  else c

/-- Whether a port is idle in the sense of R71: no frame is selected for it or in transmission. -/
def Chip.lpIdle (c : Chip) (lp : Nat) : Bool :=
  !c.sw.copies.any fun kc => kc.2.lp == lp && kc.2.pos != .linking && kc.2.pos != .queued

/-- The lanes of a port reach a power state: PWR_DONE_EV sets (R71), and the target present now is acted on (R73). -/
def Chip.pwrReach (c : Chip) (k : Clk) (lp t : Nat) : Chip :=
  let ls := c.lanesOf lp
  let c1 := c.lanesF 17 16 t ls
  let c2 := if 2 ≤ t then c1.lanesF 2 2 0 ls else c1
  let c3 := if t = 3 then (c2.lanesF 3 3 0 ls).lanesF 1 0 0 ls else c2
  let c4 := { c3 with links := { c3.links with moving := merase c3.links.moving lp } }
  let c5 := if 2 ≤ t then c4.pllStop (lp / 16) else c4
  (c5.portEv lp 0).pwrAct k lp

/-- LANE_TRANSITION_DONE. -/
def Chip.laneMoved (c : Chip) (k : Clk) (lp : Nat) : Chip :=
  match mget c.links.moving lp with
  | none => c
  | some t => c.pwrReach k lp t

/-- QUIET_IDLE_EXPIRY: an idle port whose target is QUIET enters it (R71). -/
def Chip.quietIdle (c : Chip) (k : Clk) (lp : Nat) : Chip :=
  if c.lpActive lp && decide (lp < 1152) && c.lpPower lp == 0 && c.pwrTarget lp == 1 && (mget c.links.moving lp).isNone &&
      c.lpIdle lp then c.pwrReach k lp 1
  else c

/-- A frame is selected, or a transmit timestamp asked for, on a QUIET port: its lanes move to ACTIVE (R71). -/
def Chip.quietExit (c : Chip) (lp : Nat) : Chip :=
  if c.lpPower lp == 1 && (mget c.links.moving lp).isNone then c.pwrStart lp 0 else c

/-- A port whose lanes are not ready to send: QUIET, or leaving it (R71). -/
def Chip.lanesQuiet (c : Chip) (lp : Nat) : Bool := lp != 1152 && c.lpPower lp == 1

/-- PLL_STOP_DONE: the PLLs of a block stop; they restart at once if a lane targets ACTIVE or QUIET (R72). -/
def Chip.pllStopped (c : Chip) (b : Nat) : Chip :=
  if !c.links.pllStopping.contains b then c
  else
    let c1 := { c with links := { c.links with pllStopping := c.links.pllStopping.filter (· != b) } }
    let c2 := c1.wr (Reg.lane_LB_STAT b) 0
    let up (p : Nat) : Bool := (List.range 8).any fun j => c2.lpActive (8 * p + j) && decide (c2.pwrTarget (8 * p + j) < 2)
    let run (p : Nat) : Nat := if up p then (if c2.needsPll p true then 1 else 2) else 0
    (c2.orW (Reg.lane_LB_STAT b) (wd (run (2 * b)))).orW (Reg.lane_LB_STAT b) (wd (run (2 * b + 1)))

/-- A write of PWR_REQ (R70): S6, agent 23, writes PM_REQ; every other agent writes HOST_REQ. Both may set QUIET_IDLE. -/
def Chip.pwrReqWrite (c : Chip) (k : Clk) (agent p j : Nat) (v : Word) : Chip :=
  let a := Reg.port_PWR_REQ p j
  let w := setFld (c.rd a) 31 20 (fld v 31 20)
  let c1 := c.wr a (if agent = sluiceAgent 6 then setFld w 8 8 (fld v 8 8) else setFld w 1 0 (fld v 1 0))
  c1.pwrAct k (8 * p + j)

/-! ## Port mode and lane settings (R59, R65, R66) -/

/-- The targets of every logical port of port `p` are acted on. -/
def Chip.pwrActAll (c : Chip) (k : Clk) (p : Nat) : Nat → Chip
  | 0 => c
  | n + 1 => (c.pwrActAll k p n).pwrAct k (8 * p + n)

/-- A write of PORT_MODE (R59). -/
def Chip.portModeWrite (c : Chip) (k : Clk) (p : Nat) (v : Word) : Chip :=
  let busy := (List.range 8).any fun j =>
    c.lpActive (8 * p + j) && (c.adminUp (8 * p + j) || c.linkSt (8 * p + j) != 0)
  if busy ∨ fld v 2 0 = 7 then c.raise (0x090 + p) 27
  else ((c.wr (Reg.port_PORT_MODE p) (v &&& 0x17)).pwrActAll k p 8).adminAct k p 8

/-- A tap setting is valid (R65). -/
def tapsOk (pre main post : Nat) : Bool :=
  decide (pre ≤ 16) && decide (post ≤ 24) && decide (pre + main + post ≤ 63) && decide (pre + post + 16 ≤ main)

/-- PRE, MAIN and POST of a TX_EQ word. -/
def tapsOf (w : Word) : Nat × Nat × Nat := (fld w 21 16, fld w 13 8, fld w 5 0)

/-- A write of TX_EQ of lane `l` (R66, R67). -/
def Chip.txEqWrite (c : Chip) (l : Nat) (v : Word) : Chip :=
  if tapsOk (fld v 21 16) (fld v 13 8) (fld v 5 0) then
    let c1 := c.wr (laneReg Reg.lane_TX_EQ l) (v &&& 0x003F3F3F)
    if c1.ltEn l then c1 else c1.presetAll [l]
  else c.raise (0x040 + l / 16) 25

/-- A write of PORT_AN: with link training disabled the live taps equal TX_EQ (R67). -/
def Chip.portAnWrite (c : Chip) (p : Nat) (v : Word) : Chip :=
  let c1 := c.wr (Reg.port_PORT_AN p) (v &&& 0xFFFF0101)
  if bit v 8 then c1 else c1.presetAll ((List.range 8).map (8 * p + ·))

/-- LINK_TRAINING_REQUEST: the partner asks for one step of a coefficient, 0 PRE, 1 MAIN, 2 POST (R67). -/
def Chip.trainRequest (c : Chip) (l coef : Nat) (up : Bool) : Chip :=
  let (pre, main, post) := tapsOf (c.rd (laneReg Reg.lane_TX_EQ_LIVE l))
  let step (n : Nat) (i : Nat) : Option Nat := if coef ≠ i then some n else if up then some (n + 1) else if n = 0 then none else some (n - 1)
  if !c.ltEn l ∨ c.linkSt (c.lpOfLane l) ≠ 3 then c
  else
    match step pre 0, step main 1, step post 2 with
    | some x, some y, some z =>
      if tapsOk x y z then
        let c1 := c.wr (laneReg Reg.lane_TX_EQ_LIVE l) (wd (x * 65536 + y * 256 + z))
        { c1 with links := { c1.links with trainLimit := merase c1.links.trainLimit l } }
      else { c with links := { c.links with trainLimit := mput c.links.trainLimit l (some 1) } }
    | _, _, _ => { c with links := { c.links with trainLimit := mput c.links.trainLimit l (some 1) } }

/-- A write of RX_ADAPT: CONT_EN and FREEZE are stored; RESTART starts an adaptation (R68). -/
def Chip.rxAdaptWrite (c : Chip) (l : Nat) (v : Word) : Chip :=
  let c1 := c.wr (laneReg Reg.lane_RX_ADAPT l) (v &&& 0x110)
  if bit v 0 then c1.adaptStart l else c1

/-- An adaptation of a lane ends with the codes it found (R68). -/
def Chip.adaptEnd (c : Chip) (l ctle : Nat) (taps : List Int) : Chip :=
  let c1 := (c.wrF (laneReg Reg.lane_LN_STAT l) 3 0 0xE).wrF (laneReg Reg.lane_EYE_MARGIN l) 28 24 ctle
  let c2 := { c1 with links := { c1.links with dfe := mset [] c1.links.dfe l taps } }
  c2.laneEv l 0

/-- ADAPT_DONE of a lane; a port in ADAPT with every lane adapted moves to ALIGN, unless its die link has failed (R68, R77,
R493). -/
def Chip.adaptDone (c : Chip) (k : Clk) (l ctle : Nat) (taps : List Int) : Chip :=
  if !c.rdB (laneReg Reg.lane_LN_STAT l) 0 then c
  else
    let c1 := c.adaptEnd l ctle taps
    let lp := c1.lpOfLane l
    if c1.linkSt lp == 4 && !c1.links.dieFail.contains (lp / 144) && (c1.lanesOf lp).all (fun x => c1.rdB (laneReg Reg.lane_LN_STAT x) 1) then c1.linkGo k lp 5 false
    else c1

/-- A tap moved by at most one code. -/
def tapMove : List Int → List Int → List Int
  | t :: ts, m :: ms => (t + max (-1) (min 1 m)) :: tapMove ts ms
  | ts, _ => ts

/-- CONT_ADAPT_TICK: 100 µs have passed: EYE_MARGIN is updated, and continuous adaptation moves each tap by at most one
code while CONT_EN is 1, FREEZE is 0 and the lane is ACTIVE or QUIET (R68). -/
def Chip.contAdapt (c : Chip) (l : Nat) (moves : List Int) (vert horiz : Nat) : Chip :=
  let w := c.rd (laneReg Reg.lane_RX_ADAPT l)
  let c1 := c.wrF (laneReg Reg.lane_EYE_MARGIN l) 15 0 (vert % 256 * 256 + horiz % 256)
  if bit w 8 && !bit w 4 && decide (c.lanePwr l < 2) && !c.rdB (laneReg Reg.lane_LN_STAT l) 0 then
    let old := match mget c1.links.dfe l with | some t => t | none => List.replicate 12 0
    { c1 with links := { c1.links with dfe := mset [] c1.links.dfe l (tapMove old moves) } }
  else c1

/-! ## Progress and loss events of the link (R77, R79, R569) -/

/-- PLL_LOCKED: a PLL of a block locks, and ports in WAIT_PLL that it clocks go on. -/
def Chip.pllLocked (c : Chip) (k : Clk) (b : Nat) (high : Bool) : Chip :=
  let i := if high then 0 else 1
  if !c.rdB (Reg.lane_LB_STAT b) i then c
  else
    let c1 := c.wrF (Reg.lane_LB_STAT b) (i + 2) (i + 2) 1
    (List.range 16).foldl (fun c j =>
      let lp := 16 * b + j
      if c.lpActive lp && c.linkSt lp == 1 && c.needsPll (lp / 8) high then c.linkGo k lp (c.bringUp lp) false else c) c1

/-- A link event that acts in one state only. -/
def Chip.linkIn (c : Chip) (lp st : Nat) (f : Chip → Chip) : Chip :=
  if c.lpActive lp && decide (lp < 1152) && c.linkSt lp == st then f c else c

/-- AN_COMPLETE. -/
def Chip.anComplete (c : Chip) (k : Clk) (lp : Nat) : Chip :=
  c.linkIn lp 2 fun c => c.linkGo k lp (if c.ltEn lp then 3 else 4) false

/-- AN_FAIL: negotiation restarts (R62). -/
def Chip.anFail (c : Chip) (lp : Nat) : Chip :=
  c.linkIn lp 2 fun c => c.countF (Reg.port_LINK_CNT (lp / 8) (lp % 8)) 7 0

/-- Receive adaptation is part of training: the lanes' adaptations end with it (R77). -/
def Chip.trainAdapt (c : Chip) : List Nat → Chip
  | [] => c
  | l :: ls => ((c.wrF (laneReg Reg.lane_LN_STAT l) 3 0 0xE).laneEv l 0).trainAdapt ls

/-- TRAIN_DONE. -/
def Chip.trainDone (c : Chip) (k : Clk) (lp : Nat) : Chip :=
  c.linkIn lp 3 fun c => (c.trainAdapt (c.lanesOf lp)).linkGo k lp 5 false

/-- TRAIN_TMO. -/
def Chip.trainTmo (c : Chip) (k : Clk) (lp : Nat) : Chip :=
  c.linkIn lp 3 fun c =>
    (c.countF (Reg.port_LINK_CNT (lp / 8) (lp % 8)) 15 8).linkGo k lp (if c.anEn lp then 2 else 3) false

/-- ADAPT_TIMEOUT: adaptation restarts. -/
def Chip.adaptTmo (c : Chip) (k : Clk) (lp : Nat) : Chip := c.linkIn lp 4 fun c => c.linkGo k lp 4 false

/-- ALIGN_LOCK: the three locks are reached, unless the die link of the port has failed (R493). -/
def Chip.alignLock (c : Chip) (k : Clk) (lp : Nat) : Chip :=
  c.linkIn lp 5 fun c => if c.links.dieFail.contains (lp / 144) then c else (c.linkF lp 2 1 3).linkGo k lp 6 false

/-- ALIGN_TIMEOUT (R569). -/
def Chip.alignTmo (c : Chip) (k : Clk) (lp : Nat) : Chip := c.linkIn lp 5 fun c => c.linkGo k lp (c.bringUp lp) false

/-- A port delay of R80: the lane's fused part, the parts of the mode and those measured at CAL, and the board's. -/
def portDelay (fused : BitVec 24) (rest : Nat) (brd : Nat) : Nat := (fused.toNat + rest + brd) % 16777216

/-- CAL_DONE: the delays are computed and the link goes up (R77, R80, R82). `rx` and `tx` are the mode's design
constants with the parts measured at CAL. -/
def Chip.calDone (c : Chip) (k : Clk) (lp rx tx : Nat) : Chip :=
  c.linkIn lp 6 fun c =>
    let brdRx := c.rdF (laneReg Reg.lane_BRD_RX_DLY lp) 15 0
    let brdTx := c.rdF (laneReg Reg.lane_BRD_TX_DLY lp) 15 0
    let c1 := c.wr (Reg.port_PORT_RX_DLY (lp / 8) (lp % 8)) (wd (portDelay (Config.laneRxDelay lp) rx brdRx))
    let c2 := c1.wr (Reg.port_PORT_TX_DLY (lp / 8) (lp % 8)) (wd (portDelay (Config.laneTxDelay lp) tx brdTx))
    let c3 := c2.linkGo k lp 7 false
    if c3.linkSt lp == 7 then c3.raiseM (0x090 + lp / 8) (oneBit (8 + lp % 8) ||| oneBit (16 + lp % 8)) else c3

/-- A write of BRD_RX_DLY or BRD_TX_DLY of a lane: in UP and FAULT the delay of the port whose reference lane it is takes
the new board part (R82). -/
def Chip.brdWrite (c : Chip) (l : Nat) (tx : Bool) (v : Word) : Chip :=
  let a := laneReg (if tx then Reg.lane_BRD_TX_DLY else Reg.lane_BRD_RX_DLY) l
  let d := (if tx then Reg.port_PORT_TX_DLY else Reg.port_PORT_RX_DLY) (l / 8) (l % 8)
  let old := c.rdF a 15 0
  let c1 := c.wr a (v &&& 0xFFFF)
  if c.lpActive l && (c.linkSt l == 7 || c.linkSt l == 8) then
    c1.wrF d 23 0 ((c1.rdF d 23 0 + 16777216 - old + fld v 15 0) % 16777216)
  else c1

/-- What a loss condition touches: 0 signal, 1 CDR, 2 lock, 3 deskew (R77, R84, R86). -/
def Chip.lossBits (c : Chip) (lp l kind : Nat) : Chip :=
  let c1 := match kind with
    | 0 => (c.wrF (laneReg Reg.lane_LN_STAT l) 3 3 0).laneEv l 1
    | 1 => (c.wrF (laneReg Reg.lane_LN_STAT l) 2 2 0).laneEv l 2
    | _ => c
  let c2 := if kind = 3 then c1.linkF lp 2 2 0 else c1.linkF lp 1 1 0
  c2.linkF lp 3 3 1

/-- A loss condition begins on a port that is UP or FAULT; a frame in receipt loses codewords (R79). -/
def Chip.lossBegin (c : Chip) (lp : Nat) : Chip :=
  let c1 := if c.links.loss.contains lp then c else { c with links := { c.links with loss := c.links.loss ++ [lp] } }
  match c1.receiving lp with
  | some fid => c1.onFrame fid fun f => { f with fecBad := true }
  | none => c1

/-- LOSS_CONDITION on a lane of a port. -/
def Chip.lossCondition (c : Chip) (lp j kind : Nat) : Chip :=
  if c.lpActive lp && decide (lp < 1152) && (c.linkSt lp == 7 || c.linkSt lp == 8) then
    (c.lossBits lp (lp + j % modeLanes (c.portMode lp)) kind).lossBegin lp
  else c

/-- LOSS_CONDITION_CLEAR: the loss ends before LINK_DOWN_HOLD has run out (R79). A failed die link keeps its loss until it
is retrained (R493). -/
def Chip.lossClear (c : Chip) (lp : Nat) : Chip :=
  if c.links.loss.contains lp && !c.links.dieFail.contains (lp / 144) then
    let c1 := { c with links := { c.links with loss := c.links.loss.filter (· != lp) } }
    ((c1.lanesF 3 2 3 (c1.lanesOf lp)).linkF lp 2 1 3).linkF lp 3 3 0
  else c

/-- LINK_DOWN_HOLD_EXPIRY: the loss has persisted (R77). -/
def Chip.holdExpiry (c : Chip) (k : Clk) (lp : Nat) : Chip :=
  if !c.links.loss.contains lp then c
  else
    let cnt := Reg.port_LINK_CNT (lp / 8) (lp % 8)
    if c.linkSt lp = 7 then (c.countF cnt 31 16).linkGo k lp 4 true
    else if c.linkSt lp = 8 then (c.countF cnt 31 16).linkGo k lp 4 false
    else c

/-- REMOTE_FAULT received in UP. -/
def Chip.remoteFault (c : Chip) (k : Clk) (lp : Nat) : Chip :=
  c.linkIn lp 7 fun c => (c.linkF lp 4 4 1).linkGo k lp 8 true

/-- REMOTE_FAULT_CLEAR: clear for 1 ms, and no loss condition. -/
def Chip.remoteClear (c : Chip) (k : Clk) (lp : Nat) : Chip :=
  c.linkIn lp 8 fun c => if c.links.loss.contains lp then c else (c.linkF lp 4 4 0).linkGo k lp 7 true

/-! ## RS-FEC (R64) -/

/-- The number of symbols a mode's FEC corrects in a codeword: 15 for RS(544,514), 7 for RS(528,514). `none` without
FEC. -/
def Chip.fecLimit (c : Chip) (lp : Nat) : Option Nat :=
  if c.portMode lp < 6 then some 15 else if c.rdB (Reg.port_PORT_MODE (lp / 8)) 4 then none else some 7

/-- FEC_CODEWORD: a codeword with `errs` symbols in error is decoded. -/
def Chip.fecCodeword (c : Chip) (lp errs : Nat) : Chip :=
  match c.fecLimit lp with
  | none => c
  | some t =>
    if !c.lpActive lp ∨ 1152 ≤ lp ∨ c.linkSt lp < 5 ∨ 8 < c.linkSt lp then c
    else if errs ≤ t then
      let c1 := c.count (Reg.port_FEC_CORR_CNT (lp / 8) (lp % 8)) errs
      { c1 with links := { c1.links with fecWin := mset 0 c1.links.fecWin lp (mrd 0 c1.links.fecWin lp + errs) } }
    else
      let c1 := c.count (Reg.port_FEC_UNCORR_CNT (lp / 8) (lp % 8)) 1
      match c1.receiving lp with
      | some fid => c1.onFrame fid fun f => { f with fecBad := true }
      | none => c1

/-- FEC_DEGRADE_WINDOW: 1 ms has passed. -/
def Chip.fecWindow (c : Chip) (lp : Nat) : Chip :=
  let n := mrd 0 c.links.fecWin lp
  let c1 := { c with links := { c.links with fecWin := merase c.links.fecWin lp } }
  if c.rdF (Reg.port_FEC_CTL (lp / 8)) 31 16 < n then c1.raise (0x090 + lp / 8) 26 else c1

/-- HI_SER: hi_ser asserts; with HISER_EN it is a lock loss (R64, R77). -/
def Chip.hiSer (c : Chip) (lp : Nat) : Chip :=
  if c.lpActive lp ∧ lp < 1152 then
    let c1 := c.raise (0x090 + lp / 8) 25
    if c1.rdB (Reg.port_FEC_CTL (lp / 8)) 0 then c1.lossCondition lp 0 2 else c1
  else c

/-! ## Raw lane mode (R74 to R76) -/

/-- A write of LN_CFG: RAW_EN takes the port of the lane to RAW, and its last clearing back to DISABLED (R74, R77). -/
def Chip.lnCfgWrite (c : Chip) (k : Clk) (l : Nat) (v : Word) : Chip :=
  let c1 := c.wr (laneReg Reg.lane_LN_CFG l) (v &&& 0x80000003)
  let lp := c1.lpOfLane l
  let st := c1.linkSt lp
  if c1.rawLanes lp then (if st = 9 ∨ st = 10 then c1 else c1.linkSet k lp 10 (st == 7 || st == 8))
  else if st = 10 then (c1.linkSet k lp 0 false).linkTry k lp
  else c1

/-- A write of SLIP (R75). -/
def Chip.slipWrite (c : Chip) (l : Nat) (v : Word) : Chip :=
  let a := laneReg Reg.lane_SLIP_STAT l
  if !bit v 0 ∨ !c.rdB (laneReg Reg.lane_LN_CFG l) 31 then c
  else if 63 ≤ c.rdF a 5 0 then c.raise (0x040 + l / 16) 24
  else c.wrF a 5 0 (c.rdF a 5 0 + 1)

/-- SLIP_DONE: a queued slip takes effect. -/
def Chip.slipDone (c : Chip) (l : Nat) : Chip :=
  let a := laneReg Reg.lane_SLIP_STAT l
  if c.rdF a 5 0 = 0 then c
  else
    let c1 := c.wrF a 5 0 (c.rdF a 5 0 - 1)
    { c1 with links := { c1.links with boundary := mset 0 c1.links.boundary l ((mrd 0 c1.links.boundary l + 1) % 64) } }

/-- The checker's pattern of a lane: codes without a meaning for it act as 0 (R84). -/
def Chip.rxPat (c : Chip) (l : Nat) : Nat :=
  let n := c.rdF (laneReg Reg.lane_PRBS_CTL l) 11 8
  if n < 8 ∨ n = 9 then n else 0

/-- A lane whose checker runs: raw mode and CHK_EN. -/
def Chip.checks (c : Chip) (l : Nat) : Bool :=
  c.rdB (laneReg Reg.lane_LN_CFG l) 31 && c.rdB (laneReg Reg.lane_PRBS_CTL l) 1

/-- PRBS_WORD_CHECK: a 64-UI word with `errs` errored UIs is compared (R76). -/
def Chip.wordCheck (c : Chip) (l errs : Nat) : Chip :=
  let st := laneReg Reg.lane_PRBS_STAT l
  if !c.checks l then c
  else
    let user := c.rxPat l == 9
    let c1 := if user && errs == 0 then c.wrF st 1 1 1 else c
    let on := if user then c1.rdB st 1 else c1.rdB st 0
    let c2 := if on then c1.count (laneReg Reg.lane_PRBS_ERR_CNT l) errs else c1
    let clean := if errs = 0 then mrd 0 c2.links.cleanRun l + 1 else 0
    let bad := if 8 < errs then mrd 0 c2.links.badRun l + 1 else 0
    { c2 with links := { c2.links with cleanRun := mset 0 c2.links.cleanRun l (min clean 64),
                                       badRun := mset 0 c2.links.badRun l (min bad 16) } }

/-- PRBS_LOCK: 64 error-free words in a row (R76). -/
def Chip.prbsLock (c : Chip) (l : Nat) : Chip :=
  if c.checks l && c.rxPat l != 9 && mrd 0 c.links.cleanRun l == 64 then c.wrF (laneReg Reg.lane_PRBS_STAT l) 0 0 1 else c

/-- PRBS_LOCK_LOST: 16 words in a row each with more than 8 errored UIs (R76). -/
def Chip.prbsLost (c : Chip) (l : Nat) : Chip :=
  let st := laneReg Reg.lane_PRBS_STAT l
  if c.rdB st 0 && mrd 0 c.links.badRun l == 16 then (c.wrF st 0 0 0).laneEv l 3 else c

/-! ## Soft reset of a port page (R87) -/

/-- Every logical port of a port goes to DISABLED, with a flush of those that were UP or FAULT; lane power stays. -/
def Chip.portReset (c : Chip) (k : Clk) (p : Nat) : Nat → Chip
  | 0 => c
  | n + 1 => (c.portReset k p n).linkSet k (8 * p + n) 0 false

end Sys2Proof.Machine
end

