-- ==== Sys2Proof/Machine/Sched.lean ====
section
/-!
DEFINITION. Machine/Sched.lean: what the egress scheduler decides with: charged lengths, shapers and their timing
wheels, gate windows, and queue sampling (R279 to R305).
-/
namespace Sys2Proof.Machine

/-! ## Ports and queues of a reach -/

/-- The logical port with local index `n` of a reach: 72 is LP1152. -/
def lpAt (r n : Nat) : Nat := if n = 72 then 1152 else 72 * r + n

/-- Local queue index of queue `k` of local port `n`. -/
def lqAt (n k : Nat) : Nat := if n = 72 then 1440 + k else 20 * n + k

/-- Logical port and `k` of a global queue number (R256). -/
def lpk (q : Nat) : Nat × Nat := if q < 23040 then (q / 20, q % 20) else (1152, q - 23040)

/-- Local ports of a reach: reach 0 serves LP1152 too. -/
def reachPorts (r : Nat) : Nat := if r = 0 then 73 else 72

/-- Queues of a reach that hold copies. -/
def Chip.busyQueues (c : Chip) (r : Nat) : List Nat :=
  (c.sw.queues.filter fun kq => !kq.2.entries.isEmpty && reachOf (lpk kq.1).1 == r).map (·.1)

/-- The head copy of a queue. -/
def Chip.head (c : Chip) (q : Nat) : Option Nat := (c.queue q).entries.head?

/-- Nominal rate of an egress logical port in Gb/s; that of LP1152 is the 400 Gb/s of R542 (log 33). -/
def Chip.outRate (c : Chip) (lp : Nat) : Nat := if lp < 1152 then c.lpRate lp else 400

/-- An RWE field of the scheduler page as the active bank holds it. -/
def Chip.sch (c : Chip) (a hi lo : Nat) : Nat := c.rdEF c.bankB a hi lo

/-! ## Charged length and LEAD (R281, R282) -/

/-- L_c of a copy (R282). -/
def Chip.charged (c : Chip) (cp : Copy) : Nat :=
  let base := match mget c.frames cp.fid with
    | some f => if f.complete then f.stored else if f.lenKnown then c.expected f else c.maxLen f.inLp
    | none => 0
  base + c.sch (Reg.sched_SCH_PCFG (reachOf cp.lp) (localOf cp.lp)) 23 16 + (if cp.lp < 1152 then c.mscOverhead cp.lp else 0)

/-- One beat in device-time units. -/
def Chip.beatT (c : Chip) (k : Clk) : Nat := k.span c.beatUnits

/-- PORT_TX_DLY of a logical port in device-time units. -/
def Chip.txDly (c : Chip) (lp : Nat) : Nat :=
  if lp < 1152 then c.rdF (Reg.port_PORT_TX_DLY (lp / 8) (lp % 8)) 23 0 * (nsU / 256) else 0

/-- MACsec transmit is enabled on a logical port. -/
def Chip.mscTx (c : Chip) (lp : Nat) : Bool := decide (lp < 1152) && c.msc lp 31 31 == 1

/-- LEAD of a logical port (R281). -/
def Chip.lead (c : Chip) (k : Clk) (lp : Nat) : Nat :=
  (if c.mscTx lp then 11 else 7) * c.beatT k + 8 * nsU + c.txDly lp

/-- Δ of a logical port (R358). -/
def Chip.delta (c : Chip) (k : Clk) (lp : Nat) : Nat :=
  (if c.mscTx lp then 6 else 2) * c.beatT k + 8 * nsU + c.txDly lp

/-- Wire time of a charged or actual length with its 20 bytes of preamble and gap. -/
def Chip.wire (c : Chip) (lp n : Nat) : Nat := wireTime (c.outRate lp) (n + 20)

/-! ## Shapers and wheels (R286 to R290) -/

/-- Device-time units of a fine tick of 3.2 ns (R288). -/
def fineU : Nat := 16 * nsU / 5

/-- Key of a shaper's TAT: of a queue, or of a port. -/
def shpKey (r idx : Nat) (port : Bool) : Nat := if port then 1048576 + r * 128 + idx else r * 2048 + idx

/-- RATE in Mb/s and BURST in bytes of a shaper, from the active bank. -/
def Chip.shaper (c : Chip) (r idx : Nat) (port : Bool) : Nat × Nat :=
  if port then (c.sch (Reg.wheel_PSHAPE_RATE r idx) 21 0, c.sch (Reg.wheel_PSHAPE_BURST r idx) 23 0)
  else (c.sch (Reg.wheel_QSHAPE_RATE r idx) 21 0, c.sch (Reg.wheel_QSHAPE_BURST r idx) 23 0)

/-- Device-time units that `n` bytes take at a rate in Mb/s, rounded down to a unit (log 32). -/
def shapeTime (rate : Nat) (n : Int) : Int := (n * 8000 * nsU) / (rate : Nat)

/-- An entry is that of a shaper. -/
def WEntry.isOf (e : WEntry) (r idx : Nat) (port : Bool) : Bool := e.reach == r && e.idx == idx && e.port == port

/-- A shaper is on a wheel, or due and not yet released: it does not conform. -/
def Chip.onWheel (c : Chip) (r idx : Nat) (port : Bool) : Bool :=
  c.sw.wheel.any (·.isOf r idx port) || c.sw.released.any (·.isOf r idx port)

/-- A shaper governs a copy that is queued. -/
def Chip.backlogged (c : Chip) (r idx : Nat) (port : Bool) : Bool :=
  (c.busyQueues r).any fun q => if port then localOf (lpk q).1 == idx else (queueLoc q).2 == idx

/-- Where an entry for instant `e` goes at instant `t` (R289), and whether it lies beyond the coarse span. -/
def wheelSlot (e t : Nat) : Bool × Nat × Bool :=
  let k := (e + fineU - 1) / fineU
  let f := t / fineU
  if k - f ≤ 1023 then (false, k, false)
  else if k / 1024 - f / 1024 ≤ 1023 then (true, k / 1024 * 1024, false)
  else (true, (f / 1024 + 1023) * 1024, true)

/-- A shaper leaves the wheels. -/
def Chip.offWheel (c : Chip) (r idx : Nat) (port : Bool) : Chip :=
  { c with sw := { c.sw with wheel := c.sw.wheel.filter fun e => !e.isOf r idx port,
                             released := c.sw.released.filter fun e => !e.isOf r idx port } }

/-- A shaper that does not conform at `t` is placed; it is then in that one slot only (R287, R289). -/
def Chip.place (c : Chip) (r idx : Nat) (port : Bool) (t : Nat) : Chip :=
  let c1 := c.offWheel r idx port
  let (rate, burst) := c.shaper r idx port
  match mget c.sw.tat (shpKey r idx port) with
  | none => c1
  | some tat =>
    let e := tat - shapeTime rate burst
    if rate = 0 ∨ e ≤ t then c1
    else
      let (coarse, tick, far) := wheelSlot e.toNat t
      let c2 := if far then c1.count (Reg.wheel_WHEEL_FAR_CNT r) 1 else c1
      { c2 with sw := { c2.sw with wheel := c2.sw.wheel ++ [{ reach := r, idx, port, coarse, tick }] } }

/-- A copy is selected at `s`: the TAT of an enabled shaper advances, and it is placed if it governs a further copy
(R286, R287). -/
def Chip.charge (c : Chip) (r idx : Nat) (port : Bool) (s : Nat) (bytes : Int) : Chip :=
  let rate := (c.shaper r idx port).1
  if rate = 0 then c
  else
    let floor_ : Int := (s : Int) - (64 * nsU / 5 : Nat)
    let base := match mget c.sw.tat (shpKey r idx port) with | some t => max t floor_ | none => floor_
    let c1 := { c with sw := { c.sw with tat := mput c.sw.tat (shpKey r idx port) (some (base + shapeTime rate bytes)) } }
    if c1.backlogged r idx port then c1.place r idx port s else c1

/-- A settled copy changes the TAT of a shaper by the bytes it was charged wrongly (R283). -/
def Chip.recharge (c : Chip) (r idx : Nat) (port : Bool) (now_ : Nat) (bytes : Int) : Chip :=
  let rate := (c.shaper r idx port).1
  match mget c.sw.tat (shpKey r idx port) with
  | none => c
  | some t =>
    if rate = 0 ∨ bytes = 0 then c
    else
      let c1 := { c with sw := { c.sw with tat := mput c.sw.tat (shpKey r idx port) (some (t + shapeTime rate bytes)) } }
      if c1.onWheel r idx port || c1.backlogged r idx port then c1.place r idx port now_ else c1

/-- Both shapers of a queue are placed if they do not conform, when the queue becomes backlogged (R287). -/
def Chip.placeBacklog (c : Chip) (k : Clk) (q : Nat) : Chip :=
  let (r, l) := queueLoc q
  let n := localOf (lpk q).1
  let c1 := if c.onWheel r l false then c else c.place r l false k.tod
  if c1.onWheel r n true then c1 else c1.place r n true k.tod

/-- The due entry of a reach with the lowest tick, the first placed among equals. -/
def Chip.dueEntry (c : Chip) (r t : Nat) : Option WEntry :=
  (c.sw.wheel.filter fun e => e.reach == r && decide (e.tick * fineU ≤ t)).foldl (fun o e =>
    match o with
    | none => some e
    | some x => if e.tick < x.tick then some e else some x) none

/-- An entry leaves its wheel slot. -/
def Chip.dropEntry (c : Chip) (e : WEntry) : Chip := { c with sw := { c.sw with wheel := c.sw.wheel.filter (· != e) } }

/-- Releases of a reach counted in the present beat. -/
def Chip.countRelease (c : Chip) (r : Nat) : Chip :=
  { c with sw := { c.sw with relCount := mset 0 c.sw.relCount r (mrd 0 c.sw.relCount r + 1) } }

/-- The wheel slots of a reach whose tick has begun are serviced (R290): the shapers released, and the device. -/
def Chip.wheelDue (c : Chip) (r t : Nat) : Nat → List WEntry → List WEntry × Chip
  | 0, acc => (acc, c)
  | n + 1, acc =>
    match c.dueEntry r t with
    | none => (acc, c)
    | some e =>
      let c1 := c.dropEntry e
      if e.coarse then
        let c2 := c1.place r e.idx e.port (e.tick * fineU)
        c2.wheelDue r t n (if c2.onWheel r e.idx e.port then acc else acc ++ [e])
      else if mrd 0 c1.sw.relCount r < 64 ∧ (c1.sw.released.all fun x => x.reach != r) then
        (c1.countRelease r).wheelDue r t n (acc ++ [e])
      else ({ c1 with sw := { c1.sw with released := c1.sw.released ++ [e] } }).wheelDue r t n acc

/-- Deferred entries of a reach are released first, in order (R290). -/
def Chip.wheelDeferred (c : Chip) (r : Nat) : List WEntry → List WEntry → List WEntry × Chip
  | [], acc => (acc, c)
  | e :: es, acc =>
    if e.reach ≠ r ∨ 64 ≤ mrd 0 c.sw.relCount r then c.wheelDeferred r es acc
    else
      let c1 := { c with sw := { c.sw with released := c.sw.released.filter (· != e) } }
      (((c1.countRelease r).count (Reg.wheel_WHEEL_DEFER_CNT r) 1).raise (Reg.pg_wheel r) 27).wheelDeferred r es (acc ++ [e])

/-- The wheels of a reach after a time step or a commit: every entry, and every backlogged shaper, is placed again
(R287, R303). -/
def Chip.wheelReplace (c : Chip) (k : Clk) (r : Nat) : Chip :=
  let es := (c.sw.wheel ++ c.sw.released).filter (·.reach == r)
  let c1 := es.foldl (fun c e => c.place r e.idx e.port k.tod) c
  (c1.busyQueues r).foldl (fun c q => c.placeBacklog k q) c1

/-! ## Gate windows (R291 to R294, R296) -/

/-- Key of a gate-list entry. -/
def gateKey (b : Bool) (r n e : Nat) : Nat := b.toNat * 131072 + r * 8192 + n * 64 + e

/-- The enabled entries of a port's gate list in a bank; an entry in error acts as EN 0 (R305). -/
def Chip.gateList (c : Chip) (b : Bool) (r n : Nat) : List Gate :=
  (c.sw.gates.filter fun kg => gateKey b r n 0 ≤ kg.1 && kg.1 < gateKey b r n 64 && bit kg.2.ctl 31 &&
    !(mget c.upsets (upKey (Reg.pg_sched r) b.toNat (kg.1 % 8192))).any (·.unc)).map (·.2)

/-- The gate configuration a bank gives a port: enabled entries that pass R292, GATE_EN 0 where GCYCLE is 0. -/
def Chip.gateCfg (c : Chip) (b : Bool) (r n : Nat) : GateCfg :=
  let cyc := min 1000000000 (c.rdEF b (Reg.sched_GCYCLE r n) 29 0)
  if n = 72 ∨ c.rdEF b (Reg.sched_SCH_PCFG r n) 31 31 = 0 ∨ cyc = 0 then
    { enabled := false, gated := 0, cycle := 0, base := 0, list := [], switchAt := 0 }
  else
    { enabled := true, gated := c.rdEF b (Reg.sched_GATED r n) 19 0, cycle := cyc
      base := ((c.rdE b (Reg.sched_GBASE_SEC_HI r n)).toNat * 4294967296 + (c.rdE b (Reg.sched_GBASE_SEC_LO r n)).toNat) *
          1000000000 + c.rdEF b (Reg.sched_GBASE_NS r n) 29 0
      list := (c.gateList b r n).filter fun g => decide (g.open_ < g.close) && decide (g.close ≤ cyc)
      switchAt := 0 }

/-- A gate configuration that R292 faults. -/
def Chip.gateErr (c : Chip) (b : Bool) (r n : Nat) : Bool :=
  let g := c.gateCfg b r n
  n != 72 && c.rdEF b (Reg.sched_SCH_PCFG r n) 31 31 == 1 &&
    (!g.enabled || g.list.length != (c.gateList b r n).length ||
      (List.range 20).any fun k => g.gated.testBit k && !g.list.any fun e => bit e.ctl k)

/-- The gate configuration of a port that governs a departure `d`, and the switch instant that clips its windows. -/
def Chip.gateAt (c : Chip) (lp : Nat) (d : Int) : GateCfg × Option Int :=
  match mget c.sw.oldGates lp with
  | some g => if d < (g.switchAt : Nat) then (g, some (g.switchAt : Nat)) else (c.gateCfg c.bankB (reachOf lp) (localOf lp), none)
  | none => (c.gateCfg c.bankB (reachOf lp) (localOf lp), none)

/-- A queue is held by the gate of a configuration. -/
def GateCfg.holds (g : GateCfg) (k : Nat) : Bool := g.enabled && g.gated.testBit k

/-- The windows of a configuration that admitFrame queue `k` and contain instant `d`: their closes, and PREEMPT. -/
def GateCfg.windows (g : GateCfg) (k : Nat) (d : Int) (clip : Option Int) : List (Int × Bool) :=
  let start : Int := (g.base : Int) * nsU + (d - (g.base : Int) * nsU) / ((g.cycle * nsU : Nat) : Int) * ((g.cycle * nsU : Nat) : Int)
  (g.list.filter fun e => bit e.ctl k && decide (start + (e.open_ * nsU : Nat) ≤ d) &&
      decide (d < start + (e.close * nsU : Nat))).filterMap fun e =>
    let hi : Int := start + (e.close * nsU : Nat)
    let h := match clip with | some x => min hi x | none => hi
    if d < h then some (h, bit e.ctl 30) else none

/-- Whether a copy of queue `k` may depart at `d` with wire time `w` (R293): `none` when it may not, else the close that
bounds it and whether PREEMPT waived its fit. -/
def Chip.gateOpen (c : Chip) (lp k : Nat) (d : Int) (w : Nat) (level : Bool) : Option (Option Int × Bool) :=
  let (g, clip) := c.gateAt lp d
  if !g.holds k then some (none, false)
  else
    let ws := g.windows k d clip
    match ws.find? fun x => decide (d + w ≤ x.1) with
    | some x => some (some x.1, false)
    | none =>
      match ws.find? fun x => x.2 && !level with
      | some x => some (some x.1, true)
      | none => none

/-- A copy fits no window of its queue, and none has PREEMPT (R294). -/
def Chip.oversize (c : Chip) (s : Int) (lp k : Nat) (w : Nat) : Bool :=
  let (g, _) := c.gateAt lp s
  let ws := g.list.filter fun e => bit e.ctl k
  g.holds k && !ws.isEmpty && ws.all fun e => !bit e.ctl 30 && decide ((e.close - e.open_) * nsU < w)

/-- A new gate configuration of a port is checked as it becomes active (R292, R296). -/
def Chip.gateTakes (c : Chip) (lp : Nat) : Chip :=
  let r := reachOf lp
  let c1 := c.raise (Reg.pg_sched r) 22
  if c1.gateErr c1.bankB r (localOf lp) then c1.raise (Reg.pg_sched r) 24 else c1

/-- The gate settings of a port as a bank holds them: GATE_EN, GATED, GCYCLE, GBASE and the list. -/
def Chip.gateRaw (c : Chip) (b : Bool) (r n : Nat) : List Nat × List (Nat × Gate) :=
  ([c.rdEF b (Reg.sched_SCH_PCFG r n) 31 31, c.rdEF b (Reg.sched_GATED r n) 19 0, c.rdEF b (Reg.sched_GCYCLE r n) 29 0,
    (c.rdE b (Reg.sched_GBASE_SEC_HI r n)).toNat, (c.rdE b (Reg.sched_GBASE_SEC_LO r n)).toNat,
    c.rdEF b (Reg.sched_GBASE_NS r n) 29 0],
   (c.sw.gates.filter fun kg => decide (gateKey b r n 0 ≤ kg.1) && decide (kg.1 < gateKey b r n 64)).map fun kg => (kg.1 % 64, kg.2))

/-- The commit switched the banks: a port whose gate settings changed keeps its old configuration until the switch
instant (R296). A port whose settings the commit leaves as they were has no new configuration (DEDUCED, log 34). -/
def Chip.gateCommit (c : Chip) (k : Clk) (lp : Nat) : Chip :=
  let r := reachOf lp
  let n := localOf lp
  let new_ := c.gateCfg c.bankB r n
  let old := match mget c.sw.oldGates lp with
    | some g => { g with switchAt := 0 }
    | none => c.gateCfg (!c.bankB) r n
  if c.gateRaw true r n = c.gateRaw false r n ∧ (mget c.sw.oldGates lp).isNone then c
  else if !new_.enabled then ({ c with sw := { c.sw with oldGates := merase c.sw.oldGates lp } }).gateTakes lp
  else
    let cyc := new_.cycle * nsU
    let ph := new_.base * nsU % cyc
    let sw := if k.tod % cyc ≤ ph then k.tod - k.tod % cyc + ph else k.tod - k.tod % cyc + cyc + ph
    { c with sw := { c.sw with oldGates := mput c.sw.oldGates lp (some { old with switchAt := sw }) } }

/-- GATE_SWITCH: the switch instant of a port has come. -/
def Chip.gateSwitch (c : Chip) (k : Clk) (lp : Nat) : Chip :=
  match mget c.sw.oldGates lp with
  | none => c
  | some g =>
    if k.tod < g.switchAt then c
    else ({ c with sw := { c.sw with oldGates := merase c.sw.oldGates lp } }).gateTakes lp

/-! ## The GATE window (R302) -/

/-- A GATE_CMD completes. -/
def Chip.gateDone (c : Chip) (r st : Nat) : Chip := (c.wr (Reg.sched_GATE_STATUS r) (wd st)).raise (Reg.pg_sched r) 0

/-- AUTO_INC after a completed command. -/
def Chip.gateAdvance (c : Chip) (r : Nat) : Chip :=
  let a := Reg.sched_GATE_ADDR r
  if c.rdB a 31 then
    let n := c.rdF a 14 8 * 64 + c.rdF a 5 0 + 1
    (c.wrF a 5 0 (n % 64)).wrF a 14 8 (n / 64)
  else c

/-- A write of GATE_CMD (R302): `false` when it is an access error of kind 1. -/
def Chip.gateCmd (c : Chip) (r : Nat) (v : Word) : Bool × Chip :=
  let n := c.rdF (Reg.sched_GATE_ADDR r) 14 8
  let e := c.rdF (Reg.sched_GATE_ADDR r) 5 0
  let op := fld v 1 0
  if op = 0 then (true, c)
  else if op = 3 ∨ 71 < n then (true, c.gateDone r stBadArg)
  else if op = 1 then
    if !c.staging then (false, c.gateDone r stDenied)
    else
      let g : Gate := { open_ := c.rdF (Reg.sched_GATE_DATA_OPEN r) 29 0, close := c.rdF (Reg.sched_GATE_DATA_CLOSE r) 29 0,
                        ctl := c.rd (Reg.sched_GATE_DATA_MASK r) }
      let key := gateKey (!c.bankB) r n e
      let c1 := { c with sw := { c.sw with gates := mset { open_ := 0, close := 0, ctl := 0 } c.sw.gates key g } }
      (true, ((c1.rewrite (Reg.pg_sched r) (!c.bankB).toNat (key % 8192)).gateAdvance r).gateDone r stOk)
  else
    let b := if c.staging && c.rdB (Reg.PAGE_CTL (Reg.pg_sched r)) 4 then !c.bankB else c.bankB
    let g := mrd { open_ := 0, close := 0, ctl := 0 } c.sw.gates (gateKey b r n e)
    let c1 := (((c.wr (Reg.sched_GATE_DATA_OPEN r) (wd g.open_)).wr (Reg.sched_GATE_DATA_CLOSE r) (wd g.close)).wr
      (Reg.sched_GATE_DATA_MASK r) g.ctl).wr (Reg.sched_GATE_DATA_RSV r) 0
    (true, (c1.gateAdvance r).gateDone r stOk)

/-! ## Sampling (R298, R299) -/

/-- One queue of a reach is sampled at device time `t`. -/
def Chip.sampleQueue (c : Chip) (r l : Nat) (t : Nat) : Chip :=
  let q := if l < 1440 then 1440 * r + l else 23040 + (l - 1440)
  let depth := min 16777215 (c.qDepth q)
  let soj := match c.head q with
    | some cid => match mget c.sw.copies cid with
      | some cp => min 4294967295 ((t - cp.linkTime) / nsU)
      | none => 0
    | none => 0
  let d0 := c.rdF (Reg.gauge_LAST_DEPTH r l) 23 0
  let s0 := (c.rd (Reg.gauge_LAST_SOJ r l)).toNat
  let dth := c.rdF (Reg.gauge_DEPTH_TH r l) 23 0
  let sth := (c.rd (Reg.gauge_SOJ_TH r l)).toNat
  let c1 := (c.wr (Reg.gauge_LAST_DEPTH r l) (wd depth)).wr (Reg.gauge_LAST_SOJ r l) (wd soj)
  let c2 := c1.wr (Reg.gauge_MAX_DEPTH r l) (wd (max depth (c1.rdF (Reg.gauge_MAX_DEPTH r l) 23 0)))
  let c3 := c2.wr (Reg.gauge_MAX_SOJ r l) (wd (max soj (c2.rd (Reg.gauge_MAX_SOJ r l)).toNat))
  if (dth ≠ 0 ∧ dth ≤ depth ∧ d0 < dth) ∨ (sth ≠ 0 ∧ sth ≤ soj ∧ s0 < sth) then
    c3.pend (Reg.pg_gauge r) (Reg.gauge_TH_PEND r (l / 32)) (oneBit (l % 32)) 27
  else c3

/-- Queues of a reach that a sample can change: those that hold copies, and those whose gauges show a sample. An empty
queue whose gauges read zero stays so. -/
def Chip.sampled (c : Chip) (r : Nat) : List Nat :=
  (List.range (if r = 0 then 1456 else 1440)).filter fun l =>
    let q := if l < 1440 then 1440 * r + l else 23040 + (l - 1440)
    (c.head q).isSome || c.rd (Reg.gauge_LAST_DEPTH r l) != 0 || c.rd (Reg.gauge_LAST_SOJ r l) != 0

end Sys2Proof.Machine
end

