-- ==== Sys2Proof/Machine/Select.lean ====
section
/-!
DEFINITION. Machine/Select.lean: which copies the scheduler of a reach selects at a beat boundary (R279 to R287,
R300, R354 to R360, R540).
-/
namespace Sys2Proof.Machine

/-! ## Deficits and service order (R279, R284) -/

/-- DEFICIT of a queue, signed. -/
def Chip.deficit (c : Chip) (r l : Nat) : Int := signed 25 (c.rdF (Reg.sched_DEFICIT r l) 24 0)

/-- DEFICIT of a queue given a value, in two's complement. -/
def Chip.setDeficit (c : Chip) (r l : Nat) (v : Int) : Chip := c.wr (Reg.sched_DEFICIT r l) (wd (v % 33554432).toNat)

/-- MQ_MAP places multicast queue `m` in the weighted group. -/
def Chip.mqWeighted (c : Chip) (r n m : Nat) : Bool := n != 72 && c.sch (Reg.sched_MQ_MAP r n) (8 * m + 7) (8 * m + 7) == 1

/-- Queue of a ring position: Q4 to Q15, then MQ0 to MQ3. -/
def ringQueue (p : Nat) : Nat := 4 + p

/-- Queue `k` of local port `n` is a member of the weighted group. -/
def Chip.weighted (c : Chip) (r n k : Nat) : Bool :=
  (decide (4 ≤ k) && decide (k < 16)) || (decide (16 ≤ k) && c.mqWeighted r n (k - 16))

/-- Members of a strict level 0 to 3, ascending (R279). -/
def Chip.levelMembers (c : Chip) (r n lvl : Nat) : List Nat :=
  lvl :: (if n = 72 then [] else ((List.range 4).filter fun m =>
    !c.mqWeighted r n m && c.sch (Reg.sched_MQ_MAP r n) (8 * m + 1) (8 * m) == lvl).map (16 + ·))

/-- CUR of a port as a queue number; a queue that is no member gives way to the next member in ring order (R284). -/
def Chip.curOf (c : Chip) (r n : Nat) : Nat :=
  let p := mrd 0 c.sw.cur (lpAt r n)
  match ((List.range 16).map fun i => ringQueue ((p + i) % 16)).find? (c.weighted r n) with
  | some k => k
  | none => 4

/-- CUR moves to a member. -/
def Chip.setCur (c : Chip) (r n k : Nat) : Chip :=
  { c with sw := { c.sw with cur := mset 0 c.sw.cur (lpAt r n) (k - 4) } }

/-! ## Eligibility at the start of a beat (R280, R540) -/

/-- A copy that is level in the reach it leaves (R362). -/
def Chip.levelOf (c : Chip) (cp : Copy) : Option Int :=
  if c.enabled (Reg.pg_level (reachOf cp.lp)) then cp.level.map (·.2) else none

/-- The RX ring of host queue `h`, when it can take copies: enabled, running and of kind RX (R535, R540). -/
def Chip.hqRing (c : Chip) (h : Nat) : Option Nat :=
  let g := c.rdF (Reg.dma_HQ_RING h) 5 0
  let cfg := c.rd (Reg.ringblk_RING_CFG (g / 8) (g % 8))
  if bit cfg 31 && fld cfg 1 0 == 2 && c.rdF (Reg.ringblk_RING_STAT (g / 8) (g % 8)) 1 0 == 1 then some g else none

/-- Entries of a ring (R535). -/
def Chip.ringSize (c : Chip) (g : Nat) : Nat := 2 ^ max 6 (min 16 (c.rdF (Reg.ringblk_RING_CFG (g / 8) (g % 8)) 28 24))

/-- Bytes of a buffer of an RX ring (R539). -/
def Chip.ringBuf (c : Chip) (g : Nat) : Nat := max 1 (min 16 (c.rdF (Reg.ringblk_RING_CFG (g / 8) (g % 8)) 20 16)) * 1024

/-- Descriptors of a ring given to the device and not yet completed. -/
def Chip.ringOffered (c : Chip) (g : Nat) : Nat :=
  let size := c.ringSize g
  (c.rdF (Reg.ringblk_RING_TAIL (g / 8) (g % 8)) 15 0 % size + size - c.rdF (Reg.ringblk_RING_HEAD (g / 8) (g % 8)) 15 0 % size) % size

/-- Descriptors that host copies already selected will take from a ring. -/
def Chip.ringPromised (c : Chip) (g : Nat) : Nat :=
  c.sw.copies.foldl (fun n kc =>
    if kc.2.lp == 1152 && kc.2.begun && c.rdF (Reg.dma_HQ_RING (kc.2.q - 23040)) 5 0 == g then
      n + (kc.2.lc + c.ringBuf g - 1) / c.ringBuf g
    else n) 0

/-- The receive ring of a host queue has descriptors for a copy of charged length `lc`. -/
def Chip.hostRoom (c : Chip) (h lc : Nat) : Bool :=
  match c.hqRing h with
  | none => false
  | some g => decide (c.ringPromised g + (lc + c.ringBuf g - 1) / c.ringBuf g ≤ c.ringOffered g)

/-- A copy is selectable (R261, R262, R315). -/
def Chip.selectable (c : Chip) (cp : Copy) : Bool :=
  cp.pos == .queued && !cp.spill.isWritten && !cp.spill.isReturning &&
    match mget c.frames cp.fid with
    | some f => f.failed.isNone && (cp.ct || f.complete)
    | none => false

/-- The conditions of R280 that the start of the beat decides; lane power apart. -/
def Chip.eligible (c : Chip) (q : Nat) (cp : Copy) : Bool :=
  let cls := cClass cp.carry % 8
  let (r, l) := queueLoc q
  c.selectable cp &&
    (cp.lp == 1152 || !c.rxPaused cp.lp cls || c.stormed cp.lp cls) &&
    !c.onWheel r l false && !c.onWheel r (localOf cp.lp) true &&
    (if cp.lp = 1152 then c.hostRoom (q - 23040) (c.charged cp) else c.fwdUp cp.lp)

/-- Lanes of a port are QUIET or leave QUIET. -/
def Chip.asleep (c : Chip) (lp : Nat) : Bool := lp != 1152 && (c.lpPower lp == 1 || (mget c.links.moving lp).isSome)

/-- The heads of a reach's queues at the start of a beat: each with its eligibility. A copy that could be selected, or a
level copy, takes a QUIET port back to ACTIVE (R71, R357). -/
def Chip.snapshot (c : Chip) (r : Nat) : Chip :=
  (c.busyQueues r).foldl (fun c q =>
    match c.head q with
    | none => c
    | some cid =>
      match mget c.sw.copies cid with
      | none => c
      | some cp =>
        let ok := c.eligible q cp
        let c1 := if c.asleep cp.lp && (ok || (c.levelOf cp).isSome) then c.quietExit cp.lp else c
        { c1 with sw := { c1.sw with heads := mput c1.sw.heads q (some (cid, ok && !c.asleep cp.lp)) } })
    { c with sw := { c.sw with heads := c.sw.heads.filter fun kv => reachOf (lpk kv.1).1 != r } }

/-- Shapers released by the wheels conform from the beat that began at the last boundary (R290): heads they govern are
tested again. -/
def Chip.reawake (c : Chip) (r : Nat) (es : List WEntry) : Chip :=
  let hs := c.sw.heads.map fun kv =>
    let (rr, l) := queueLoc kv.1
    let n := localOf (lpk kv.1).1
    if rr == r && es.any (fun e => if e.port then e.idx == n else e.idx == l) then
      match mget c.sw.copies kv.2.1 with
      | some cp => (kv.1, (kv.2.1, c.eligible kv.1 cp && !c.asleep cp.lp))
      | none => kv
    else kv
  { c with sw := { c.sw with heads := hs } }

/-- WHEEL_SERVICE of a reach (R290): at most 64 shapers are released in a beat. -/
def Chip.wheelService (c : Chip) (k : Clk) (r : Nat) : Chip :=
  let (a, c1) := c.wheelDeferred r c.sw.released []
  let (b, c2) := c1.wheelDue r k.tod (2 * c1.sw.wheel.length + 1) a
  let t := k.tod / fineU
  (c2.wr (Reg.wheel_WHEEL_STAT r) (wd (t / 1024 % 1024 * 65536 + t % 1024))).reawake r b

/-! ## Whether a head may be selected at `s` (R280, R281, R293, R357) -/

/-- Targets of the level copies at the heads of a port's queues. -/
def Chip.headTargets (c : Chip) (r n : Nat) : List Int :=
  (c.busyQueues r).filterMap fun q =>
    if localOf (lpk q).1 = n then
      match c.head q with
      | some cid => match mget c.sw.copies cid with | some cp => c.levelOf cp | none => none
      | none => none
    else none

/-- What a selection fixes: the copy, its departure, charged length, and the window that admits it. -/
structure Pick where
  cid : Nat
  d : Int
  lc : Nat
  close : Option Int
  pre : Bool

/-- The head of queue `k` of local port `n` as it may be selected in the beat that ends at `s`: a selection earlier in the
beat that leaves a shaper of the queue not conforming ends its eligibility (R287). -/
def Chip.pick? (c : Chip) (clk : Clk) (r n k : Nat) (s : Int) : Option Pick :=
  let lp := lpAt r n
  let q := queueNo lp k
  match c.head q, mget c.sw.heads q with
  | some cid, some (h, true) =>
    match mget c.sw.copies cid with
    | none => none
    | some cp =>
      let lc := c.charged cp
      let w := c.wire lp lc
      let p := mrd 0 c.sw.wireFree lp
      let beat : Int := (c.beatT clk : Nat)
      let edge : Int := s + (c.lead clk lp : Nat) + beat
      if h ≠ cid ∨ !c.selectable cp ∨ c.onWheel r (lqAt n k) false ∨ c.onWheel r n true ∨ (lp ≠ 1152 ∧ !c.fwdUp lp) ∨
          edge < p then none
      else
        match c.levelOf cp with
        | some t =>
          let win : Int := (max 1 (c.sch (Reg.level_LR_CTL r) 3 0) : Nat)
          if edge ≤ t ∧ t - edge < win * beat ∧ p ≤ t then
            (c.gateOpen lp k t w true).map fun x => { cid, d := t, lc, close := x.1, pre := false }
          else none
        | none =>
          let d := max (s + (c.lead clk lp : Nat)) p
          if (c.headTargets r n).all fun t => decide (d + w ≤ t) then
            (c.gateOpen lp k d w false).map fun x => { cid, d, lc, close := x.1, pre := x.2 }
          else none
  | _, _ => none

/-- The next of a list of queues in turn after the one served last: lowest above it first, then from the start. -/
def inTurn (last : Nat) (ks : List Nat) : List Nat := ks.filter (last ≤ ·) ++ ks.filter (· < last)

/-- A pick from the strict levels (R279), and the device with the turn moved on. -/
def Chip.pickStrict (c : Chip) (clk : Clk) (r n : Nat) (s : Int) : List Nat → Option (Nat × Pick × Chip)
  | [] => none
  | lvl :: ls =>
    let key := 4 * lpAt r n + lvl
    match (inTurn (mrd 0 c.sw.turn key) (c.levelMembers r n lvl)).findSome? fun k => (c.pick? clk r n k s).map fun p => (k, p) with
    | some (k, p) => some (k, p, { c with sw := { c.sw with turn := mset 0 c.sw.turn key (k + 1) } })
    | none => c.pickStrict clk r n s ls

/-- QUANTUM of a queue; values below 64 act as 64 (R284). -/
def Chip.quantum (c : Chip) (r l : Nat) : Nat := max 64 (c.sch (Reg.sched_QUANTUM r l) 23 0)

/-- Visits of a member until a copy of charged length `lc` fits (R285): at least one. -/
def visits (deficit : Int) (quantum lc : Nat) : Nat :=
  let need := (lc : Int) - deficit
  if need ≤ quantum then 1 else ((need + quantum - 1) / quantum).toNat

/-- `v` visits of a member add quanta, saturating at 2^24 − 1. -/
def Chip.addQuanta (c : Chip) (r l v : Nat) : Chip :=
  if v = 0 then c else c.setDeficit r l (min 16777215 (c.deficit r l + (v * c.quantum r l : Nat)))

/-- A pick from the weighted group (R284, R285). The visits of step 2 are made in one go: the member that needs the
fewest turns, the first in ring order among equals, is the one a sequence of single visits would reach. -/
def Chip.pickWeighted (c : Chip) (clk : Clk) (r n : Nat) (s : Int) : Option (Nat × Pick × Chip) :=
  let cur := c.curOf r n
  let l (k : Nat) : Nat := lqAt n k
  let first := match c.pick? clk r n cur s with
    | some p => if (p.lc : Int) ≤ c.deficit r (l cur) then some p else none
    | none => none
  match first with
  | some p => some (cur, p, c.setDeficit r (l cur) (c.deficit r (l cur) - p.lc))
  | none =>
    let order := ((List.range 16).map fun i => ringQueue ((cur - 4 + 1 + i) % 16)).filter (c.weighted r n)
    let turn := order.filterMap fun k => (c.pick? clk r n k s).map fun p => (k, p, visits (c.deficit r (l k)) (c.quantum r (l k)) p.lc)
    match turn.foldl (fun (o : Option (Nat × Pick × Nat)) x =>
        match o with | none => some x | some y => if x.2.2 < y.2.2 then some x else some y) none with
    | none => none
    | some (k, p, v) =>
      let before := turn.takeWhile fun x => x.1 != k
      let after := turn.filter fun x => x.1 != k && !before.any fun y => y.1 == x.1
      let c1 := before.foldl (fun c x => c.addQuanta r (l x.1) v) c
      let c2 := after.foldl (fun c x => c.addQuanta r (l x.1) (v - 1)) c1
      let c3 := (c2.addQuanta r (l k) v).setCur r n k
      some (k, p, c3.setDeficit r (l k) (c3.deficit r (l k) - p.lc))

/-- A port's pick: the strict levels, then the weighted group. -/
def Chip.pickPort (c : Chip) (clk : Clk) (r n : Nat) (s : Int) : Option (Nat × Pick × Chip) :=
  match c.pickStrict clk r n s [0, 1, 2, 3] with
  | some x => some x
  | none => c.pickWeighted clk r n s

/-! ## Taking a copy (R281, R286, R300) -/

/-- The ECN decision of R300: whether the copy is marked. A draw between the limits is a free value (log 13). -/
def Chip.ecnMark (c : Chip) (r l : Nat) : Bool × Chip :=
  let s := (c.rd (Reg.gauge_LAST_SOJ r l)).toNat
  let lo := c.rdF (Reg.gauge_ECN_CFG0 r l) 23 0
  let hi := c.rdF (Reg.gauge_ECN_CFG1 r l) 23 0
  if !c.rdB (Reg.gauge_ECN_CFG0 r l) 31 ∨ s < lo then (false, c)
  else if hi ≤ s ∨ hi ≤ lo then (true, c)
  else if s = lo then (false, c)
  else
    let (w, c1) := c.free
    (bit w 0, c1)

/-- DEP_OFF of the trace record (R367). -/
def depOff (d : Int) (tIn : Nat) : Nat := min 4294967295 ((d - tIn) / (qU : Nat)).toNat

/-- A copy is selected from queue `k`: BEGUN, out of its queue, charged and on its way to W10 (R255, R281, R286). -/
def Chip.take (c : Chip) (r n k : Nat) (s : Nat) (p : Pick) : Chip :=
  let lp := lpAt r n
  let l := lqAt n k
  let tIn := match mget c.sw.copies p.cid with
    | some cp => match mget c.frames cp.fid with | some f => f.tIn | none => 0
    | none => 0
  let (mark, c1) := c.ecnMark r l
  let c2 := if mark then c1.count (Reg.gauge_ECN_MARK_CNT r) 1 else c1
  let c3 := c2.onCopy p.cid fun x =>
    let m := cputN x.carry 0x2D4 4 (depOff p.d tIn)
    { x with pos := .egress 0, begun := true, spill := .none, dep := p.d, lc := p.lc, close := p.close, pre := p.pre,
             carry := if mark then cputN m 0x2CE 1 ((cbyte m 0x2CE).toNat ||| 64) else m }
  let c4 := c3.unlink p.cid (queueNo lp k)
  let c5 := { c4 with sw := { c4.sw with wireFree := mset 0 c4.sw.wireFree lp (p.d + c4.wire lp p.lc) } }
  let adj : Int := (p.lc : Int) + signed 8 (c5.sch (Reg.sched_SCH_PCFG r n) 7 0)
  (c5.charge r l false s adj).charge r n true s adj

/-- The ports of a reach that hold copies, in rotating order from `ptr` (R56, R281). -/
def Chip.portOrder (c : Chip) (r ptr : Nat) : List Nat :=
  let ns := (c.busyQueues r).map fun q => localOf (lpk q).1
  inTurn ptr ((List.range (reachPorts r)).filter ns.contains)

/-- One round over a list of ports: the copies taken, up to `room` (R281). -/
def Chip.round (c : Chip) (clk : Clk) (r : Nat) (s : Nat) : List Nat → List Nat → Nat → List Nat × Chip
  | [], acc, _ => (acc, c)
  | _ :: _, acc, 0 => (acc, c)
  | n :: ns, acc, room + 1 =>
    match c.pickPort clk r n s with
    | none => c.round clk r s ns acc (room + 1)
    | some (k, p, c1) =>
      let c2 := (c1.take r n k s p).onReach r fun x => { x with rot := (n + 1) % reachPorts r }
      c2.round clk r s ns (acc ++ [p.cid]) room

/-- Rounds until 32 copies are taken or no port can take one (R281). -/
def Chip.rounds (c : Chip) (clk : Clk) (r s : Nat) : Nat → List Nat → List Nat × Chip
  | 0, acc => (acc, c)
  | fuel + 1, acc =>
    let (l, c1) := c.round clk r s (c.portOrder r (c.reach r).rot) [] (32 - acc.length)
    if l.isEmpty then (acc, c1) else c1.rounds clk r s fuel (acc ++ l)

/-! ## What happens to heads (R271, R294, R359, R540) -/

/-- A level copy is late (R359): stage 1, 2 or 3. -/
def Chip.levelLate (c : Chip) (k : Clk) (cid stage : Nat) : Chip :=
  match mget c.sw.copies cid with
  | none => c
  | some cp =>
    let r := reachOf cp.lp
    let c1 := (c.count (Reg.level_LR_LATE_CNT r) 1).raise (Reg.pg_level r) 27
    let g := match cp.level with | some x => x.1 | none => 0
    let c2 := if c1.rdB (Reg.level_LR_LATE_LAST r) 31 then c1
      else c1.wr (Reg.level_LR_LATE_LAST r) (wd (0x80000000 + stage * 0x10000000 + localOf cp.lp * 0x100000 + g % 16384))
    c2.dropCopy k cid drLevel false

/-- The head of a queue is dropped where a rule says so: by the watchdog, for a ring that cannot take it, or as larger
than every window, tested in the beat in which it becomes head. The next head is then tested. -/
def Chip.cullHead (c : Chip) (k : Clk) (q : Nat) : Nat → Chip
  | 0 => c
  | fuel + 1 =>
    match c.head q with
    | none => c
    | some cid =>
      match mget c.sw.copies cid with
      | none => c
      | some cp =>
        let r := reachOf cp.lp
        if cp.lp ≠ 1152 ∧ c.wdDrops cp.lp (cClass cp.carry % 8) then (c.dropCopy k cid drWatchdog true).cullHead k q fuel
        else if cp.lp = 1152 ∧ (c.hqRing (q - 23040)).isNone then
          ((c.count Reg.dma_HQ_DROP_CNT 1).dropCopy k cid drPortDown false).cullHead k q fuel
        else if cp.lp ≠ 1152 ∧ (mget c.sw.heads q).map (·.1) ≠ some cid ∧
            c.oversize (k.tod : Nat) cp.lp (lpk q).2 (c.wire cp.lp (c.charged cp)) then
          (((c.count (Reg.sched_GATE_OVERSIZE_CNT r) 1).raise (Reg.pg_sched r) 27).dropCopy k cid drGate false).cullHead k q fuel
        else c

/-- Heads of a reach's queues are culled. -/
def Chip.cull (c : Chip) (k : Clk) (r : Nat) : Chip :=
  (c.busyQueues r).foldl (fun c q => c.cullHead k q (c.queue q).entries.length) c

/-- Level heads that were not selected and can no longer be in time are late at stage 1 (R359). -/
def Chip.lateHeads (c : Chip) (k : Clk) (r : Nat) : Chip :=
  (c.busyQueues r).foldl (fun c q =>
    match c.head q with
    | none => c
    | some cid =>
      match mget c.sw.copies cid with
      | none => c
      | some cp =>
        match c.levelOf cp with
        | some t => if t < (k.tod : Int) + (c.lead k cp.lp + c.beatT k : Nat) then c.levelLate k cid 1 else c
        | none => c) c

/-- Selection of a reach at the end of the beat that ends now, and the heads of the next beat. -/
def Chip.select (c : Chip) (k : Clk) (r : Nat) : List Nat × Chip :=
  let c0 := c.cull k r
  let (l, c1) := c0.rounds k r k.tod 33 []
  let c2 := c1.lateHeads k r
  (l, { c2 with sw := { c2.sw with relCount := merase c2.sw.relCount r } }.snapshot r)

/-! ## Commits and steps (R284, R287, R361) -/

/-- A commit changes MQ_MAP: multicast queues that leave the weighted group, and those that join it, have DEFICIT 0, and CUR
moves to a member (R284). -/
def Chip.mqCommit (c : Chip) (r n : Nat) : Chip :=
  let was (m : Nat) : Bool := bit (c.rdE (!c.bankB) (Reg.sched_MQ_MAP r n)) (8 * m + 7)
  let c1 := (List.range 4).foldl (fun c m => if was m != c.mqWeighted r n m then c.setDeficit r (lqAt n (16 + m)) 0 else c) c
  if c1.weighted r n (ringQueue (mrd 0 c1.sw.cur (lpAt r n))) then c1 else c1.setCur r n (c1.curOf r n)

/-- The scheduler of every reach at a commit beat: gate configurations, MQ_MAP. -/
def Chip.schedCommit (c : Chip) (k : Clk) : Chip :=
  (List.range 1152).foldl (fun c lp => (c.gateCommit k lp).mqCommit (reachOf lp) (localOf lp)) c

/-- Entries of a store of instants moved by `δ`; one that comes to read zero is not listed. -/
def shiftBy (m : SMap Int) (δ : Int) : SMap Int := (m.map fun kv => (kv.1, kv.2 + δ)).filter fun kv => kv.2 != 0

/-- A copy's departure and target moved by `δ`; one placed or on its wire keeps its distance from its target. -/
def Copy.shift (cp : Copy) (δ : Int) : Copy :=
  let level := cp.level.map fun g => (g.1, g.2 + δ)
  { cp with dep := cp.dep + δ, level, tOut := if cp.tOut = 0 then 0 else cp.tOut + δ }

/-- Device time steps by `δ`: every TAT, P, departure and target moves with it (R287, R361). -/
def Chip.schedStep (c : Chip) (δ : Int) : Chip :=
  { c with sw := { c.sw with
    tat := c.sw.tat.map fun kv => (kv.1, kv.2 + δ)
    wireFree := shiftBy c.sw.wireFree δ
    wireEnd := shiftBy c.sw.wireEnd δ
    copies := c.sw.copies.map fun kc => (kc.1, kc.2.shift δ) } }

end Sys2Proof.Machine
end

