-- ==== Sys2Proof/Machine/Flags.lean ====
section
/-!
DEFINITION. Machine/Flags.lean: what an ALU computes, the condition bits a comparison yields, and the mask
bits and branches that depend on them (R115, R117, R119).
-/
namespace Sys2Proof.Machine

/-- The minimum length of a word with an opcode, in clocks (R117). -/
def opClocks (op : Nat) : Nat := if op = 0x2B ∨ op = 0x2C ∨ op = 0x2F then 2 else 1

/-- m: the largest clock figure among the four opcodes of a word (R129). -/
def wordClocks (w : BitVec 256) : Nat :=
  max (max (opClocks (aluOp (mwAlu w 0))) (opClocks (aluOp (mwAlu w 1))))
    (max (opClocks (aluOp (mwAlu w 2))) (opClocks (aluOp (mwAlu w 3))))

/-- A condition as a word: 1 or 0. -/
def cond (b : Bool) : Word := if b then 1 else 0

/-- The ones'-complement sum of two 16-bit numbers with end-around carry. -/
def csum16 (a b : Nat) : Nat := (a + b) % 65536 + (a + b) / 65536

/-- Leading zeros of a word of `n` bits. -/
def clz (a : Word) : Nat → Nat
  | 0 => 0
  | n + 1 => if bit a n then 0 else 1 + clz a n

/-- Trailing zeros, from bit `i` with `n` bits left. -/
def ctz (a : Word) (i : Nat) : Nat → Nat
  | 0 => 0
  | n + 1 => if bit a i then 0 else 1 + ctz a (i + 1) n

/-- Bits set among the low `n`. -/
def popc (a : Word) : Nat → Nat
  | 0 => 0
  | n + 1 => (if bit a n then 1 else 0) + popc a n

/-- The mask of `w` low bits, `w` = 0 meaning 32. -/
def lowMask (w : Nat) : Word := if w = 0 then 0xFFFFFFFF else wd (2 ^ w - 1)

/-- The result of an opcode (R117): `none` when nothing is written. `old` is the destination's value at the
start of the word, `lor` the OR of A over the active lanes. -/
def aluResult (op : Nat) (a b imm old lor : Word) : Option Word :=
  let s := b.toNat % 32
  let w := b.toNat / 32 % 32
  match op with
  | 0x01 => some a
  | 0x02 => some (a + b)
  | 0x03 => some (a - b)
  | 0x04 => some (wd (clampTo 0xFFFFFFFF (a.toNat + b.toNat)))
  | 0x05 => some (wd (a.toNat - b.toNat))
  | 0x06 => some (a + 1)
  | 0x07 => some (a - 1)
  | 0x08 => some (a &&& b)
  | 0x09 => some (a ||| b)
  | 0x0A => some (a ^^^ b)
  | 0x0B => some (a &&& ~~~b)
  | 0x0C => some (~~~a)
  | 0x0D => some (a <<< s)
  | 0x0E => some (a >>> s)
  | 0x0F => some (a.sshiftRight s)
  | 0x10 => some (a.rotateLeft s)
  | 0x11 => some (a.rotateRight s)
  | 0x12 => some (cond (a == b))
  | 0x13 => some (cond (a != b))
  | 0x14 => some (cond (a.ult b))
  | 0x15 => some (cond (a.ule b))
  | 0x16 => some (cond (b.ult a))
  | 0x17 => some (cond (b.ule a))
  | 0x18 => some (cond (a.slt b))
  | 0x19 => some (cond (b.sle a))
  | 0x1A => some (if a.ult b then a else b)
  | 0x1B => some (if a.ult b then b else a)
  | 0x1C => some (if a.ult b then b - a else a - b)
  | 0x1D => if b = 0 then none else some a
  | 0x1E => some (cond ((a ^^^ b) &&& imm == 0))
  | 0x1F => some (cond ((a ^^^ b) &&& imm != 0))
  | 0x20 => some (cond (decide (b.toNat % 65536 ≤ a.toNat % 65536) && decide (a.toNat % 65536 ≤ b.toNat / 65536)))
  | 0x21 => some ((a >>> s) &&& lowMask w)
  | 0x22 => some ((old &&& ~~~(lowMask w <<< s)) ||| ((a &&& lowMask w) <<< s))
  | 0x23 => some (wd (leNat (wordBytesBE a)))
  | 0x24 => some (wd (clz a 32))
  | 0x25 => some (wd (ctz a 0 32))
  | 0x26 => some (wd (popc a 32))
  | 0x27 => some (wd (popc a 32 % 2))
  | 0x28 => some (a ||| oneBit s)
  | 0x29 => some (a &&& ~~~oneBit s)
  | 0x2A => some (cond (bit a s))
  | 0x2B => some (wd (a.toNat % 65536 * (b.toNat % 65536)))
  | 0x2C => some (wd (a.toNat % 65536 * (b.toNat % 65536) / 65536))
  | 0x2D => some (wd (a.toNat / 65536 * 65536 + csum16 (a.toNat % 65536) (b.toNat % 65536)))
  | 0x2E => some (wd (csum16 (a.toNat / 65536) (a.toNat % 65536)))
  | 0x2F => some lor
  | _ => none

/-- The mask bit after a write of a mask destination: MSET, MAND, MOR (R115). -/
def maskAfter (dst : Nat) (old : Bool) (res : Word) : Bool :=
  if dst = 0xD1 then res != 0 else if dst = 0xD2 then old && res != 0 else if dst = 0xD3 then old || res != 0 else old

/-- A destination is a mask destination. -/
def isMaskDst (dst : Nat) : Bool := dst == 0xD1 || dst == 0xD2 || dst == 0xD3

/-- A word whose bit n is set where a list of conditions holds at n. -/
def bitsOf (l : List Bool) : Word := wd (l.foldr (fun b acc => b.toNat + 2 * acc) 0)

/-- A BR code names NEXT (R120). -/
def brNamesNext (br : Nat) : Bool := (decide (1 ≤ br) && decide (br ≤ 7)) || br == 9

/-- What BR does (R119). -/
inductive Branch where
  | go (next : Nat)
  | call (next ret : Nat)
  | ret
  deriving DecidableEq, Repr

/-- The branch of a word: `any` and `all` are the masks after the word, `flag` the condition of codes 5 and 6.
Codes 10 to 15 act as SEQ. -/
def branchOf (br pc next : Nat) (any all cr flag : Bool) : Branch :=
  match br with
  | 1 => .go next
  | 2 => .go (if any then next else pc + 1)
  | 3 => .go (if any then pc + 1 else next)
  | 4 => .go (if all then next else pc + 1)
  | 5 => .go (if cr then next else pc + 1)
  | 6 => .go (if flag then next else pc + 1)
  | 7 => .call next (pc + 1)
  | 8 => .ret
  | 9 => if any then .call next (pc + 1) else .go (pc + 1)
  | _ => .go (pc + 1)

end Sys2Proof.Machine
end

