-- ==== Sys2Proof/Machine/Em.lean ====
section
/-!
DEFINITION. Machine/Em.lean: the exact-match store, its commands, bucket locks, relocation, learning and
aging (07_exact_match_and_learning.md).
-/
namespace Sys2Proof.Machine

/-! ## Command blocks (R181) -/

/-- A byte field of a block as a number. -/
def blkNat (b : List Byte) (at_ n : Nat) : Nat := beNat (slice b at_ n)

/-- A block with bytes replaced from `at_`. -/
def blkPut (b : List Byte) (at_ : Nat) (v : List Byte) : List Byte :=
  slice b 0 at_ ++ v ++ (slice b 0 64).drop (at_ + v.length)

/-- OP, KIND, INSTANCE byte, LOC, ARG of a block. -/
abbrev blkOp (b : List Byte) : Nat := blkNat b 0 1
abbrev blkKind (b : List Byte) : Nat := blkNat b 1 1
abbrev blkInst (b : List Byte) : Nat := blkNat b 2 1
abbrev blkLoc (b : List Byte) : Nat := blkNat b 4 4
abbrev blkArg (b : List Byte) : Nat := blkNat b 56 4

/-- Bucket and slot of a LOC. -/
def locBucket (l : Nat) : Nat := l / 8 % 262144
def locSlot (l : Nat) : Nat := l % 8
def mkLoc (b s : Nat) : Nat := b * 8 + s

/-- A block with its status. -/
def blkStatus (b : List Byte) (st : Nat) : List Byte := blkPut b 3 (beBytes 1 st)

/-- A block whose KEY, DATA, CTL and LOC describe an entry, with status OK (R181). -/
def blkEntry (b : List Byte) (e : Slot) (loc : Nat) : List Byte :=
  blkPut (blkPut (blkPut (blkPut (blkStatus b stOk) 4 (beBytes 4 loc)) 8 (slice e.key 0 16)) 24 (slice e.data 0 16)) 40 (beBytes 8 e.ctl.toNat)

/-! ## Slots (R172 to R177) -/

/-- The control bits of R177. -/
def ctlValid (c : BitVec 64) : Bool := c.getLsbD 63
def ctlStatic (c : BitVec 64) : Bool := c.getLsbD 61
def ctlPinned (c : BitVec 64) : Bool := c.getLsbD 60
def ctlHit (c : BitVec 64) : Bool := c.getLsbD 59

/-- A field `[hi:lo]` of a control word. -/
def ctlFld (c : BitVec 64) (hi lo : Nat) : Nat := (c.toNat >>> lo) % 2 ^ (hi + 1 - lo)

/-- A control word with the field `[hi:lo]` given a value. -/
def ctlSet (c : BitVec 64) (hi lo v : Nat) : BitVec 64 :=
  let m := (2 ^ (hi + 1 - lo) - 1) <<< lo
  (c &&& ~~~ BitVec.ofNat 64 m) ||| BitVec.ofNat 64 ((v % 2 ^ (hi + 1 - lo)) <<< lo)

/-- Whether a slot holds an entry. -/
def Slot.valid (e : Slot) : Bool := ctlValid e.ctl

/-- EN, SIZE and BASE of an instance. -/
def Chip.emEn (c : Chip) (i : Nat) : Bool := c.rdB (Reg.em_EM_GEOM i) 31
def Chip.emSize (c : Chip) (i : Nat) : Nat := c.rdF (Reg.em_EM_GEOM i) 24 16
def Chip.emBase (c : Chip) (i : Nat) : Nat := c.rdF (Reg.em_EM_GEOM i) 7 0

/-- N: the buckets of one choice (R172). -/
def Chip.emN (c : Chip) (i : Nat) : Nat := c.emSize i * 512

/-- Global bucket of a bucket of an instance (R172). -/
def Chip.emGlobal (c : Chip) (i b : Nat) : Nat := c.emBase i * 1024 + b

/-- An instance serves commands and lookups: enabled and not being cleared (R175, R176). -/
def Chip.emReady (c : Chip) (i : Nat) : Bool := c.emEn i && !c.tbl.emClearing.contains i

/-- h_c of a key (R173). -/
def Chip.emHash (c : Chip) (i ch : Nat) (key : List Byte) : Nat :=
  (crc32c (c.rd (if ch = 0 then Reg.em_EM_SEED0 i else Reg.em_EM_SEED1 i)) key).toNat

/-- The candidate bucket of a key in a choice (R173). -/
def Chip.emCand (c : Chip) (i ch : Nat) (key : List Byte) : Nat :=
  ch * c.emN i + (c.emHash i ch key * c.emN i) >>> 32

/-- A live slot. -/
def Chip.emSlot (c : Chip) (i b s : Nat) : Slot := mrd {} c.tbl.em (c.emGlobal i b * 8 + s)

/-- A live slot written at the end of its clock (R174); the rewrite mends an upset. -/
def Chip.emPut (c : Chip) (i b s : Nat) (e : Slot) : Chip :=
  let key := c.emGlobal i b * 8 + s
  ({ c with tbl := { c.tbl with em := mset {} c.tbl.em key e } }).rewrite 0x231 0 key

/-- Key of a lock. -/
def lockKey (i b : Nat) : Nat := i * 262144 + b

/-- The lock on a bucket, if it is held (R185). -/
def Chip.emLockOf (c : Chip) (i b : Nat) : Option BLock := mget c.tbl.locks (lockKey i b)

/-- A slot as lookups read it: the image of a locked bucket, the live slot otherwise (R185). -/
def Chip.emView (c : Chip) (i b s : Nat) : Slot :=
  match c.emLockOf i b with
  | some l => l.image[s]?.getD {}
  | none => c.emSlot i b s

/-- The lowest slot of a bucket for which a test holds, among slots 0 to 7. -/
def slotWhere (f : Nat → Bool) : Option Nat := (List.range 8).find? f

/-- The slot of a live bucket that holds a key. -/
def Chip.emFindIn (c : Chip) (i b : Nat) (key : List Byte) : Option Nat :=
  slotWhere fun s => (c.emSlot i b s).valid && (c.emSlot i b s).key == key

/-- Bucket and slot of the live slot that holds a key, choice 0 first. -/
def Chip.emFind (c : Chip) (i : Nat) (key : List Byte) : Option (Nat × Nat) :=
  let b0 := c.emCand i 0 key
  let b1 := c.emCand i 1 key
  match c.emFindIn i b0 key with
  | some s => some (b0, s)
  | none => (c.emFindIn i b1 key).map fun s => (b1, s)

/-- A free slot of a live bucket, the lowest. -/
def Chip.emFreeIn (c : Chip) (i b : Nat) : Option Nat := slotWhere fun s => !(c.emSlot i b s).valid

/-- A free slot for a key: choice 0 first, then the lowest slot (R182). -/
def Chip.emFree (c : Chip) (i : Nat) (key : List Byte) : Option (Nat × Nat) :=
  let b0 := c.emCand i 0 key
  let b1 := c.emCand i 1 key
  match c.emFreeIn i b0 with
  | some s => some (b0, s)
  | none => (c.emFreeIn i b1).map fun s => (b1, s)

/-- Either candidate bucket of a key is locked. -/
def Chip.emKeyLocked (c : Chip) (i : Nat) (key : List Byte) : Bool :=
  (c.emLockOf i (c.emCand i 0 key)).isSome || (c.emLockOf i (c.emCand i 1 key)).isSome

/-- Valid entries of an instance (EM_ENTRY_CNT). -/
def Chip.emCount (c : Chip) (i : Nat) : Nat :=
  let lo := c.emBase i * 8192
  let hi := lo + c.emSize i * 8192
  (c.tbl.em.filter fun kv => lo ≤ kv.1 && kv.1 < hi && kv.2.valid).length

/-- PORT_OFF of an instance: larger values act as 14. -/
def Chip.emPortOff (c : Chip) (i : Nat) : Nat := clampTo 14 (c.rdF (Reg.em_EM_CFG i) 3 0)

/-- The port field P of an entry (R193). -/
def Chip.emPort (c : Chip) (i : Nat) (e : Slot) : Nat := beNat (slice e.data (c.emPortOff i) 2) % 2048

/-- An entry with its port field replaced. -/
def Chip.emWithPort (c : Chip) (i : Nat) (e : Slot) (p : Nat) : Slot :=
  let o := c.emPortOff i
  let old := beNat (slice e.data o 2)
  { e with data := slice e.data 0 o ++ beBytes 2 (old / 2048 * 2048 + p % 2048) ++ (slice e.data 0 16).drop (o + 2) }

/-- The control bits a command may write under CTL_MASK: not VALID, not MOVING (R177). -/
def ctlWritable : BitVec 64 := 0x3FFFFFFF00000000

/-- A control word written under CTL_MASK. -/
def ctlMasked (old new mask : BitVec 64) : BitVec 64 :=
  (old &&& ~~~ (mask &&& ctlWritable)) ||| (new &&& mask &&& ctlWritable)

/-! ## Journal images -/

/-- A command block that describes an entry, as a BEFORE image (R445). -/
def emImage (i : Nat) (key : List Byte) (e : Option (Slot × Nat)) : List Byte :=
  let b := beBytes 1 1 ++ beBytes 1 1 ++ beBytes 1 i ++ List.replicate 61 0
  match e with
  | some (s, loc) => blkPut (blkEntry b s loc) 48 (List.replicate 8 0xFF)
  | none => blkPut b 8 key

/-- A change by an agent other than S2 is journalled (R437). -/
def emJournals (op agent : Nat) : Bool :=
  agent != sluiceAgent 2 && (op == 1 || op == 2 || op == 4 || op == 5 || op == 9)

/-! ## Relocation (R189, R190) -/

/-- The other candidate bucket of the entry in a slot. -/
def Chip.emOther (c : Chip) (i b : Nat) (e : Slot) : Nat :=
  let b0 := c.emCand i 0 e.key
  if b = b0 then c.emCand i 1 e.key else b0

/-- RELOCATE, its four writes taken together: no command touches either bucket between them (R189). -/
def Chip.emMove (c : Chip) (i b s b' s' : Nat) : Chip :=
  let e := c.emSlot i b s
  let c1 := c.emPut i b' s' { e with ctl := ctlSet (ctlSet e.ctl 63 63 1) 62 62 0 }
  let c2 := c1.emPut i b s { e with ctl := ctlSet e.ctl 63 62 0 }
  c2.count Reg.em_RELOC_CNT 1

/-- RELOCATE of the entry at `(b, s)` to slot `(b', s')`, by S3 (R189). -/
def Chip.emRelocate (c : Chip) (i b s b' s' : Nat) : Nat × Chip :=
  let e := c.emSlot i b s
  if (c.emLockOf i b).isSome || (c.emLockOf i b').isSome then (stLocked, c)
  else if !e.valid then (stNotFound, c)
  else if b' ≠ c.emOther i b e then (stBadArg, c)
  else if (c.emSlot i b' s').valid then (stFull, c)
  else (stOk, c.emMove i b s b' s')

/-- One level of S3's breadth-first search: the frontier is a list of (bucket, chain of slots that leads
to it, last first). The answer is a chain whose last entry's other bucket has a free slot, or the next
frontier. A locked bucket has no free slot (R190). The bucket of lowest number, then the lowest slot, first. -/
def Chip.emLevel (c : Chip) (i : Nat) :
    List (Nat × List (Nat × Nat)) → List (Nat × List (Nat × Nat)) →
    Option (List (Nat × Nat)) × List (Nat × List (Nat × Nat))
  | [], next => (none, next)
  | (b, path) :: rest, next =>
    let steps := (List.range 8).map fun s => (s, c.emOther i b (c.emSlot i b s))
    match steps.find? fun st => (c.emLockOf i st.2).isNone && (c.emFreeIn i st.2).isSome with
    | some st => (some ((b, st.1) :: path), [])
    | none => c.emLevel i rest (next ++ steps.map fun st => (st.2, (b, st.1) :: path))

/-- Frontier entries in ascending bucket order (a stable insertion). -/
def frontIns (x : Nat × List (Nat × Nat)) : List (Nat × List (Nat × Nat)) → List (Nat × List (Nat × Nat))
  | [] => [x]
  | y :: l => if x.1 < y.1 then x :: y :: l else if x.1 = y.1 then y :: l else y :: frontIns x l

/-- The shortest chain of at most `n` entries, last entry first (R190). -/
def Chip.emChain (c : Chip) (i : Nat) : Nat → List (Nat × List (Nat × Nat)) → Option (List (Nat × Nat))
  | 0, _ => none
  | n + 1, front =>
    match c.emLevel i (front.foldl (fun l x => frontIns x l) []) [] with
    | (some p, _) => some p
    | (none, next) => c.emChain i n next

/-- S3 performs a chain, starting with the move into the free slot; it stops at the first RELOCATE that is
not OK (R190). -/
def Chip.emRunChain (c : Chip) (i : Nat) : List (Nat × Nat) → Bool × Chip
  | [] => (true, c)
  | (b, s) :: rest =>
    let b' := c.emOther i b (c.emSlot i b s)
    match c.emFreeIn i b' with
    | none => (false, c)
    | some s' =>
      match c.emRelocate i b s b' s' with
      | (0, c1) => c1.emRunChain i rest
      | (_, c1) => (false, c1)

/-! ## The operations (R182) -/

/-- INSERT returning FULL: nothing is stored, the count and the event (R191). -/
def Chip.emFull (c : Chip) : Chip := (c.count Reg.em_INSERT_FULL_CNT 1).raise 0x231 27

/-- The entry an INSERT writes. -/
def insertEntry (blk : List Byte) : Slot :=
  { key := slice blk 8 16
    data := slice blk 24 16
    ctl := ctlSet (ctlMasked 0 (BitVec.ofNat 64 (blkNat blk 40 8)) (BitVec.ofNat 64 (blkNat blk 48 8))) 63 63 1 }

/-- The insert into a free slot, with its journal record. -/
def Chip.emStore (c : Chip) (k : Clk) (cmd : TblCmd) (i b s : Nat) : List Byte × Chip :=
  let e := insertEntry cmd.blk
  let c1 := (c.emPut i b s e).jnlAdd k cmd.held 1 1 cmd.agent false (emImage i e.key none)
  (blkEntry cmd.blk e (mkLoc b s), c1)

/-- S3 carries out an INSERT that found no free slot (R190). -/
def Chip.emS3Insert (c : Chip) (k : Clk) (cmd : TblCmd) (i : Nat) : List Byte × Chip :=
  let key := slice cmd.blk 8 16
  let full (c : Chip) := (blkStatus cmd.blk stFull, (c.jnlDrop cmd.held).emFull)
  if !c.serves 3 then full c
  else if c.emKeyLocked i key then (blkStatus cmd.blk stLocked, c.jnlDrop cmd.held)
  else
    match c.emFree i key with
    | some (b, s) => c.emStore k cmd i b s
    | none =>
      match c.emChain i c.tbl.maxPath [(c.emCand i 0 key, []), (c.emCand i 1 key, [])] with
      | none => full c
      | some chain =>
        match c.emRunChain i chain with
        | (false, c1) => full c1
        | (true, c1) =>
          match c1.emFree i key with
          | some (b, s) => c1.emStore k cmd i b s
          | none => full c1

/-- A keyed operation on the entry that holds KEY: NOT_FOUND when absent. -/
def Chip.emOnKey (c : Chip) (i : Nat) (cmd : TblCmd) (f : Nat → Nat → Slot → List Byte × Chip) : List Byte × Chip :=
  match c.emFind i (slice cmd.blk 8 16) with
  | none => (blkStatus cmd.blk stNotFound, c.jnlDrop cmd.held)
  | some (b, s) => f b s (c.emSlot i b s)

/-- One aging step (R199): the entry after it, `none` once deleted, and its control word. -/
def ageStep (limit : Nat) (e : Slot) : Option Slot × BitVec 64 :=
  if ctlStatic e.ctl || ctlPinned e.ctl then (some e, e.ctl)
  else if ctlHit e.ctl then
    let ctl := ctlSet (ctlSet e.ctl 59 59 0) 55 48 0
    (some { e with ctl }, ctl)
  else
    let age := ctlFld e.ctl 55 48 + 1
    let ctl := ctlSet e.ctl 55 48 age
    if limit ≤ age then (none, ctlSet ctl 63 63 0) else (some { e with ctl }, ctl)

/-- First valid slot at or after a slot key, below `hi`. -/
def firstValid (lo hi : Nat) : SMap Slot → Option (Nat × Slot)
  | [] => none
  | (a, e) :: m => if lo ≤ a && a < hi && e.valid then some (a, e) else firstValid lo hi m

/-- SEARCH (R182, R192). -/
def Chip.emSearch (c : Chip) (i : Nat) (cmd : TblCmd) : List Byte × Chip :=
  let base := c.emGlobal i 0 * 8
  match firstValid (base + blkLoc cmd.blk) (base + c.emN i * 16) c.tbl.em with
  | none => (blkStatus cmd.blk stNotFound, c)
  | some (a, e) => (blkEntry cmd.blk e (a - base), c)

/-- Buckets of an instance that are locked. -/
def Chip.emLocks (c : Chip) (i : Nat) : Nat :=
  (c.tbl.locks.filter fun kv => kv.1 / 262144 == i).length

/-- LOCK (R185). -/
def Chip.emLock (c : Chip) (i : Nat) (cmd : TblCmd) : Nat × Chip :=
  let b := locBucket (blkLoc cmd.blk)
  match c.emLockOf i b with
  | some l => (if l.agent = cmd.agent then stOk else stLocked, c)
  | none =>
    if 16 ≤ c.emLocks i then (stBusy, c)
    else
      let l : BLock := { agent := cmd.agent, image := (List.range 8).map (c.emSlot i b) }
      (stOk, { c with tbl := { c.tbl with locks := mput c.tbl.locks (lockKey i b) (some l) } })

/-- The answer to an agent that names a bucket it does not hold: LOCKED when another agent holds it, TIMEOUT
once after a release by the device, BAD_ARG otherwise (R187, R188). -/
def Chip.emNotHeld (c : Chip) (i b agent : Nat) : Nat × Chip :=
  if (c.emLockOf i b).isSome then (stLocked, c)
  else if c.tbl.owed.contains (lockKey i b, agent) then
    (stTimeout, { c with tbl := { c.tbl with owed := c.tbl.owed.erase (lockKey i b, agent) } })
  else (stBadArg, c)

/-- The agent holds the bucket locked. -/
def Chip.emHolds (c : Chip) (i b agent : Nat) : Bool :=
  match c.emLockOf i b with
  | some l => l.agent == agent
  | none => false

/-- WRITE_SLOT (R186). -/
def Chip.emWriteSlot (c : Chip) (k : Clk) (i : Nat) (cmd : TblCmd) : List Byte × Chip :=
  let loc := blkLoc cmd.blk
  let b := locBucket loc
  let s := locSlot loc
  let key := slice cmd.blk 8 16
  let ctl := BitVec.ofNat 64 (blkNat cmd.blk 40 8)
  let no (st : Nat) (c : Chip) := (blkStatus cmd.blk st, c.jnlDrop cmd.held)
  if !c.emHolds i b cmd.agent then
    let r := c.emNotHeld i b cmd.agent
    no r.1 r.2
  else if ctlValid ctl && b ≠ c.emCand i 0 key && b ≠ c.emCand i 1 key then no stBadArg c
  else if ctlValid ctl && (match c.emFind i key with | some p => p != (b, s) | none => false) then no stExists c
  else
    let old := c.emSlot i b s
    let e : Slot := if ctlValid ctl then { key, data := slice cmd.blk 24 16, ctl } else {}
    let c1 := c.emPut i b s e
    (blkEntry cmd.blk e loc,
      c1.jnlAdd k cmd.held 1 9 cmd.agent old.valid
        (emImage i (if old.valid then old.key else key) (if old.valid then some (old, loc) else none)))

/-- Locks released so that the live content of their buckets becomes visible (R187). -/
def Chip.emRelease (c : Chip) (i : Nat) (bs : List Nat) : Chip :=
  { c with tbl := { c.tbl with locks := c.tbl.locks.filter fun kv => !bs.contains (kv.1 - i * 262144) || kv.1 / 262144 != i } }

/-- UNLOCK (R187). An issuer that holds one of two named buckets while nobody holds the other gets BAD_ARG
(log 19). -/
def Chip.emUnlock (c : Chip) (i : Nat) (cmd : TblCmd) : Nat × Chip :=
  let b := locBucket (blkLoc cmd.blk)
  let arg := blkArg cmd.blk
  let b2 := locBucket arg
  if arg < 0x80000000 then
    if c.emHolds i b cmd.agent then (stOk, c.emRelease i [b]) else c.emNotHeld i b cmd.agent
  else if c.emHolds i b cmd.agent && c.emHolds i b2 cmd.agent then (stOk, c.emRelease i [b, b2])
  else if c.emHolds i b cmd.agent then c.emNotHeld i b2 cmd.agent
  else c.emNotHeld i b cmd.agent

/-- A lock released by the device: its bucket returns to the lock-time image (R188). -/
def Chip.emDropLock (c : Chip) (i b : Nat) (l : BLock) : Chip :=
  let c1 := (List.range 8).foldl (fun c s => c.emPut i b s (l.image[s]?.getD {})) c
  { c1 with tbl := { c1.tbl with locks := merase c1.tbl.locks (lockKey i b) } }

/-- Every lock of an agent released in that way (R188). -/
def Chip.emDropAgent (c : Chip) (agent : Nat) : Chip :=
  c.tbl.locks.foldl (fun c kv =>
    if kv.2.agent = agent then c.emDropLock (kv.1 / 262144) (kv.1 % 262144) kv.2 else c) c

/-- Reserved fields of a block are zero (R181): INSTANCE [7:4], STATUS, LOC [31:21], CTL [31:0], and the
ARG bits that the operation does not use. -/
def emReserved (b : List Byte) : Bool :=
  let op := blkOp b
  let arg := blkArg b
  blkInst b / 16 == 0 && blkNat b 3 1 == 0 && decide (blkLoc b < 2097152) && blkNat b 44 4 == 0 &&
  (if op = 7 then decide (arg < 256)
   else if op = 11 then decide (arg < 2097152)
   else if op = 10 then arg % 2147483648 / 2097152 == 0 && arg % 8 == 0
   else true)

/-- What is tested before a command does anything (R182, R184; the order is the model's, log 19): BAD_ARG,
DENIED by mode, BUSY while the instance is cleared. -/
def Chip.emAdmit (c : Chip) (cmd : TblCmd) : Nat :=
  let b := cmd.blk
  let i := blkInst b
  let op := blkOp b
  let dmaMode := c.rdB (Reg.em_EM_CFG i) 31
  if op = 0 ∨ 11 < op ∨ blkKind b ≠ 1 ∨ !emReserved b ∨ !c.emEn i then stBadArg
  else if (op = 6 ∨ 8 ≤ op) ∧ c.emN i * 2 ≤ locBucket (blkLoc b) then stBadArg
  else if (op = 11 ∨ (op = 10 ∧ 0x80000000 ≤ blkArg b)) ∧ c.emN i * 2 ≤ locBucket (blkArg b) then stBadArg
  else if cmd.dma && !dmaMode then stDenied
  else if cmd.dest = .page ∧ dmaMode then stDenied
  else if 8 ≤ op ∧ op ≤ 10 ∧ !dmaMode then stDenied
  else if op = 11 ∧ cmd.agent ≠ sluiceAgent 3 then stDenied
  else if !c.emReady i then stBusy
  else stOk

/-- A command that has been admitted, with its journal record if it needs one. `none`: handed to S3. -/
def Chip.emDo (c : Chip) (k : Clk) (cmd : TblCmd) : Option (List Byte) × Chip :=
  let b := cmd.blk
  let i := blkInst b
  let key := slice b 8 16
  let ctl := BitVec.ofNat 64 (blkNat b 40 8)
  let mask := BitVec.ofNat 64 (blkNat b 48 8)
  let fin (r : List Byte × Chip) : Option (List Byte) × Chip := (some r.1, r.2)
  let st (r : Nat × Chip) : Option (List Byte) × Chip := (some (blkStatus b r.1), r.2)
  let keyed := fun (f : Nat → Nat → Slot → List Byte × Chip) =>
    if c.emKeyLocked i key then st (stLocked, c.jnlDrop cmd.held) else fin (c.emOnKey i cmd f)
  let jnl (c : Chip) (op : Nat) (old : Slot) (loc : Nat) :=
    c.jnlAdd k cmd.held 1 op cmd.agent true (emImage i old.key (some (old, loc)))
  match blkOp b with
  | 1 =>
    if c.emKeyLocked i key then st (stLocked, c.jnlDrop cmd.held)
    else if (c.emFind i key).isSome then st (stExists, c.jnlDrop cmd.held)
    else
      match c.emFree i key with
      | some (bk, s) => fin (c.emStore k cmd i bk s)
      | none =>
        if c.rdB (Reg.em_EM_CFG i) 28 || !c.serves 3 then st (stFull, (c.jnlDrop cmd.held).emFull)
        else (none, { c with tbl := { c.tbl with emPend := mput c.tbl.emPend i (some cmd) } })
  | 2 => keyed fun bk s e => (blkEntry b e (mkLoc bk s), jnl (c.emPut i bk s {}) 2 e (mkLoc bk s))
  | 3 => keyed fun bk s e => (blkEntry b e (mkLoc bk s), c)
  | 4 => keyed fun bk s e =>
      let e' : Slot := { e with data := slice b 24 16, ctl := ctlMasked e.ctl ctl mask }
      (blkEntry b e' (mkLoc bk s), jnl (c.emPut i bk s e') 4 e (mkLoc bk s))
  | 5 => keyed fun bk s e =>
      let e' : Slot := { e with data := slice b 24 16, ctl := ctlMasked e.ctl ctl mask }
      (blkEntry b e (mkLoc bk s), jnl (c.emPut i bk s e') 5 e (mkLoc bk s))
  | 6 =>
    if (c.emLockOf i (locBucket (blkLoc b))).isSome then st (stLocked, c) else fin (c.emSearch i cmd)
  | 7 => keyed fun bk s e =>
      let r := ageStep (blkArg b % 256) e
      let c1 := c.emPut i bk s (r.1.getD {})
      (blkEntry b { e with ctl := r.2 } (mkLoc bk s), c1)
  | 8 => st (c.emLock i cmd)
  | 9 => fin (c.emWriteSlot k i cmd)
  | 10 => st (c.emUnlock i cmd)
  | _ =>
    let l := blkLoc b
    let d := blkArg b
    st (c.emRelocate i (locBucket l) (locSlot l) (locBucket d) (locSlot d))

/-! ## Results -/

/-- The result of a command delivered to its issuer: the page's registers and CMD_DONE_EV (R202, R203, R226),
host memory, a sluice's request slot, or outside. -/
def Chip.tblDeliver (c : Chip) (pfx : Bool) (cmd : TblCmd) (r : List Byte) : Chip :=
  match cmd.dest with
  | .page =>
    if pfx then
      let c1 := (List.range 16).foldl (fun c n => c.wr (Reg.pfx_PFX_BLK n) (wd (blkNat r (4 * n) 4))) c
      ((c1.wr Reg.pfx_PFX_CMD 0).wr Reg.pfx_PFX_STATUS (wd (blkNat r 3 1))).raise 0x232 0
    else
      let c1 := (List.range 4).foldl (fun c n =>
        (c.wr (Reg.em_TBL_KEY n) (wd (blkNat r (8 + 4 * n) 4))).wr (Reg.em_TBL_DATA n) (wd (blkNat r (24 + 4 * n) 4))) c
      let c2 := (c1.wr Reg.em_TBL_CTL_LO (wd (blkNat r 44 4))).wr Reg.em_TBL_CTL_HI (wd (blkNat r 40 4))
      let c3 := (c2.wr Reg.em_TBL_LOC (wd (blkLoc r))).wrF Reg.em_TBL_CMD 31 31 0
      (c3.wr Reg.em_TBL_STATUS (wd (blkNat r 3 1))).raise 0x231 0
  | .host a =>
    let c1 := c.emit (.host a r)
    { c1 with dma := { c1.dma with lists := c1.dma.lists.map fun rl =>
      (rl.1, if leNat (slice rl.2.desc 0 8) + 64 * rl.2.count = a ∧ rl.2.answer.isNone then { rl.2 with answer := some (blkNat r 3 1) }
        else rl.2) } }
  | .sluice r' serial =>
    { c with slu := { c.slu with s := modAt c.slu.s r' fun u =>
      { u with reqs := u.reqs.map fun q =>
        if q.serial = serial then { q with status := some (blkNat r 3 1), bytes := r, at_ := q.x.toNat % 65536 / 64 * 64 }
        else q } } }
  | .out => c.emit (.data 1 r)

/-- A command block is taken by the command unit of its instance (R183): it waits while S3 works on an
INSERT of the instance, unless it comes from S3 (R190). A unit that has failed or is in reset discards it (R491). -/
def Chip.emSubmit (c : Chip) (k : Clk) (cmd : TblCmd) : Chip :=
  let i := blkInst cmd.blk
  if c.faulted 0x231 || c.inReset 0x231 then c.tblDeliver false cmd (blkStatus cmd.blk stAborted)
  else if (mget c.tbl.emPend i).isSome && cmd.agent != sluiceAgent 3 then
    { c with tbl := { c.tbl with emWait := mput c.tbl.emWait i (some ((mget c.tbl.emWait i).getD [] ++ [cmd])) } }
  else
    match c.emAdmit cmd with
    | 0 =>
      let j := if emJournals (blkOp cmd.blk) cmd.agent then c.jnlTake cmd.agent else (stOk, false, c)
      if j.1 = 0 then
        match j.2.2.emDo k { cmd with held := j.2.1 } with
        | (some r, c1) => c1.tblDeliver false cmd r
        | (none, c1) => c1
      else j.2.2.tblDeliver false cmd (blkStatus cmd.blk j.1)
    | st => c.tblDeliver false cmd (blkStatus cmd.blk st)

/-- Commands that waited are taken in arrival order until one of them is handed to S3 in its turn. -/
def Chip.emDrain (c : Chip) (k : Clk) (i : Nat) : Nat → Chip
  | 0 => c
  | n + 1 =>
    if (mget c.tbl.emPend i).isSome then c
    else
      match (mget c.tbl.emWait i).getD [] with
      | [] => c
      | cmd :: rest =>
        let c1 := { c with tbl := { c.tbl with emWait := mput c.tbl.emWait i (if rest = [] then none else some rest) } }
        (c1.emSubmit k cmd).emDrain k i n

/-- S3 completes the INSERT it holds for an instance, and the commands that waited follow (R190). -/
def Chip.emRelocDone (c : Chip) (k : Clk) (i : Nat) : Chip :=
  match mget c.tbl.emPend i with
  | none => c
  | some cmd =>
    let c0 := { c with tbl := { c.tbl with emPend := merase c.tbl.emPend i } }
    let r := c0.emS3Insert k cmd i
    let c1 := r.2.tblDeliver false cmd r.1
    c1.emDrain k i (((mget c1.tbl.emWait i).getD []).length + 1)

/-! ## The page's command registers (R202) -/

/-- The command block formed from the registers of the page. -/
def Chip.emPageBlock (c : Chip) : List Byte :=
  let w := c.rd Reg.em_TBL_CMD
  beBytes 1 (fld w 27 24) ++ beBytes 1 1 ++ beBytes 1 (fld w 19 16) ++ [0] ++
  wordBytesBE (c.rd Reg.em_TBL_LOC) ++
  ((List.range 4).map fun n => wordBytesBE (c.rd (Reg.em_TBL_KEY n))).flatten ++
  ((List.range 4).map fun n => wordBytesBE (c.rd (Reg.em_TBL_DATA n))).flatten ++
  wordBytesBE (c.rd Reg.em_TBL_CTL_HI) ++ wordBytesBE (c.rd Reg.em_TBL_CTL_LO) ++
  wordBytesBE (c.rd Reg.em_TBL_CTL_MASK_HI) ++ wordBytesBE (c.rd Reg.em_TBL_CTL_MASK_LO) ++
  wordBytesBE (c.rd Reg.em_TBL_ARG) ++ [0, 0, 0, 0]

/-- A write of TBL_CMD: with GO 1 the block is submitted; while GO reads 1 it does nothing and leaves
BUSY (R202). -/
def Chip.emCmdWrite (c : Chip) (k : Clk) (agent : Nat) (v : Word) : Chip :=
  if c.rdB Reg.em_TBL_CMD 31 then
    if bit v 31 then c.wr Reg.em_TBL_STATUS (wd stBusy)
    else c.wr Reg.em_TBL_CMD ((v &&& 0x0F0F0000) ||| 0x80000000)
  else
    let c1 := c.wr Reg.em_TBL_CMD (v &&& 0x8F0F0000)
    if bit v 31 then c1.emSubmit k { agent, dma := false, blk := c1.emPageBlock, dest := .page } else c1

/-! ## Geometry (R175) -/

/-- Ranges of two instances overlap. -/
def Chip.emOverlap (c : Chip) (i base size : Nat) : Bool :=
  (List.range 16).any fun j => j != i && c.emEn j &&
    decide (c.emBase j < base + size) && decide (base < c.emBase j + c.emSize j)

/-- A write of EM_GEOM: `false` when it is an access error of kind 5. -/
def Chip.emGeomWrite (c : Chip) (i : Nat) (v : Word) : Bool × Chip :=
  if c.emEn i then
    if bit v 31 then (false, c) else (true, c.wrF (Reg.em_EM_GEOM i) 31 31 0)
  else
    let size := fld v 24 16
    let base := fld v 7 0
    if !bit v 31 then (true, c.wr (Reg.em_EM_GEOM i) (v &&& 0x01FF00FF))
    else if size = 0 ∨ 256 < base + size ∨ c.emOverlap i base size then (true, c.raise 0x231 23)
    else
      let c1 := c.wr (Reg.em_EM_GEOM i) (v &&& 0x81FF00FF)
      (true, { c1 with tbl := { c1.tbl with
        em := mclear c1.tbl.em (base * 8192) ((base + size) * 8192)
        emClearing := i :: c1.tbl.emClearing.erase i } })

/-! ## Lookups (R174, R176 to R180, R193) -/

/-- The 16 MISS_DATA bytes of an instance. -/
def Chip.emMiss (c : Chip) (i : Nat) : List Byte :=
  ((List.range 4).map fun n => wordBytesBE (c.rd (Reg.em_MISS_DATA i n))).flatten

/-- A result slot in the layout RES_FMT selects (R178). -/
def Chip.emResult (c : Chip) (i : Nat) (data : List Byte) (status : Nat) : List Byte :=
  if c.rdB (Reg.em_EM_CFG i) 30 then slice data 0 14 ++ [0] ++ beBytes 1 status else slice data 0 16

/-- The upset words among the 16 slots a lookup reads, checked in order (R179). -/
def Chip.emCheck (c : Chip) : List Nat → Bool × Chip
  | [] => (true, c)
  | w :: ws =>
    match c.ecc 0x231 0 w with
    | (.bad, c1) => (false, c1)
    | (_, c1) => c1.emCheck ws

/-- A learn event (R194). -/
def learnEvent (k : Clk) (i kind epoch lp old : Nat) (key : List Byte) : List Byte :=
  slice key 0 16 ++ beBytes 2 lp ++ beBytes 2 old ++ beBytes 1 i ++ beBytes 1 kind ++ beBytes 2 epoch ++
  beBytes 4 (todNs k.tod) ++ beBytes 4 (todSec k.tod)

/-- A learn event is offered to the filter and the queue (R195). -/
def Chip.learn (c : Chip) (k : Clk) (i kind epoch lp old : Nat) (key : List Byte) : Chip :=
  let f := c.emHash i 0 key % 4096
  let hold := c.rdF Reg.em_LEARN_CTL 15 0 * 1000 * rtNs
  let same := match mget c.tbl.filt f with
    | some e => e.key == key && e.inst == i && e.inLp == lp && decide (k.now - e.at_ < hold)
    | none => false
  if same then c.count Reg.em_LEARN_FILT_CNT 1
  else if 65536 ≤ c.tbl.learnQ.length then (c.count Reg.em_LEARN_DROP_CNT 1).raise 0x231 26
  else { c with tbl := { c.tbl with
    learnQ := c.tbl.learnQ ++ [learnEvent k i kind epoch lp old key]
    filt := mput c.tbl.filt f (some { key, inst := i, inLp := lp, at_ := k.now }) } }

/-- The copies of a key that a lookup sees, choice 0 first (R174, R185, R189). -/
def Chip.emMatches (c : Chip) (i : Nat) (key : List Byte) : List (Nat × Nat) :=
  let inB := fun b => ((List.range 8).filter fun s => (c.emView i b s).valid && (c.emView i b s).key == key).map fun s => (b, s)
  inB (c.emCand i 0 key) ++ inB (c.emCand i 1 key)

/-- HIT set in every live copy that a source lookup matched. -/
def Chip.emSetHit (c : Chip) (i : Nat) (ms : List (Nat × Nat)) : Chip :=
  ms.foldl (fun c m =>
    let e := c.emSlot i m.1 m.2
    if (c.emLockOf i m.1).isNone && e.valid then c.emPut i m.1 m.2 { e with ctl := ctlSet e.ctl 59 59 1 } else c) c

/-- Both candidate buckets held 8 valid entries. -/
def Chip.emBothFull (c : Chip) (i : Nat) (key : List Byte) : Bool :=
  (List.range 8).all fun s => (c.emView i (c.emCand i 0 key) s).valid && (c.emView i (c.emCand i 1 key) s).valid

/-- An exact-match lookup (R174, R176 to R180, R193): result slot, DROP_REASON it writes (0 none), and the
device after it. `src` is the SRC bit of the binding, `lp` IN_LP and `epoch` the packet's stamp. -/
def Chip.emLookup (c : Chip) (k : Clk) (i : Nat) (src : Bool) (key : List Byte) (lp epoch : Nat) :
    List Byte × Nat × Chip :=
  let missR := c.rdF (Reg.em_EM_CFG i) 21 16
  if !c.emReady i then (c.emResult i (c.emMiss i) 0, 0, c)
  else
    let words := (List.range 8).map (fun s => c.emGlobal i (c.emCand i 0 key) * 8 + s) ++
      (List.range 8).map (fun s => c.emGlobal i (c.emCand i 1 key) * 8 + s)
    match c.emCheck words with
    | (false, c1) => (c1.emResult i (c1.emMiss i) 0, 7, c1)
    | (true, c1) =>
      let learning := src && c1.rdB (Reg.em_EM_CFG i) 29
      match c1.emMatches i key with
      | [] =>
        let st := if c1.emBothFull i key then 2 else 0
        let c2 := if learning then c1.learn k i 1 epoch lp 0xFFFF key else c1
        (c1.emResult i (c1.emMiss i) st, missR, c2)
      | (b, s) :: ms =>
        let e := c1.emView i b s
        let p := c1.emPort i e
        let pinned := ctlPinned e.ctl
        let static_ := ctlStatic e.ctl
        let moved := src && p != lp
        let st := 1 + (if moved then 4 else 0) + (if pinned then 8 else 0) + (if static_ then 16 else 0)
        let c2 :=
          if !learning then c1
          else if p = lp then c1.emSetHit i ((b, s) :: ms)
          else if static_ then c1
          else if pinned then c1.count Reg.em_PIN_HIT_CNT 1
          else c1.learn k i 2 epoch lp p key
        (c1.emResult i e.data st, 0, c2)

/-! ## S2: learning and aging (R196 to R200) -/

/-- S2's policy of an instance. -/
def Chip.emPolicy (c : Chip) (i : Nat) : AgePolicy := mrd {} c.tbl.policy i

/-- A body padded to a multiple of 16 bytes (R200). -/
def pad16 (b : List Byte) : List Byte := b ++ List.replicate ((16 - b.length % 16) % 16) 0

/-- S2's INSERT_FULL result: a notice at most once a second per instance (R196, R200). -/
def Chip.learnFull (c : Chip) (k : Clk) (i lp : Nat) (key : List Byte) : Chip :=
  let st := mrd (0, none) c.tbl.fullCnt i
  let n := st.1 + 1
  let due := match st.2 with
    | none => true
    | some t => decide (1000000000 * rtNs ≤ k.now - t)
  if due then
    ({ c with tbl := { c.tbl with fullCnt := mset (0, none) c.tbl.fullCnt i (0, some k.now) } }).emit
      (.notice 5 0x0102 (pad16 (beBytes 1 i ++ key ++ beBytes 2 lp ++ beBytes 4 n)))
  else { c with tbl := { c.tbl with fullCnt := mset (0, none) c.tbl.fullCnt i (n, st.2) } }

/-- A pin S2 starts to time, unless the entry is STATIC (R197). -/
def Chip.pinSeen (c : Chip) (i : Nat) (key : List Byte) : Chip :=
  if c.tbl.pins.contains (i, key) then c else { c with tbl := { c.tbl with pins := c.tbl.pins ++ [(i, key)] } }

/-- A MOVE on an entry that is neither STATIC nor PINNED (R197). -/
def Chip.learnMove (c : Chip) (k : Clk) (i lp b s : Nat) (e : Slot) : Chip :=
  let t := k.tod / (1000000 * nsU) % 65536
  let moves := ctlFld e.ctl 58 56
  let t0 := ctlFld e.ctl 47 32
  let commit (ctl : BitVec 64) (c : Chip) :=
    c.emPut i b s { c.emWithPort i e lp with ctl := ctlSet (ctlSet ctl 59 59 1) 55 48 0 }
  if moves = 0 ∨ 1000 < (t + 65536 - t0) % 65536 then
    commit (ctlSet (ctlSet e.ctl 58 56 1) 47 32 t) c
  else if moves < 3 then commit (ctlSet e.ctl 58 56 (moves + 1)) c
  else
    let c1 := c.emPut i b s { e with ctl := ctlSet e.ctl 60 60 1 }
    ((c1.pinSeen i e.key).raise 0x231 25).emit
      (.notice 5 0x0101 (pad16 (beBytes 1 i ++ e.key ++ beBytes 2 (c.emPort i e) ++ beBytes 2 lp)))

/-- A NEW event: INSERT with the event's port, HIT 1 and AGE 0, S3 relocating if it must (R190, R196). -/
def Chip.learnNew (c : Chip) (k : Clk) (i lp : Nat) (key : List Byte) : Chip :=
  let e0 : Slot := c.emWithPort i { key } lp
  let blk := beBytes 1 1 ++ beBytes 1 1 ++ beBytes 1 i ++ List.replicate 5 0 ++ key ++ e0.data ++
    beBytes 8 (2 ^ 59) ++ beBytes 8 (2 ^ 59) ++ List.replicate 8 0
  let cmd : TblCmd := { agent := sluiceAgent 2, dma := false, blk, dest := .out }
  match c.emFree i key with
  | some (b, s) => (c.emStore k cmd i b s).2
  | none =>
    let r := if c.rdB (Reg.em_EM_CFG i) 28 then (blkStatus blk stFull, c.emFull) else c.emS3Insert k cmd i
    if blkNat r.1 3 1 = stFull then r.2.learnFull k i lp key else r.2

/-- S2 handles the event at the head of the learn queue (R196). While S3 works on an INSERT of the instance
S2's command waits its turn, and so does the event (R183, R190). -/
def Chip.learnHandle (c : Chip) (k : Clk) : Chip :=
  match c.tbl.learnQ with
  | [] => c
  | ev :: rest =>
    let i := blkNat ev 20 1
    let key := slice ev 0 16
    let lp := blkNat ev 16 2
    if !c.serves 2 || (mget c.tbl.emPend i).isSome then c
    else
      let c1 := { c with tbl := { c.tbl with learnQ := rest } }
      if !c1.emReady i || c1.emKeyLocked i key then c1
      else
        match c1.emFind i key with
        | none => c1.learnNew k i lp key
        | some (b, s) =>
          let e := c1.emSlot i b s
          if c1.emPort i e = lp then c1
          else if ctlStatic e.ctl || ctlPinned e.ctl then c1
          else c1.learnMove k i lp b s e

/-- Keys of the valid live entries of an instance, in bucket and slot order. -/
def Chip.emEntries (c : Chip) (i : Nat) : List (Nat × Slot) :=
  let lo := c.emGlobal i 0 * 8
  let hi := lo + c.emN i * 16
  c.tbl.em.filter fun kv => lo ≤ kv.1 && kv.1 < hi && kv.2.valid

/-- An entry of an instance is in a locked bucket: operations of S2 on it return LOCKED. -/
def Chip.emEntryLocked (c : Chip) (i a : Nat) : Bool := (c.emLockOf i (a / 8 - c.emGlobal i 0)).isSome

/-- One walk of S2 over an instance (R198): AGE when AGE_PERIOD is not zero, and the pins it finds. -/
def Chip.ageWalk (c : Chip) (i : Nat) : Chip :=
  if !c.serves 2 || !c.emReady i || !c.rdB (Reg.em_EM_CFG i) 29 || (mget c.tbl.emPend i).isSome then c
  else
    (c.emEntries i).foldl (fun c kv =>
      let b := kv.1 / 8 - c.emGlobal i 0
      let c1 := if ctlPinned kv.2.ctl && !ctlStatic kv.2.ctl then c.pinSeen i kv.2.key else c
      if (c.emPolicy i).period = 0 || c.emEntryLocked i kv.1 then c1
      else c1.emPut i b (kv.1 % 8) ((ageStep (c.emPolicy i).limit kv.2).1.getD {})) c

/-- PINNED and MOVES of the entry of a key cleared; NOT_FOUND when absent (R197, R200). -/
def Chip.emUnpin (c : Chip) (i : Nat) (key : List Byte) : Nat × Chip :=
  if c.emKeyLocked i key then (stLocked, c)
  else
    match c.emFind i key with
    | none => (stNotFound, c)
    | some (b, s) =>
      let e := c.emSlot i b s
      let c1 := c.emPut i b s { e with ctl := ctlSet (ctlSet e.ctl 60 60 0) 58 56 0 }
      (stOk, { c1 with tbl := { c1.tbl with pins := c1.tbl.pins.erase (i, key) } })

/-- PIN_HOLD has passed since S2 first found the pin (R197). -/
def Chip.pinExpire (c : Chip) (i : Nat) (key : List Byte) : Chip :=
  if c.serves 2 && c.tbl.pins.contains (i, key) then
    match c.emFind i key with
    | some (b, s) =>
      let e := c.emSlot i b s
      if ctlPinned e.ctl && !ctlStatic e.ctl then (c.emUnpin i key).2
      else { c with tbl := { c.tbl with pins := c.tbl.pins.erase (i, key) } }
    | none => { c with tbl := { c.tbl with pins := c.tbl.pins.erase (i, key) } }
  else c

/-- FLUSH of S2 (R200): every entry with STATIC 0 whose port field matches is deleted. -/
def Chip.emFlush (c : Chip) (i lp : Nat) : Chip :=
  (c.emEntries i).foldl (fun c kv =>
    if ctlStatic kv.2.ctl || c.emEntryLocked i kv.1 || (lp != 0xFFFF && c.emPort i kv.2 != lp) then c
    else c.emPut i (kv.1 / 8 - c.emGlobal i 0) (kv.1 % 8) {}) c

/-! ## Soft reset and S3's abort (R161, R168, R203) -/

/-- Commands handed to S3 end with a status: ABORTED at a soft reset (R203), FULL at an abort of S3 (R168). -/
def Chip.emEndPending (c : Chip) (k : Clk) (st : Nat) : Chip :=
  (List.range 16).foldl (fun c i =>
    match mget c.tbl.emPend i with
    | none => c
    | some cmd =>
      let c0 := ({ c with tbl := { c.tbl with emPend := merase c.tbl.emPend i } }).jnlDrop cmd.held
      let c1 := if st = stFull then c0.emFull else c0
      let c2 := c1.tblDeliver false cmd (blkStatus cmd.blk st)
      if st = stAborted then
        let c3 := ((mget c2.tbl.emWait i).getD []).foldl (fun c w => c.tblDeliver false w (blkStatus w.blk stAborted)) c2
        { c3 with tbl := { c3.tbl with emWait := merase c3.tbl.emWait i } }
      else c2.emDrain k i (((mget c2.tbl.emWait i).getD []).length + 1)) c

/-- The exact-match engine after a soft reset: learn queue and filter discarded, locks released under R188,
commands ended ABORTED, the bucket SRAM unchanged (R203). -/
def Chip.emSoftReset (c : Chip) (k : Clk) : Chip :=
  let c1 := c.emEndPending k stAborted
  let c2 := c1.tbl.locks.foldl (fun c kv => c.emDropLock (kv.1 / 262144) (kv.1 % 262144) kv.2) c1
  { c2 with tbl := { c2.tbl with learnQ := [], filt := [], owed := [], emClearing := [] } }

end Sys2Proof.Machine
end

