-- ==== Sys2Proof/Machine/Pfx.lean ====
section
/-!
DEFINITION. Machine/Pfx.lean: longest-match lookup in the hashed stores and the masked CAM, kind 4 lookups,
and the changes S3 makes (08_prefix_lookup.md).
-/
namespace Sys2Proof.Machine

/-! ## Families and stores (R204, R207) -/

/-- A family: IPv6 when true. -/
def famNum (v6 : Bool) : Nat := if v6 then 6 else 4

/-- PFX_CFG of a family. -/
def pfxCfg (v6 : Bool) : Nat := if v6 then Reg.pfx_PFX_CFG6 else Reg.pfx_PFX_CFG4

/-- A family serves commands and lookups: enabled, and its clear has ended (R207). -/
def Chip.pfxReady (c : Chip) (v6 : Bool) : Bool :=
  c.rdB (pfxCfg v6) 31 && !c.tbl.pfxClearing.contains (famNum v6)

/-- Address bits of a family. -/
def famBits (v6 : Bool) : Nat := if v6 then 128 else 32

/-- An address masked to a length. -/
def pfxMask (v6 : Bool) (len addr : Nat) : Nat :=
  let sh := famBits v6 - len
  addr >>> sh <<< sh

/-- The store that holds a length: 0 IPv4, 1 IPv6 short, 2 IPv6 long (R204). -/
def storeOf (v6 : Bool) (len : Nat) : Nat := if !v6 then 0 else if len ≤ 64 then 1 else 2

/-- N of a store: half of its buckets (R211). -/
def storeN (st : Nat) : Nat := if st = 0 then 65536 else if st = 1 then 32768 else 4096

/-- The seed of a choice of a store. -/
def storeSeed (st ch : Nat) : Nat :=
  if st = 0 then Reg.pfx_SSEED4 ch else if st = 1 then Reg.pfx_SSEED6S ch else Reg.pfx_SSEED6L ch

/-- The store key (R211): VRF, length and the masked address, of which the IPv6 short store takes bytes 0
to 7. -/
def storeKey (st vrf len addr : Nat) : List Byte :=
  beBytes 2 vrf ++ beBytes 1 len ++
  (if st = 0 then beBytes 4 addr else if st = 1 then beBytes 8 (addr >>> 64) else beBytes 16 addr)

/-- Candidate bucket of a store key (R211). -/
def Chip.pfxCand (c : Chip) (st ch : Nat) (key : List Byte) : Nat :=
  ch * storeN st + ((crc32c (c.rd (storeSeed st ch)) key).toNat * storeN st) >>> 32

/-- Key of a slot among the stores. -/
def pstKey (st b s : Nat) : Nat := (st * 131072 + b) * 8 + s

/-- A slot of a store. -/
def Chip.pstGet (c : Chip) (st b s : Nat) : Option PSlot := mget c.tbl.pst (pstKey st b s)

/-- A slot of a store written. -/
def Chip.pstPut (c : Chip) (st b s : Nat) (e : Option PSlot) : Chip :=
  ({ c with tbl := { c.tbl with pst := mput c.tbl.pst (pstKey st b s) e } }).rewrite 0x232 st (b * 8 + s)

/-- The slot of a bucket that holds (VRF, length, masked address). -/
def Chip.pstFindIn (c : Chip) (st b vrf len addr : Nat) : Option Nat :=
  slotWhere fun s => match c.pstGet st b s with
    | some e => e.vrf == vrf && e.len == len && e.addr == addr
    | none => false

/-- Bucket and slot that hold (VRF, length, masked address), choice 0 first (R211). -/
def Chip.pstFind (c : Chip) (st vrf len addr : Nat) : Option (Nat × Nat) :=
  let key := storeKey st vrf len addr
  let b0 := c.pfxCand st 0 key
  let b1 := c.pfxCand st 1 key
  match c.pstFindIn st b0 vrf len addr with
  | some s => some (b0, s)
  | none => (c.pstFindIn st b1 vrf len addr).map fun s => (b1, s)

/-! ## The length filter (R209, R210) -/

/-- Shortest length the filter of a family represents. -/
def filtLo (v6 : Bool) : Nat := if v6 then 20 else 16

/-- Filter index of an address (R209). -/
def Chip.filtIdx (c : Chip) (v6 : Bool) (vrf addr : Nat) : Nat :=
  if v6 then
    (crc32c (c.rd Reg.pfx_FSEED6) (beBytes 2 vrf ++ beBytes 3 (addr >>> 108 <<< 4))).toNat >>> 13
  else (crc32c (c.rd Reg.pfx_FSEED4) (beBytes 2 vrf ++ beBytes 2 (addr >>> 16))).toNat >>> 12

/-- Key of a count behind a filter bit. -/
def fcKey (v6 : Bool) (f len : Nat) : Nat := (f * 128 + (len - filtLo v6)) * 2 + v6.toNat

/-- The count behind a bit. -/
def Chip.filtCount (c : Chip) (v6 : Bool) (f len : Nat) : Nat := mrd 0 c.tbl.fcnt (fcKey v6 f len)

/-- A count changed. -/
def Chip.filtPut (c : Chip) (v6 : Bool) (f len n : Nat) : Chip :=
  { c with tbl := { c.tbl with fcnt := mset 0 c.tbl.fcnt (fcKey v6 f len) n } }

/-- Lengths whose bit is set in an entry, longest first. -/
def Chip.filtLens (c : Chip) (v6 : Bool) (f : Nat) : List Nat :=
  ((List.range (famBits v6 + 1 - filtLo v6)).map fun j => famBits v6 - j).filter fun l => c.filtCount v6 f l != 0

/-- A store-resident entry of a length may be added without a ninth bit in its filter entry (R209). -/
def Chip.filtRoom (c : Chip) (v6 : Bool) (f len : Nat) : Bool :=
  c.filtCount v6 f len != 0 || decide ((c.filtLens v6 f).length < 8)

/-! ## The masked CAM (R212, R215, R216) -/

/-- Whether CAM block `b` belongs to an owner, and for owner 3 to a kind 4 table number. -/
def Chip.camBlkIs (c : Chip) (owner num b : Nat) : Bool :=
  c.rdF (Reg.pfx_CAM_BLK b) 1 0 == owner && (owner != 3 || c.rdF (Reg.pfx_CAM_BLK b) 11 8 == num)

/-- A CAM index lies in the region of an owner. -/
def Chip.camIn (c : Chip) (owner num idx : Nat) : Bool := decide (idx < 16384) && c.camBlkIs owner num (idx / 256)

/-- The CAM key of an address (R216). -/
def camKey (v6 : Bool) (vrf addr : Nat) : BitVec 160 :=
  BitVec.ofNat 160 (addr <<< (if v6 then 32 else 128) + vrf)

/-- An entry matches a key. -/
def CamE.hits (e : CamE) (key : BitVec 160) : Bool := (key ^^^ e.value) &&& e.mask == 0

/-- A CAM entry as its cells hold it: an upset of the entry (memory 5) has flipped a bit of VALUE until scrub compares the
entry with its shadow (R216, R481). -/
def Chip.camCells (c : Chip) (idx : Nat) (e : CamE) : CamE :=
  match mget c.upsets (upKey 0x232 5 idx) with
  | some u => { e with value := e.value ^^^ BitVec.ofNat 160 (2 ^ u.bitpos) }
  | none => e

/-- The matching entry of lowest index in a region (R212, R216). -/
def Chip.camFind (c : Chip) (owner num : Nat) (key : BitVec 160) : Option (Nat × CamE) :=
  c.tbl.cam.find? fun kv => c.camIn owner num kv.1 && (c.camCells kv.1 kv.2).hits key

/-- A CAM entry written. -/
def Chip.camPut (c : Chip) (idx : Nat) (e : Option CamE) : Chip :=
  (({ c with tbl := { c.tbl with cam := mput c.tbl.cam idx e } }).rewrite 0x232 5 idx).rewrite 0x232 6 idx

/-! ## Lookups (R211, R213, R214) -/

/-- A result slot (R213). -/
def pfxResult (data : List Byte) (len flags idx : Nat) : List Byte :=
  slice data 0 8 ++ beBytes 1 len ++ beBytes 1 flags ++ beBytes 2 idx ++ [0, 0, 0, 0]

/-- Storage words of a memory of the page checked as they are read. -/
def Chip.pfxCheck (c : Chip) : List (Nat × Nat) → Bool × Chip
  | [] => (true, c)
  | (mem, w) :: ws =>
    match c.ecc 0x232 mem w with
    | (.bad, c1) => (false, c1)
    | (_, c1) => c1.pfxCheck ws

/-- The words a probe of a length reads: both candidate buckets. -/
def Chip.probeWords (c : Chip) (v6 : Bool) (vrf addr len : Nat) : List (Nat × Nat) :=
  let st := storeOf v6 len
  let key := storeKey st vrf len (pfxMask v6 len addr)
  ((List.range 8).map fun s => (st, c.pfxCand st 0 key * 8 + s)) ++
  ((List.range 8).map fun s => (st, c.pfxCand st 1 key * 8 + s))

/-- The hash result: the hit of greatest length among the probed lengths, longest first (R211). -/
def Chip.probe (c : Chip) (v6 : Bool) (vrf addr : Nat) : List Nat → Option PSlot
  | [] => none
  | l :: ls =>
    let st := storeOf v6 l
    match c.pstFind st vrf l (pfxMask v6 l addr) with
    | some (b, s) => c.pstGet st b s
    | none => c.probe v6 vrf addr ls

/-- What a lookup finds. -/
inductive PfxHit where
  | miss
  | store (e : PSlot)
  | cam (idx : Nat) (e : CamE)
  deriving DecidableEq, Repr

/-- A lookup in the structures as they stand (R210 to R213): `none` on an uncorrectable error. -/
def Chip.pfxFind (c : Chip) (v6 : Bool) (vrf addr : Nat) : Option PfxHit × Chip :=
  let f := c.filtIdx v6 vrf addr
  match c.pfxCheck [(if v6 then 4 else 3, f)] with
  | (false, c1) => (none, c1)
  | (true, c1) =>
    let lens := c1.filtLens v6 f
    let c2 := if 8 < lens.length then (c1.count Reg.pfx_FILT_OVF_CNT 1).raise 0x232 26 else c1
    let lens8 := lens.take 8
    match c2.pfxCheck ((lens8.map fun l => c2.probeWords v6 vrf addr l).flatten) with
    | (false, c3) => (none, c3)
    | (true, c3) =>
      match c3.probe v6 vrf addr lens8, c3.camFind (if v6 then 2 else 1) 0 (camKey v6 vrf addr) with
      | none, none => (some .miss, c3)
      | some e, none => (some (.store e), c3)
      | h, some (idx, e) =>
        match c3.pfxCheck [(6, idx)] with
        | (false, c4) => (none, c4)
        | (true, c4) =>
          match h with
          | some p => (some (if e.len < p.orig then .store p else .cam idx e), c4)
          | none => (some (.cam idx e), c4)

/-- The result slot of a hit (R213). -/
def PfxHit.slot : PfxHit → List Byte
  | .miss => List.replicate 16 0
  | .store e => pfxResult e.data e.orig (1 + (if e.orig = e.len then 0 else 4)) 0
  | .cam idx e => pfxResult e.data e.len (3 + (if e.pinned then 8 else 0)) idx

/-- A lookup by a weir: result slot, DROP_REASON it writes (0 none), and the device after it (R207, R213,
R214). -/
def Chip.pfxLookup (c : Chip) (v6 : Bool) (vrf addr : Nat) : List Byte × Nat × Chip :=
  if !c.pfxReady v6 then (List.replicate 16 0, 0, c)
  else
    match c.pfxFind v6 vrf addr with
    | (none, c1) => (List.replicate 16 0, 7, c1)
    | (some .miss, c1) => (List.replicate 16 0, c1.rdF (pfxCfg v6) 21 16, c1)
    | (some h, c1) => (h.slot, 0, c1)

/-- A kind 4 lookup: `none` on an uncorrectable error (R214, R216). -/
def Chip.camLookup (c : Chip) (num : Nat) (key : BitVec 160) : Option (Option (Nat × CamE)) × Chip :=
  match c.camFind 3 num key with
  | none => (some none, c)
  | some (idx, e) =>
    match c.pfxCheck [(6, idx)] with
    | (false, c1) => (none, c1)
    | (true, c1) => (some (some (idx, e)), c1)

/-- A kind 4 lookup by a weir: it has no MISS_REASON of its own. -/
def Chip.cam4Lookup (c : Chip) (num : Nat) (key : List Byte) : List Byte × Nat × Chip :=
  match c.camLookup num (BitVec.ofNat 160 (beNat (slice key 0 20))) with
  | (none, c1) => (List.replicate 16 0, 7, c1)
  | (some none, c1) => (List.replicate 16 0, 0, c1)
  | (some (some (idx, e)), c1) => (pfxResult e.data 0 3 idx, 0, c1)

/-! ## S3's changes (R205, R206, R209, R218) -/

/-- Key of a record in S3's shadow: the order of R223 SEARCH is VRF, then address, then length. -/
def pfxKey (v6 : Bool) (vrf addr len : Nat) : Nat :=
  ((v6.toNat * 4096 + vrf) * 2 ^ 128 + addr) * 256 + len

/-- Family, VRF, address and length of a key. -/
def pfxUnkey (k : Nat) : Bool × Nat × Nat × Nat :=
  let len := k % 256
  let a := k / 256 % 2 ^ 128
  let fv := k / 256 / 2 ^ 128
  (decide (4096 ≤ fv), fv % 4096, a, len)

/-- A record of S3's shadow given a value. -/
def Chip.pfxRec (c : Chip) (key : Nat) (r : Option PfxRec) : Chip :=
  { c with tbl := { c.tbl with pfx := mput c.tbl.pfx key r } }

/-- Whether a length always lives in the CAM (R205). -/
def camOnly (v6 : Bool) (len : Nat) : Bool := if v6 then decide (len < 20) else decide (len < 8)

/-- Whether a length is expanded (R206). -/
def expanded (v6 : Bool) (len : Nat) : Bool := !v6 && decide (8 ≤ len) && decide (len < 16)

/-- A free slot of a bucket. -/
def Chip.pstFreeIn (c : Chip) (st b : Nat) : Option Nat := slotWhere fun s => (c.pstGet st b s).isNone

/-- The other candidate bucket of the entry in a slot. -/
def Chip.pstOther (c : Chip) (st b s : Nat) : Nat :=
  match c.pstGet st b s with
  | none => b
  | some e =>
    let key := storeKey st e.vrf e.len e.addr
    let b0 := c.pfxCand st 0 key
    if b = b0 then c.pfxCand st 1 key else b0

/-- One level of the search for a relocation chain in a store, as R190 (R218). -/
def Chip.pstLevel (c : Chip) (st : Nat) :
    List (Nat × List (Nat × Nat)) → List (Nat × List (Nat × Nat)) →
    Option (List (Nat × Nat)) × List (Nat × List (Nat × Nat))
  | [], next => (none, next)
  | (b, path) :: rest, next =>
    let steps := (List.range 8).map fun s => (s, c.pstOther st b s)
    match steps.find? fun x => (c.pstFreeIn st x.2).isSome with
    | some x => (some ((b, x.1) :: path), [])
    | none => c.pstLevel st rest (next ++ steps.map fun x => (x.2, (b, x.1) :: path))

/-- The shortest chain of at most `n` entries in a store, last entry first. -/
def Chip.pstChain (c : Chip) (st : Nat) : Nat → List (Nat × List (Nat × Nat)) → Option (List (Nat × Nat))
  | 0, _ => none
  | n + 1, front =>
    match c.pstLevel st (front.foldl (fun l x => frontIns x l) []) [] with
    | (some p, _) => some p
    | (none, next) => c.pstChain st n next

/-- The moves of a chain, starting with the move into the free slot. -/
def Chip.pstRun (c : Chip) (st : Nat) : List (Nat × Nat) → Chip
  | [] => c
  | (b, s) :: rest =>
    let b' := c.pstOther st b s
    match c.pstFreeIn st b' with
    | none => c
    | some s' => ((c.pstPut st b' s' (c.pstGet st b s)).pstPut st b s none).pstRun st rest

/-- An entry put into its store, relocating if both candidate buckets are full; `none` when no chain is
found (R218). -/
def Chip.pstInsert (c : Chip) (st : Nat) (e : PSlot) : Option Chip :=
  let key := storeKey st e.vrf e.len e.addr
  let b0 := c.pfxCand st 0 key
  let b1 := c.pfxCand st 1 key
  let place (c : Chip) : Option Chip :=
    match c.pstFreeIn st b0 with
    | some s => some (c.pstPut st b0 s (some e))
    | none => (c.pstFreeIn st b1).map fun s => c.pstPut st b1 s (some e)
  match place c with
  | some c1 => some c1
  | none =>
    match c.pstChain st c.tbl.maxPath [(b0, []), (b1, [])] with
    | none => none
    | some ch => place (c.pstRun st ch)

/-- A store entry with its filter bit: entry written, then the count raised; `none` for a ninth bit or no
room (R209, R218). -/
def Chip.storeAdd (c : Chip) (v6 : Bool) (e : PSlot) : Option Chip :=
  let f := c.filtIdx v6 e.vrf e.addr
  if !c.filtRoom v6 f e.len then none
  else (c.pstInsert (storeOf v6 e.len) e).map fun c1 => c1.filtPut v6 f e.len (c1.filtCount v6 f e.len + 1)

/-- A store entry removed: the count lowered, then the entry cleared (R218). -/
def Chip.storeDel (c : Chip) (v6 : Bool) (vrf len addr : Nat) : Chip :=
  let st := storeOf v6 len
  let f := c.filtIdx v6 vrf addr
  match c.pstFind st vrf len addr with
  | none => c
  | some (b, s) => (c.filtPut v6 f len (c.filtCount v6 f len - 1)).pstPut st b s none

/-- The data of a store entry replaced, with its original length. -/
def Chip.storeSet (c : Chip) (v6 : Bool) (vrf len addr : Nat) (data : List Byte) (orig : Nat) : Chip :=
  let st := storeOf v6 len
  match c.pstFind st vrf len addr with
  | none => c
  | some (b, s) => c.pstPut st b s (some { vrf, len, addr, data, orig })

/-- The store-resident record of greatest length, at most 16, that covers a /16 point (R206). -/
def Chip.pointBest (c : Chip) (vrf point : Nat) : Nat → Option (Nat × PfxRec)
  | 0 => none
  | n + 1 =>
    let len := 16 - (8 - n)
    match mget c.tbl.pfx (pfxKey false vrf (pfxMask false len (point <<< 16)) len) with
    | some r => if r.cam.isNone then some (len, r) else c.pointBest vrf point n
    | none => c.pointBest vrf point n

/-- The entry of a /16 point brought to what R206 says, from S3's shadow; `none` when it needs room that is
not there. -/
def Chip.pointFix (c : Chip) (vrf point : Nat) : Option Chip :=
  let addr := point <<< 16
  match c.pointBest vrf point 9 with
  | none => some (c.storeDel false vrf 16 addr)
  | some (orig, r) =>
    if (c.pstFind 0 vrf 16 addr).isSome then some (c.storeSet false vrf 16 addr r.data orig)
    else c.storeAdd false { vrf, len := 16, addr, data := r.data, orig }

/-- Points brought up to date in ascending address order (R219). -/
def Chip.pointsFix (c : Chip) (vrf : Nat) : List Nat → Option Chip
  | [] => some c
  | p :: ps => match c.pointFix vrf p with
    | none => none
    | some c1 => c1.pointsFix vrf ps

/-- The /16 points a length of 8 to 16 covers. -/
def pointsOf (addr len : Nat) : List Nat := (List.range (2 ^ (16 - len))).map fun j => (addr >>> 16) + j

/-- Placement of a record in its store (R205, R206): `none` when it becomes an overflow. -/
def Chip.pfxToStore (c : Chip) (v6 : Bool) (vrf addr len : Nat) (data : List Byte) : Option Chip :=
  let c1 := c.pfxRec (pfxKey v6 vrf addr len) (some { data, cam := none, pinned := false })
  if !v6 && decide (len ≤ 16) then c1.pointsFix vrf (pointsOf addr len)
  else c1.storeAdd v6 { vrf, len, addr, data, orig := len }

/-- A record removed from its store, its shadow record having been changed first (R206, R218). -/
def Chip.pfxFromStore (c : Chip) (v6 : Bool) (vrf addr len : Nat) : Chip :=
  if !v6 && decide (len ≤ 16) then (c.pointsFix vrf (pointsOf addr len)).getD c
  else c.storeDel v6 vrf len addr

/-- Indexes of a family's CAM region, ascending. -/
def Chip.camRegion (c : Chip) (v6 : Bool) : List Nat :=
  (((List.range 64).filter fun b => c.camBlkIs (if v6 then 2 else 1) 0 b).map fun b =>
    (List.range 256).map fun j => b * 256 + j).flatten

/-- Bands moved so that the free entry `g` rises to the insertion point `p`: the first entry of the band just
above the free entry is copied to it and cleared, band by band (R218). `occ` lists the occupied entries of the
region between the two, from the free entry upwards. -/
def Chip.camRise (c : Chip) (g : Nat) : List (Nat × CamE) → Nat × Chip
  | [] => (g, c)
  | (i, e) :: up =>
    match up with
    | [] => (i, (c.camPut g (some e)).camPut i none)
    | (_, e') :: _ =>
      if e'.len = e.len then c.camRise g up
      else ((c.camPut g (some e)).camPut i none).camRise i up

/-- The same in the other direction, for a region whose only free entries lie above the insertion point
(log 20). `occ` lists the occupied entries from the free entry downwards. -/
def Chip.camSink (c : Chip) (g : Nat) : List (Nat × CamE) → Nat × Chip
  | [] => (g, c)
  | (i, e) :: dn =>
    match dn with
    | [] => (i, (c.camPut g (some e)).camPut i none)
    | (_, e') :: _ =>
      if e'.len = e.len then c.camSink g dn
      else ((c.camPut g (some e)).camPut i none).camSink i dn

/-- The gap a new entry of a length takes (R212, R218): which of several free indexes is a free value
(log 20). `none` when the region has no room. -/
def Chip.camGap (c : Chip) (v6 : Bool) (len : Nat) : Option (Nat × Chip) :=
  let region := c.camRegion v6
  let entry := fun i => mget c.tbl.cam i
  let longer := region.filter fun i => match entry i with | some e => decide (len ≤ e.len) | none => false
  let shorter := region.filter fun i => match entry i with | some e => decide (e.len < len) | none => false
  let free := region.filter fun i => (entry i).isNone
  let lo := longer.getLast?
  let hi := shorter.head?
  let gap := free.filter fun i =>
    (match lo with | some l => decide (l < i) | none => true) && (match hi with | some h => decide (i < h) | none => true)
  match gap with
  | g :: gs =>
    let (w, c1) := c.free
    some (((g :: gs)[w.toNat % (gs.length + 1)]?).getD g, c1)
  | [] =>
    match free.find? (fun i => match hi with | some h => decide (h < i) | none => false) with
    | some g =>
      some (c.camRise g (((shorter.filter fun i => decide (i < g)).reverse).filterMap fun i => (entry i).map fun e => (i, e)))
    | none =>
      match (free.filter fun i => match lo with | some l => decide (i < l) | none => false).getLast? with
      | some g => some (c.camSink g ((longer.filter fun i => decide (g < i)).filterMap fun i => (entry i).map fun e => (i, e)))
      | none => none

/-- A record of S3's shadow with the CAM index at which its entry stands now. -/
def Chip.camReindexed (c : Chip) (v6 : Bool) (kv : Nat × PfxRec) : Nat × PfxRec :=
  let u := pfxUnkey kv.1
  let hit := c.tbl.cam.find? fun e =>
    c.camIn (if v6 then 2 else 1) 0 e.1 && e.2.len == u.2.2.2 && e.2.value == camKey v6 u.2.1 u.2.2.1
  match hit with
  | some e => if u.1 == v6 && kv.2.cam.isSome then (kv.1, { kv.2 with cam := some e.1 }) else kv
  | none => kv

/-- Bands that move take their records with them: S3's shadow follows the index of every entry. -/
def Chip.camReindex (c : Chip) (v6 : Bool) : Chip :=
  { c with tbl := { c.tbl with pfx := c.tbl.pfx.map (c.camReindexed v6) } }

/-- The CAM entry of a record. -/
def camEntry (v6 : Bool) (vrf addr len : Nat) (data : List Byte) (pinned : Bool) : CamE :=
  { value := camKey v6 vrf addr
    mask := BitVec.ofNat 160 ((pfxMask v6 len (2 ^ famBits v6 - 1)) <<< (if v6 then 32 else 128) + 4095)
    data, len, pinned }

/-- A record placed in the CAM; `none` when its region has no room. -/
def Chip.pfxToCam (c : Chip) (v6 : Bool) (vrf addr len : Nat) (data : List Byte) (pinned : Bool) : Option Chip :=
  match c.camGap v6 len with
  | none => none
  | some (g, c1) =>
    let c2 := c1.camPut g (some (camEntry v6 vrf addr len data pinned))
    some ((c2.pfxRec (pfxKey v6 vrf addr len) (some { data, cam := some g, pinned })).camReindex v6)

/-- A whole record added: its store, or the CAM (R205, R209, R218). -/
def Chip.pfxAdd (c : Chip) (v6 : Bool) (vrf addr len : Nat) (data : List Byte) : Option Chip :=
  if camOnly v6 len then c.pfxToCam v6 vrf addr len data false
  else
    match c.pfxToStore v6 vrf addr len data with
    | some c1 => some c1
    | none => c.pfxToCam v6 vrf addr len data false

/-- A whole record removed. -/
def Chip.pfxDel (c : Chip) (v6 : Bool) (vrf addr len : Nat) (r : PfxRec) : Chip :=
  let c1 := c.pfxRec (pfxKey v6 vrf addr len) none
  match r.cam with
  | some idx => c1.camPut idx none
  | none => c1.pfxFromStore v6 vrf addr len

/-- The data of a record replaced where it lives. -/
def Chip.pfxSet (c : Chip) (v6 : Bool) (vrf addr len : Nat) (r : PfxRec) (data : List Byte) : Chip :=
  let c1 := c.pfxRec (pfxKey v6 vrf addr len) (some { r with data })
  match r.cam with
  | some idx => c1.camPut idx (some (camEntry v6 vrf addr len data r.pinned))
  | none => if !v6 && decide (len ≤ 16) then (c1.pointsFix vrf (pointsOf addr len)).getD c1
            else c1.storeSet v6 vrf len addr data len

/-! ## Commands (R222, R223, R224) -/

/-- VRF, LEN and address of a kind 2 or 3 block. -/
def pfxVrf (b : List Byte) : Nat := blkLoc b / 1048576
def pfxLen (b : List Byte) : Nat := blkLoc b % 256
def pfxAddr (v6 : Bool) (b : List Byte) : Nat := if v6 then blkNat b 8 16 else blkNat b 8 4

/-- CTL of a result (R222). -/
def pfxCtl (v6 : Bool) (len : Nat) (r : PfxRec) : Nat :=
  2 ^ 63 + (if r.pinned then 2 ^ 61 else 0) +
  (match r.cam with | some i => 2 ^ 60 + i | none => if expanded v6 len then 2 ^ 59 else 0)

/-- A block that describes a record. -/
def pfxBlk (b : List Byte) (v6 : Bool) (vrf addr len : Nat) (r : PfxRec) : List Byte :=
  let key := if v6 then beBytes 16 addr else beBytes 4 addr ++ List.replicate 12 0
  blkPut (blkPut (blkPut (blkPut (blkStatus b stOk) 4 (beBytes 4 (vrf * 1048576 + len))) 8 key)
    24 (slice r.data 0 8)) 40 (beBytes 8 (pfxCtl v6 len r))

/-- The BEFORE image of a record (R445). -/
def pfxImage (v6 : Bool) (vrf addr len : Nat) (r : Option PfxRec) : List Byte :=
  let b := beBytes 1 1 ++ beBytes 1 (if v6 then 3 else 2) ++ List.replicate 62 0
  match r with
  | some x => pfxBlk b v6 vrf addr len x
  | none => blkPut (blkPut b 4 (beBytes 4 (vrf * 1048576 + len))) 8
      (if v6 then beBytes 16 addr else beBytes 4 addr ++ List.replicate 12 0)

/-- A block of kinds 2 and 3 is well formed (R222, R223). -/
def pfxWf (b : List Byte) : Bool :=
  let v6 := blkKind b == 3
  let op := blkOp b
  let look := op == 14
  (op == 1 || op == 2 || op == 3 || op == 4 || op == 5 || op == 6 || op == 12 || op == 13 || look) &&
  blkInst b == 0 && blkNat b 3 1 == 0 && blkLoc b / 256 % 4096 == 0 &&
  (v6 || blkNat b 12 12 == 0) && blkNat b 32 8 == 0 && blkNat b 40 8 == 0 && blkNat b 48 12 == 0 &&
  decide (pfxLen b ≤ famBits v6) && (look || pfxMask v6 (pfxLen b) (pfxAddr v6 b) == pfxAddr v6 b)

/-- Operations the unit hands to S3 (R217): all but READ, LOOKUP, and UPDATE and SWAP of what is not
expanded. -/
def pfxToS3 (b : List Byte) : Bool :=
  let op := blkOp b
  !(op == 3 || op == 14 || ((op == 4 || op == 5) && !expanded (blkKind b == 3) (pfxLen b)))

/-- Operations whose completion is journalled (R221, R437). -/
def pfxJournals (b : List Byte) : Bool :=
  let op := blkOp b
  op == 1 || op == 2 || op == 4 || op == 5 || op == 12 || op == 13

/-- The first record of a family at or after a key (R223 SEARCH). -/
def pfxNext (key : Nat) (v6 : Bool) : SMap PfxRec → Option (Nat × PfxRec)
  | [] => none
  | (a, r) :: m => if key ≤ a && (pfxUnkey a).1 == v6 then some (a, r) else pfxNext key v6 m

/-- A kind 2 or 3 operation carried out: the result block and the device after it (R223). -/
def Chip.pfxDo (c : Chip) (k : Clk) (cmd : TblCmd) : List Byte × Chip :=
  let b := cmd.blk
  let v6 := blkKind b == 3
  let kind := blkKind b
  let vrf := pfxVrf b
  let len := pfxLen b
  let addr := pfxAddr v6 b
  let key := pfxKey v6 vrf addr len
  let data := slice b 24 8
  let no := fun (st : Nat) (c : Chip) => (blkStatus b st, c.jnlDrop cmd.held)
  let full (c : Chip) := no stFull ((c.count Reg.pfx_PFX_FULL_CNT 1).raise 0x232 27)
  let jnl (op : Nat) (r : Option PfxRec) (c : Chip) :=
    c.jnlAdd k cmd.held kind op cmd.agent r.isSome (pfxImage v6 vrf addr len r)
  match blkOp b, mget c.tbl.pfx key with
  | 1, some _ => no stExists c
  | 1, none =>
    match c.pfxAdd v6 vrf addr len data with
    | none => full c
    | some c1 => (pfxBlk b v6 vrf addr len ((mget c1.tbl.pfx key).getD { data, cam := none, pinned := false }), jnl 1 none c1)
  | 6, _ =>
    match pfxNext key v6 c.tbl.pfx with
    | none => no stNotFound c
    | some (a, r) =>
      let u := pfxUnkey a
      (pfxBlk b v6 u.2.1 u.2.2.1 u.2.2.2 r, c)
  | 14, _ =>
    match (if c.pfxReady v6 then c.pfxFind v6 vrf addr else (some .miss, c)) with
    | (none, c1) => (blkStatus b stIntegrity, c1)
    | (some .miss, c1) => (blkStatus b stNotFound, c1)
    | (some (.store e), c1) =>
      let r : PfxRec := { data := e.data, cam := none, pinned := false }
      (blkPut (blkPut (blkPut (blkStatus b stOk) 7 (beBytes 1 e.orig)) 24 (slice e.data 0 8)) 40 (beBytes 8 (pfxCtl v6 e.orig r)), c1)
    | (some (.cam i e), c1) =>
      let r : PfxRec := { data := e.data, cam := some i, pinned := e.pinned }
      (blkPut (blkPut (blkPut (blkStatus b stOk) 7 (beBytes 1 e.len)) 24 (slice e.data 0 8)) 40 (beBytes 8 (pfxCtl v6 e.len r)), c1)
  | _, none => no stNotFound c
  | 2, some r => (pfxBlk b v6 vrf addr len r, jnl 2 (some r) (c.pfxDel v6 vrf addr len r))
  | 3, some r => (pfxBlk b v6 vrf addr len r, c)
  | 4, some r => (pfxBlk b v6 vrf addr len { r with data }, jnl 4 (some r) (c.pfxSet v6 vrf addr len r data))
  | 5, some r => (pfxBlk b v6 vrf addr len r, jnl 5 (some r) (c.pfxSet v6 vrf addr len r data))
  | 12, some r =>
    match r.cam with
    | some idx =>
      let r' : PfxRec := { r with pinned := true }
      (pfxBlk b v6 vrf addr len r',
        jnl 12 (some r) ((c.pfxRec key (some r')).camPut idx (some (camEntry v6 vrf addr len r.data true))))
    | none =>
      match c.pfxToCam v6 vrf addr len r.data true with
      | none => full c
      | some c1 =>
        let c2 := c1.pfxFromStore v6 vrf addr len
        (pfxBlk b v6 vrf addr len ((mget c2.tbl.pfx key).getD r), jnl 12 (some r) c2)
  | _, some r =>
    let r' : PfxRec := { r with pinned := false }
    let c1 := c.pfxRec key (some r')
    let c2 := match r.cam with
      | some idx => c1.camPut idx (some (camEntry v6 vrf addr len r.data false))
      | none => c1
    (pfxBlk b v6 vrf addr len r', jnl 13 (some r) c2)

/-- A kind 4 operation (R224): bytes of a block. -/
def camBlkOf (b : List Byte) (idx : Nat) (e : Option CamE) : List Byte :=
  let b1 := blkPut (blkStatus b stOk) 4 (beBytes 4 idx)
  match e with
  | some x => blkPut (blkPut (blkPut (blkPut b1 8 (beBytes 20 x.value.toNat)) 28 (beBytes 20 x.mask.toNat)) 48 (slice x.data 0 8))
      56 (beBytes 4 1)
  | none => blkPut b1 8 (List.replicate 52 0)

/-- Kind 4 operations: READ, WRITE_SLOT and LOOKUP (R224). -/
def Chip.cam4Do (c : Chip) (k : Clk) (cmd : TblCmd) : List Byte × Chip :=
  let b := cmd.blk
  let num := blkInst b
  let idx := blkNat b 4 4
  let no := fun (st : Nat) (c : Chip) => (blkStatus b st, c.jnlDrop cmd.held)
  match blkOp b with
  | 3 => if c.camIn 3 num idx then (camBlkOf b idx (mget c.tbl.cam idx), c) else no stBadArg c
  | 9 =>
    if !c.camIn 3 num idx || decide (1 < blkNat b 56 4) then no stBadArg c
    else
      let old := mget c.tbl.cam idx
      let e : CamE := { value := BitVec.ofNat 160 (blkNat b 8 20), mask := BitVec.ofNat 160 (blkNat b 28 20), data := slice b 48 8 }
      let c1 := c.camPut idx (if blkNat b 56 4 = 1 then some e else none)
      (blkStatus b stOk, c1.jnlAdd k cmd.held 4 9 cmd.agent old.isSome
        (camBlkOf (beBytes 1 9 ++ beBytes 1 4 ++ beBytes 1 num ++ List.replicate 61 0) idx old))
  | 14 =>
    match c.camLookup num (BitVec.ofNat 160 (blkNat b 8 20)) with
    | (none, c1) => (blkStatus b stIntegrity, c1)
    | (some none, c1) => (blkStatus b stNotFound, c1)
    | (some (some (i, e)), c1) => (blkPut (blkPut (blkStatus b stOk) 4 (beBytes 4 i)) 48 (slice e.data 0 8), c1)
  | _ => no stBadArg c

/-- The family that orders a command: 4, 6, or 0 for kind 4 (R217). -/
def pfxFam (b : List Byte) : Nat := if blkKind b = 2 then 4 else if blkKind b = 3 then 6 else 0

/-- What is tested before a kind 2 or 3 command does anything: its form, BUSY of R207, BUSY of R220. A
disabled family answers as its empty structures do. -/
def Chip.pfxAdmit (c : Chip) (cmd : TblCmd) : Nat :=
  let b := cmd.blk
  if !pfxWf b then stBadArg
  else if c.tbl.pfxClearing.contains (pfxFam b) then stBusy
  else if pfxToS3 b && (!c.serves 3 || c.tbl.pfxRebuild) then stBusy
  else stOk

/-- A kind 4 command is of the right form. -/
def cam4Wf (b : List Byte) : Bool := decide (blkInst b < 16) && blkNat b 3 1 == 0 && decide (blkNat b 4 4 < 16384)

/-- A command of kinds 2 to 4 is taken by the command unit (R217): it waits while S3 works on a command of its
family, and an operation that R217 gives to S3 is handed over. -/
def Chip.pfxSubmit (c : Chip) (k : Clk) (cmd : TblCmd) : Chip :=
  let b := cmd.blk
  if c.faulted 0x232 || c.inReset 0x232 then c.tblDeliver true cmd (blkStatus b stAborted)
  else if blkKind b = 4 then
    if !cam4Wf b then c.tblDeliver true cmd (blkStatus b stBadArg)
    else
      let j := if blkOp b = 9 then c.jnlTake cmd.agent else (stOk, false, c)
      if j.1 = 0 then
        let r := j.2.2.cam4Do k { cmd with held := j.2.1 }
        r.2.tblDeliver true cmd r.1
      else j.2.2.tblDeliver true cmd (blkStatus b j.1)
  else if blkKind b ≠ 2 ∧ blkKind b ≠ 3 then c.tblDeliver true cmd (blkStatus b stBadArg)
  else
    let fam := pfxFam b
    if (mget c.tbl.pfxPend fam).isSome then
      { c with tbl := { c.tbl with pfxWait := mput c.tbl.pfxWait fam (some ((mget c.tbl.pfxWait fam).getD [] ++ [cmd])) } }
    else
      match c.pfxAdmit cmd with
      | 0 =>
        let j := if pfxJournals b then c.jnlTake cmd.agent else (stOk, false, c)
        if j.1 ≠ 0 then j.2.2.tblDeliver true cmd (blkStatus b j.1)
        else
          let cmd' := { cmd with held := j.2.1 }
          if pfxToS3 b then { j.2.2 with tbl := { j.2.2.tbl with pfxPend := mput j.2.2.tbl.pfxPend fam (some cmd') } }
          else
            let r := j.2.2.pfxDo k cmd'
            r.2.tblDeliver true cmd r.1
      | st => c.tblDeliver true cmd (blkStatus b st)

/-- Commands of a family that waited are taken in arrival order until one is handed to S3. -/
def Chip.pfxDrain (c : Chip) (k : Clk) (fam : Nat) : Nat → Chip
  | 0 => c
  | n + 1 =>
    if (mget c.tbl.pfxPend fam).isSome then c
    else
      match (mget c.tbl.pfxWait fam).getD [] with
      | [] => c
      | cmd :: rest =>
        let c1 := { c with tbl := { c.tbl with pfxWait := mput c.tbl.pfxWait fam (if rest = [] then none else some rest) } }
        (c1.pfxSubmit k cmd).pfxDrain k fam n

/-- S3 completes the command it holds for a family (R217). -/
def Chip.pfxS3Done (c : Chip) (k : Clk) (v6 : Bool) : Chip :=
  let fam := famNum v6
  match mget c.tbl.pfxPend fam with
  | none => c
  | some cmd =>
    let c0 := { c with tbl := { c.tbl with pfxPend := merase c.tbl.pfxPend fam } }
    let r := if c.serves 3 then c0.pfxDo k cmd else (blkStatus cmd.blk stBusy, c0.jnlDrop cmd.held)
    let c1 := r.2.tblDeliver true cmd r.1
    c1.pfxDrain k fam (((mget c1.tbl.pfxWait fam).getD []).length + 1)

/-- S3 returns an overflow record to its store once there is room (R218). -/
def Chip.pfxReturn (c : Chip) (v6 : Bool) (vrf addr len : Nat) : Chip :=
  match mget c.tbl.pfx (pfxKey v6 vrf addr len) with
  | some { data, cam := some idx, pinned := false } =>
    if camOnly v6 len || !c.serves 3 || c.tbl.pfxRebuild || (mget c.tbl.pfxPend (famNum v6)).isSome then c
    else
      match c.pfxToStore v6 vrf addr len data with
      | some c1 => c1.camPut idx none
      | none => c
  | _ => c

/-! ## The page (R207, R215, R226, R227) -/

/-- The block of the page's registers. -/
def Chip.pfxPageBlock (c : Chip) : List Byte :=
  ((List.range 16).map fun n => wordBytesBE (c.rd (Reg.pfx_PFX_BLK n))).flatten

/-- A write of PFX_CMD (R226). -/
def Chip.pfxCmdWrite (c : Chip) (k : Clk) (agent : Nat) (v : Word) : Chip :=
  if !bit v 31 then c
  else if c.rdB Reg.pfx_PFX_CMD 31 then c.wr Reg.pfx_PFX_STATUS (wd stBusy)
  else (c.wr Reg.pfx_PFX_CMD 0x80000000).pfxSubmit k { agent, dma := false, blk := c.pfxPageBlock, dest := .page }

/-- A family's structures cleared (R207). -/
def Chip.pfxClear (c : Chip) (v6 : Bool) : Chip :=
  { c with tbl := { c.tbl with
    pst := if v6 then mclear c.tbl.pst (pstKey 1 0 0) (pstKey 3 0 0) else mclear c.tbl.pst 0 (pstKey 1 0 0)
    fcnt := c.tbl.fcnt.filter fun kv => kv.1 % 2 != v6.toNat
    cam := c.tbl.cam.filter fun kv => !c.camIn (if v6 then 2 else 1) 0 kv.1
    pfx := c.tbl.pfx.filter fun kv => (pfxUnkey kv.1).1 != v6
    pfxClearing := famNum v6 :: c.tbl.pfxClearing.erase (famNum v6) } }

/-- A write of PFX_CFG: setting EN starts the clear of the family (R207). -/
def Chip.pfxCfgWrite (c : Chip) (v6 : Bool) (v : Word) : Chip :=
  let c1 := c.wr (pfxCfg v6) (v &&& 0x803F0000)
  if bit v 31 && !c.rdB (pfxCfg v6) 31 then c1.pfxClear v6 else c1

/-- Whether a CAM block holds a valid entry (R215). -/
def Chip.camBlkUsed (c : Chip) (b : Nat) : Bool := c.tbl.cam.any fun kv => kv.1 / 256 == b

/-- A write of CAM_BLK: `false` when it is an access error of kind 5 (R215). -/
def Chip.camBlkWrite (c : Chip) (b : Nat) (v : Word) : Bool × Chip :=
  if c.camBlkUsed b then (false, c) else (true, c.wr (Reg.pfx_CAM_BLK b) (v &&& 0x00000F03))

/-- Records of a family, and those of them whose home is the CAM (PFX4_CNT, PFX6_CNT, CAM_PFX_CNT). -/
def Chip.pfxCount (c : Chip) (v6 cam : Bool) : Nat :=
  (c.tbl.pfx.filter fun kv => (pfxUnkey kv.1).1 == v6 && (!cam || kv.2.cam.isSome)).length

/-- IPv4 store slots in use (PFX4_SLOT_CNT). -/
def Chip.pfxSlots4 (c : Chip) : Nat := (c.tbl.pst.filter fun kv => decide (kv.1 < pstKey 1 0 0)).length

/-- Commands handed to S3 end with a status: ABORTED at a soft reset (R227), BUSY at an abort of S3 (R168,
R220). -/
def Chip.pfxEndPending (c : Chip) (k : Clk) (st : Nat) : Chip :=
  [4, 6].foldl (fun c fam =>
    match mget c.tbl.pfxPend fam with
    | none => c
    | some cmd =>
      let c0 := ({ c with tbl := { c.tbl with pfxPend := merase c.tbl.pfxPend fam } }).jnlDrop cmd.held
      let c1 := c0.tblDeliver true cmd (blkStatus cmd.blk st)
      if st = stAborted then
        let c2 := ((mget c1.tbl.pfxWait fam).getD []).foldl (fun c w => c.tblDeliver true w (blkStatus w.blk stAborted)) c1
        { c2 with tbl := { c2.tbl with pfxWait := merase c2.tbl.pfxWait fam } }
      else c1.pfxDrain k fam (((mget c1.tbl.pfxWait fam).getD []).length + 1)) c

/-- A soft reset of the page keeps CAM_BLK of the blocks that hold an entry (R227): their values before it. -/
def Chip.camBlkKept (c : Chip) : List (Nat × Word) :=
  ((List.range 64).filter c.camBlkUsed).map fun b => (b, c.rd (Reg.pfx_CAM_BLK b))

/-- A table command block of any kind reaches its unit (R181, R225). -/
def Chip.tblSubmit (c : Chip) (k : Clk) (cmd : TblCmd) : Chip :=
  if blkKind cmd.blk = 2 ∨ blkKind cmd.blk = 3 ∨ blkKind cmd.blk = 4 then c.pfxSubmit k cmd else c.emSubmit k cmd

end Sys2Proof.Machine
end

