-- ==== Sys2Proof/Machine/Weir.lean ====
section
/-!
DEFINITION. Machine/Weir.lean: a weir runs its program over a bundle for one beat (05_weir_engines.md), the
hash unit and the load-balance indirection (04_parser_and_load_balance.md R99 to R106).
-/
namespace Sys2Proof.Machine

/-! ## Lanes (R109, R110) -/

/-- A lane: the header in a bundle slot. -/
structure Lane where
  /-- lane number, which is the slot -/
  n : Nat
  /-- the packet: a frame on ingress, a copy on egress -/
  id : Nat
  elig : Bool
  mask : Bool
  carry : SMap Byte
  lr : SMap Word := []
  /-- lookups issued in this beat: slot, kind, number, key (R123) -/
  issued : List (Nat × Nat × Nat × List Byte) := []
  /-- colour to be written before the next weir (R126) -/
  colour : Option Nat := none
  deriving DecidableEq, Repr

/-- What a program is run with. -/
structure WEnv where
  reach : Nat
  weir : Nat
  epoch : Nat
  bank : Bool
  tns : Nat
  tsec : Nat
  deriving DecidableEq, Repr

/-- A program in progress. -/
structure WRun where
  chip : Chip
  lanes : List Lane
  clk : Nat := 0
  pc : Nat
  stack : List Nat := []
  /-- lookups issued by the beat so far (R125) -/
  tables : Nat := 0
  metered : Bool := false
  /-- the hash profile issued, with the lanes active for it (R102) -/
  hash : Option (Nat × List Nat) := none
  /-- address of the last word executed -/
  lastPc : Option Nat := none
  deriving DecidableEq, Repr

/-- An active lane: its mask bit is 1 (an ineligible lane's never is). -/
def Lane.active (l : Lane) : Bool := l.elig && l.mask

/-! ## Operands in a weir (R114) -/

/-- The mask bits and the eligible set as words. -/
def maskV (ls : List Lane) : Word := ls.foldl (fun w l => if l.active then w ||| oneBit l.n else w) 0
def eligV (ls : List Lane) : Word := ls.foldl (fun w l => if l.elig then w ||| oneBit l.n else w) 0

/-- An operand of a lane at the start of a word; a reserved code reads zero (R118). -/
def WRun.operand (r : WRun) (e : WEnv) (imm : Word) (l : Lane) (code : Nat) : Word :=
  if code < 0x0C0 then cword l.carry code
  else if code < 0x0D0 then mrd 0 l.lr (code - 0x0C0)
  else if code < 0x0F0 then r.chip.rdE e.bank (Reg.weir_CR e.reach e.weir (code - 0x0D0))
  else match code with
    | 0x0F0 => imm
    | 0x0F1 => wd l.n
    | 0x0F2 => maskV r.lanes
    | 0x0F3 => eligV r.lanes
    | 0x0F5 => wd r.clk
    | 0x0F6 => wd e.tns
    | 0x0F7 => wd e.tsec
    | 0x0F8 => wd (e.reach * 16777216 + e.weir * 65536 + e.epoch)
    | _ => 0

/-- The value of a destination at the start of a word; codes 0xD0 and above read as zero (R117, BFI). -/
def destOld (l : Lane) (dst : Nat) : Word :=
  if dst < 0xC0 then cword l.carry dst else if dst < 0xD0 then mrd 0 l.lr (dst - 0xC0) else 0

/-! ## Effects of one word (R111, R117) -/

/-- What one ALU does in one lane. -/
inductive AluEff where
  | none
  | write (dst : Nat) (v : Word)
  | drop (code : Nat)
  | trap (code : Nat) (hostOnly : Bool)
  deriving DecidableEq, Repr

/-- What ALU field `f` does in a lane, from the state at the start of the word (R117). `src` reads an operand. -/
def aluEffect (f : Nat) (src : Nat → Word) (old imm lor : Word) : AluEff :=
  let op := aluOp f
  let a := src (aluA f)
  let b := src (aluB f)
  match op with
  | 0x30 => if b ≠ 0 ∧ a.toNat % 64 ≠ 0 then .drop (a.toNat % 64) else .none
  | 0x31 => if b ≠ 0 then .trap (a.toNat % 256) false else .none
  | 0x32 => if b ≠ 0 then .trap (a.toNat % 256) true else .none
  | _ => match aluResult op a b imm old lor with
    | some v => .write (aluDst f) v
    | none => .none

/-- The OR of A over the active lanes of a word. -/
def laneOr (r : WRun) (e : WEnv) (imm : Word) (f : Nat) : Word :=
  r.lanes.foldl (fun w l => if l.active then w ||| r.operand e imm l (aluA f) else w) 0

/-- The effect of ALU `n` of a word in a lane. -/
def WRun.effect (r : WRun) (e : WEnv) (w : BitVec 256) (l : Lane) (n : Nat) : AluEff :=
  let f := mwAlu w n
  aluEffect f (r.operand e (mwImm w) l) (destOld l (aluDst f)) (mwImm w)
    (if aluOp f = 0x2F then laneOr r e (mwImm w) f else 0)

/-- An effect applied to a lane: carry, lane register and drop writes only when it was active, mask writes when
it is eligible (R110). `act` is its activity at the start of the word. -/
def Lane.apply (l : Lane) (act : Bool) : AluEff → Lane
  | .none => l
  | .write dst v =>
    if isMaskDst dst then (if l.elig then { l with mask := maskAfter dst l.mask v } else l)
    else if !act then l
    else if dst < 0xC0 then { l with carry := cstores l.carry (4 * dst) (wordBytesBE v) }
    else if dst < 0xD0 then { l with lr := mset 0 l.lr (dst - 0xC0) v }
    else l
  | .drop code => if act then { l with carry := csetDrop l.carry code } else l
  | .trap code h => if act then { l with carry := ctrap l.carry code h } else l

/-- MOVE in a lane (R121), from the carry at the start of the word. -/
def moveLane (w : BitVec 256) (l : Lane) : Lane :=
  let m := mwMove w
  let src := m / 2 ^ 14
  let dst := m / 16 % 1024
  let len := m % 16
  if l.active then { l with carry := cstores l.carry dst (cbytes l.carry src (min len (768 - dst))) } else l

/-- The lanes after a word's MOVE and ALU writes, in the order of R111. -/
def WRun.lanesAfter (r : WRun) (e : WEnv) (w : BitVec 256) : List Lane :=
  r.lanes.map fun l =>
    let l1 := moveLane w l
    let l2 := l1.apply l.active (r.effect e w l 0)
    let l3 := l2.apply l.active (r.effect e w l 1)
    let l4 := l3.apply l.active (r.effect e w l 2)
    l4.apply l.active (r.effect e w l 3)

/-! ## The hash unit (R99 to R102) -/

/-- One range of a hash profile: the bytes it takes and its length, or none. -/
def Chip.hashRange (c : Chip) (b : Bool) (r q f : Nat) (carry : SMap Byte) : Option (List Byte × Bool) :=
  let w := c.rdE b (Reg.parser_HFIELD r q f)
  let len := min 64 (fld w 6 0)
  if bit w 31 && len != 0 then some (cbytes carry (fld w 25 16) len, bit w 30) else none

/-- The ranges of a pair f, f + 1 in the order R100 places them. -/
def Chip.hashPair (c : Chip) (b : Bool) (r q f : Nat) (carry : SMap Byte) : List Byte :=
  match c.hashRange b r q f carry, c.hashRange b r q (f + 1) carry with
  | some (x, sym), some (y, _) =>
    if sym && x.length == y.length && decide (beNat y < beNat x) then y ++ x else x ++ y
  | some (x, _), none => x
  | none, some (y, _) => y
  | none, none => []

/-- The 64 input bytes (R100). -/
def Chip.hashInput (c : Chip) (b : Bool) (r q : Nat) (carry : SMap Byte) : List Byte :=
  slice (((List.range 8).map fun i => c.hashPair b r q (2 * i) carry).flatten) 0 64

/-- The result of a profile (R101). -/
def Chip.hashValue (c : Chip) (b : Bool) (r q : Nat) (carry : SMap Byte) : Word :=
  let cfg := c.rdE b (Reg.parser_HCFG r q)
  let seed := c.rdE b (Reg.parser_HSEED r q)
  let inp := c.hashInput b r q carry
  if bit cfg 0 then
    (List.range 512).foldl (fun acc i =>
      if (inp[i / 8]?.getD 0).getLsbD (7 - i % 8) then acc ^^^ c.rdE b (Reg.parser_KEY r (fld cfg 3 1) i) else acc) seed
  else crc32c seed inp

/-! ## The load-balance lookup (R104, R105) -/

/-- An entry is usable (R104). -/
def Chip.indUsable (c : Chip) (g e : Word) : Bool :=
  bit e 31 && (!bit g 31 || !(fld e 30 29 == 1 || fld e 30 29 == 2) || c.fwdUp (fld e 10 0))

/-- The words of the indirection table a lookup reads, checked in turn: `false` at an uncorrectable one (R482). -/
def Chip.indCheck (c : Chip) : List (Nat × Nat) → Bool × Chip
  | [] => (true, c)
  | (mem, w) :: l =>
    match c.ecc 0x23C mem w with
    | (.bad, c1) => (false, c1)
    | (_, c1) => c1.indCheck l

/-- Result slot and drop reason of a load-balance lookup, from the group and HR0 to HR3 as the word that issued
it found them (R104, R105; log 21). -/
def Chip.lbResult (c : Chip) (key : List Byte) : List Byte × Nat × Chip :=
  let group := beNat (slice key 0 2) % 4096
  let g := mrd 0 c.weirs.indG group
  let size := fld g 9 0
  let hr := beNat (slice key (2 + 4 * fld g 30 29) 4)
  let i0 := (hr >>> fld g 28 24 % 65536 * size) >>> 16
  let idx := fun j => (i0 + j) % size
  let found := (List.range (min 8 size)).find? fun j => c.indUsable g (mrd 0 c.weirs.indE (group * 512 + idx j))
  match found with
  | some j =>
    (wordBytesBE (mrd 0 c.weirs.indE (group * 512 + idx j)) ++ beBytes 2 (idx j) ++ [if j = 0 then 1 else 3] ++
      List.replicate 9 0, 0, c)
  | none => (List.replicate 16 0, 6, (c.count Reg.lb_LB_NO_MEMBER_CNT 1).raise 0x23C 1)

/-- A load-balance lookup: it writes the miss result and drops with TABLE_ERROR at an uncorrectable error in the group's
descriptor or an entry it may probe (R482; log 52). -/
def Chip.lbLookup (c : Chip) (key : List Byte) : List Byte × Nat × Chip :=
  if c.upsets.isEmpty then c.lbResult key
  else
    let group := beNat (slice key 0 2) % 4096
    let g := mrd 0 c.weirs.indG group
    let size := fld g 9 0
    let hr := beNat (slice key (2 + 4 * fld g 30 29) 4)
    let i0 := (hr >>> fld g 28 24 % 65536 * size) >>> 16
    match c.indCheck ((1, group) :: (List.range (min 8 size)).map fun j => (0, group * 512 + (i0 + j) % size)) with
    | (false, c1) => (List.replicate 16 0, 7, c1)
    | (true, c1) => c1.lbResult key

/-! ## Table issues (R118, R123 to R125) -/

/-- The key string of a key profile (R124). -/
def Chip.keyString (c : Chip) (e : WEnv) (q : Nat) (carry : SMap Byte) : List Byte :=
  let rng := fun (h : Nat) => cbytes carry (h / 64) (min 20 (h / 2 % 32))
  let a := (c.rdE e.bank (Reg.weir_KPROF_A e.reach q)).toNat
  let b := (c.rdE e.bank (Reg.weir_KPROF_B e.reach q)).toNat
  (rng (a / 65536) ++ rng (a % 65536) ++ rng (b / 65536) ++ rng (b % 65536)).take 20

/-- A binding issues nothing: EN 0, a reserved KIND, or an INSTANCE the kind does not allow (R118, R123, R180,
R208, R216). -/
def unbound (w : Word) : Bool :=
  let k := fld w 27 24
  let i := fld w 15 0
  !bit w 31 || k == 0 || decide (5 < k) || (k == 1 && i % 256 / 16 + i / 512 != 0) || ((k == 2 || k == 3) && i != 0) ||
    (k == 4 && decide (16 ≤ i))

/-- Issues from these weirs fall beyond the end of processing (R125). -/
def lateWeir (w : Nat) : Bool := w == 8 || w == 9 || w == 13 || w == 14

/-- A discarded issue counts, and sets its event (R125, R145). -/
def Chip.issueDrop (c : Chip) (r w : Nat) : Chip :=
  (c.count (Reg.weir_ISSUE_DROP_CNT r w) 1).raise (Reg.pg_weir r) 24

/-- The first reserved encoding since re-arm is captured, and ILLEGAL_EV sets (R118). -/
def Chip.illegal (c : Chip) (r w pc kind : Nat) : Chip :=
  let c1 := c.raise (Reg.pg_weir r) 25
  if c1.rdB (Reg.weir_ILL_LAST r) 31 then c1
  else c1.wr (Reg.weir_ILL_LAST r) (wd (0x80000000 + kind * 0x1000000 + w * 0x10000 + pc))

/-- The TABLE field of a word: one lookup for each active lane (R123). -/
def WRun.issue (r : WRun) (e : WEnv) (w : BitVec 256) : WRun :=
  let t := mwTable w
  let tbl := t / 1024
  let bind := r.chip.rdE e.bank (Reg.weir_TBL_BIND e.reach (tbl - 1))
  if tbl = 0 || unbound bind || !r.lanes.any Lane.active then r
  else if lateWeir e.weir || decide (2 ≤ r.tables) then { r with chip := r.chip.issueDrop e.reach e.weir }
  else
    { r with
      tables := r.tables + 1
      lanes := r.lanes.map fun l =>
        if l.active then
          let ks := r.chip.keyString e (t / 16 % 64) l.carry
          let key := if fld bind 27 24 = 5 then slice ks 0 2 ++ cbytes l.carry 0x280 16 else slice ks 0 20
          { l with issued := l.issued ++ [(t % 16, fld bind 27 24, fld bind 15 0, key)] }
        else l }

/-- A lookup evaluated against the tables (R125): result slot, drop reason, device. `lp` and `epoch` are those of
the packet. -/
def Chip.lookup (c : Chip) (k : Clk) (kind num : Nat) (key : List Byte) (lp epoch : Nat) : List Byte × Nat × Chip :=
  match kind with
  | 1 => c.emLookup k (num % 16) (decide (256 ≤ num)) (slice key 0 16) lp epoch
  | 2 => c.pfxLookup false (beNat (slice key 4 2) % 4096) (beNat (slice key 0 4))
  | 3 => c.pfxLookup true (beNat (slice key 16 2) % 4096) (beNat (slice key 0 16))
  | 4 => c.cam4Lookup (num % 16) key
  | _ => c.lbLookup key

/-! ## Meters and counters (R126, R127) -/

/-- Units of a bucket that make one bit: a bucket of rate R Mb/s gains R units for each device-time unit. -/
def bitU : Nat := 1000 * nsU

/-- A meter with its buckets filled to device time `t`. -/
def Meter.fill (m : Meter) (t : Nat) : Meter :=
  let d := t - m.at_
  { m with tc := min (m.cbs * 8 * bitU) (m.tc + m.cir * d), tp := min (m.pbs * 8 * bitU) (m.tp + m.pir * d), at_ := t }

/-- The two-rate three-colour marker of RFC 2698 for a packet of `len` bytes, colour-aware from `pre` (0 when
colour-blind): the colour 0 green, 1 yellow, 2 red, and the meter after it. -/
def Meter.mark (m : Meter) (t len pre : Nat) : Nat × Meter :=
  let m1 := m.fill t
  let b := len * 8 * bitU
  if 2 ≤ pre ∨ m1.tp < b then (2, m1)
  else if pre = 1 ∨ m1.tc < b then (1, { m1 with tp := m1.tp - b })
  else (0, { m1 with tp := m1.tp - b, tc := m1.tc - b })

/-- A meter that is not listed: rates and bursts 0. -/
def meter0 : Meter := { cir := 0, pir := 0, cbs := 0, pbs := 0, tc := 0, tp := 0, at_ := 0 }

/-- A counter adds one packet and the charged length (R127). -/
def Chip.countFrame (c : Chip) (i len : Nat) : Chip :=
  let o := mrd (0, 0) c.weirs.counters i
  let m := mset (0, 0) c.weirs.counters i ((o.1 + 1) % 2 ^ 64, (o.2 + len) % 2 ^ 64)
  { c with weirs := { c.weirs with counters := m } }

/-- One lane's METER-field operation: device and colour. -/
def Chip.meterLane (c : Chip) (k : Clk) (e : WEnv) (op idxReg prof : Nat) (l : Lane) : Chip × Option Nat :=
  let base := (c.rdE e.bank (Reg.weir_MP_BASE e.reach prof)).toNat
  let cfg := c.rdE e.bank (Reg.weir_MP_CFG e.reach prof)
  let lr := (mrd 0 l.lr idxReg).toNat
  let mi := base / 65536 % 32768 + lr % 32768
  let ci := base % 65536 + lr % 65536
  let useM := op % 2 = 1
  let useC := 2 ≤ op
  if (useM ∧ 32768 ≤ mi) ∨ (useC ∧ 65536 ≤ ci) then (c.issueDrop e.reach e.weir, none)
  else
    let len := if cLenValid l.carry then cExpLen l.carry else fld cfg 13 0
    let c1 := if useC then c.countFrame (e.reach * 65536 + ci) len else c
    if useM then
      let pre := if bit cfg 31 then cClass l.carry / 8 % 4 else 0
      let r := (mrd meter0 c1.weirs.meters (e.reach * 32768 + mi)).mark k.tod len pre
      ({ c1 with weirs := { c1.weirs with meters := mset meter0 c1.weirs.meters (e.reach * 32768 + mi) r.2 } }, some r.1)
    else (c1, none)

/-- The METER field of a word in every active lane, in lane order. -/
def meterLanes (k : Clk) (e : WEnv) (op idxReg prof : Nat) : Chip → List Lane → Chip × List Lane
  | c, [] => (c, [])
  | c, l :: ls =>
    let (c1, col) := if l.active then c.meterLane k e op idxReg prof l else (c, none)
    let (c2, ls2) := meterLanes k e op idxReg prof c1 ls
    (c2, { l with colour := col.or l.colour } :: ls2)

/-- The METER field of a word (R126): at most one operation per beat. -/
def WRun.meter (r : WRun) (k : Clk) (e : WEnv) (w : BitVec 256) : WRun :=
  let m := mwMeter w
  let op := m / 1024
  if op = 0 || !r.lanes.any Lane.active then r
  else if r.metered then { r with chip := r.chip.issueDrop e.reach e.weir }
  else
    let (c1, ls) := meterLanes k e op (m / 64 % 16) (m % 64) r.chip r.lanes
    { r with chip := c1, lanes := ls, metered := true }

/-! ## EMIT (R128, R368, R370) -/

/-- STAMP (R368): a stage record, or STAMP_OVF. -/
def Chip.stamp (c : Chip) (r w : Nat) (m : SMap Byte) : Chip × SMap Byte :=
  let n := cfld m 0x2E2 2 % 8
  if 6 ≤ n then (c.count (Reg.trace_STAMP_OVF_CNT r) 1, cputN m 0x2D2 2 (cfld m 0x2D2 2 ||| 2))
  else (c, cputN (cputN m (0x2E4 + 2 * n) 2 (w * 4096 + c.beat % 4096)) 0x2E2 2 (n + 1))

/-- SAMPLE (R370): the reach's LFSR steps to a free value and selects with probability 1/N (log 13). -/
def Chip.sample (c : Chip) (r arg : Nat) (m : SMap Byte) : Chip × SMap Byte :=
  let cfg := c.rd (Reg.telemetry_SMP_CFG arg)
  if !bit cfg 31 then (c, m)
  else
    let (w, c1) := c.free
    let c2 := c1.onReach r fun p => { p with smpLfsr := w.toNat }
    if w.toNat % fld cfg 23 0 = 0 then
      (c2, cputN m 0x2D2 2 ((cfld m 0x2D2 2 / 2048 * 2048 + arg * 64 + 32) ||| (cfld m 0x2D2 2 % 32)))
    else (c2, m)

/-- EMIT in one lane. -/
def Chip.emitLane (c : Chip) (e : WEnv) (em : Nat) (m : SMap Byte) : Chip × SMap Byte :=
  let arg := em % 32
  match em / 32 with
  | 1 => c.stamp e.reach e.weir m
  | 2 => (c, cputN (cputN m 0x2D2 2 (arg * 2048 + cfld m 0x2D2 2 % 2048)) 0x018 1 ((cbyte m 0x018).toNat ||| 0x20))
  | 3 => c.sample e.reach arg m
  | _ => (c, m)

/-- EMIT in every lane that was active, in lane order. -/
def emitLanes (e : WEnv) (em : Nat) (act : List Bool) : Chip → List Lane → Chip × List Lane
  | c, [] => (c, [])
  | c, l :: ls =>
    let (c1, m) := if act[l.n]?.getD false then c.emitLane e em l.carry else (c, l.carry)
    let (c2, ls2) := emitLanes e em act c1 ls
    (c2, { l with carry := m } :: ls2)

/-! ## One word and the whole beat (R118 to R120, R129 to R131) -/

/-- Kinds of reserved encoding a word uses, in field order (R118): ALU fields, BR, TABLE, EMIT. -/
def WRun.illegals (r : WRun) (e : WEnv) (w : BitVec 256) : List Nat :=
  let t := mwTable w / 1024
  ((List.range 4).filterMap fun n => aluIllegal false (mwAlu w n)) ++
  (if 9 < mwBr w then [4] else []) ++
  (if t ≠ 0 ∧ unbound (r.chip.rdE e.bank (Reg.weir_TBL_BIND e.reach (t - 1))) then [5] else []) ++
  (if 3 < mwEmit w / 32 then [6] else [])

/-- How a word ends the program, or goes on. -/
inductive WNext where
  | stop
  | next (pc : Nat) (stack : List Nat)
  | fault (cause : Nat)
  deriving DecidableEq, Repr

/-- The next address, or the fault of R120, from the lanes after the word. -/
def WRun.wnext (r : WRun) (e : WEnv) (w : BitVec 256) (after : List Lane) : WNext :=
  if mwSafe w = 3 then .stop
  else
    let imm := mwImm w
    let any := after.any Lane.active
    let all := after.all fun l => !l.elig || l.mask
    let cr := bit (r.chip.rdE e.bank (Reg.weir_CR e.reach e.weir (fld imm 9 5))) (fld imm 4 0)
    let rec_ := after.any fun l => l.elig && cRecirc l.carry
    let tooFar := brNamesNext (mwBr w) && decide (2048 ≤ mwNext w)
    match branchOf (mwBr w) r.pc (mwNext w) any all cr rec_ with
    | .go n => if tooFar || decide (2047 < n) then .fault 4 else .next n r.stack
    | .call n ret =>
      if 4 ≤ r.stack.length then .fault 2
      else if tooFar || decide (2047 < n) then .fault 4 else .next n (ret :: r.stack)
    | .ret => match r.stack with
      | [] => .fault 3
      | a :: st => if 2047 < a then .fault 4 else .next a st

/-- Storage a word reads beyond its own control store: the constant registers and the profiles (R141). An upset
in one of them is checked by its word number: register offset from 0x400 in words for memory 31 (log 22). -/
def WRun.readsBad (r : WRun) (e : WEnv) (w : BitVec 256) : Bool × Chip :=
  let crs := ((List.range 4).map fun n =>
    let f := mwAlu w n
    (if opReadsA (aluOp f) then [aluA f] else []) ++ (if opReadsB (aluOp f) then [aluB f] else [])).flatten
  let crWords := (crs.filter fun x => decide (0x0D0 ≤ x) && decide (x < 0x0F0)).map fun x => (30, e.weir * 32 + (x - 0x0D0))
  let t := mwTable w
  let prof := if t / 1024 = 0 then [] else [(31, t / 1024), (31, 64 + 2 * (t / 16 % 64)), (31, 65 + 2 * (t / 16 % 64))]
  (crWords ++ prof).foldl (fun acc mw =>
    match acc.2.ecc (Reg.pg_weir e.reach) mw.1 mw.2 with
    | (.bad, c1) => (true, c1)
    | (_, c1) => (acc.1, c1)) (false, r.chip)

/-- All eligible lanes marked for drop, replacing a reason of the same beat (R130, R131, R133). -/
def markAll (ls : List Lane) (code : Nat) : List Lane :=
  ls.map fun l => if l.elig then { l with carry := cforceDrop l.carry code } else l

/-- A beat overrun (R130). -/
def WRun.overrun (r : WRun) (e : WEnv) : WRun :=
  let c1 := (r.chip.count (Reg.weir_BEAT_OVR_CNT e.reach e.weir) 1).raise (Reg.pg_weir e.reach) 27
  let c2 := if c1.rdB (Reg.weir_OVR_LAST e.reach) 31 then c1
    else c1.wr (Reg.weir_OVR_LAST e.reach) (wd (0x80000000 + e.weir * 0x10000 + r.pc))
  { r with chip := c2, lanes := markAll r.lanes 3 }

/-- A weir fault (R131). -/
def WRun.fault (r : WRun) (e : WEnv) (cause word : Nat) : WRun :=
  let c1 := (r.chip.count (Reg.weir_WEIR_FAULT_CNT e.reach e.weir) 1).raise (Reg.pg_weir e.reach) 26
  let c2 := if c1.rdB (Reg.weir_FAULT_LAST e.reach) 31 then c1
    else c1.wr (Reg.weir_FAULT_LAST e.reach) (wd (0x80000000 + cause * 0x1000000 + e.weir * 0x10000 + word))
  { r with chip := c2, lanes := markAll r.lanes 4 }

/-- Key of a control-store word (R139). -/
def csKey (bank : Bool) (r w word : Nat) : Nat := ((bank.toNat * 16 + r) * 16 + w) * 2048 + word

/-- A control-store word. -/
def Chip.csWord (c : Chip) (bank : Bool) (r w word : Nat) : BitVec 256 := mrd 0 c.weirs.cs (csKey bank r w word)

/-- A word that does not fault: its effects, and the program goes on at `pc` (R111). -/
def WRun.commit (r : WRun) (k : Clk) (e : WEnv) (w : BitVec 256) (pc : Nat) (stack : List Nat) : WRun :=
  let act := (List.range 32).map fun n => r.lanes.any fun l => l.n == n && l.active
  let c1 := (r.illegals e w).foldl (fun c kind => c.illegal e.reach e.weir r.pc kind) r.chip
  let r0 := { r with chip := c1 }
  -- table and meter take their operands from the state at the start of the word
  let r1 := (r0.issue e w).meter k e w
  let hash := if mwHash w / 2048 = 1 ∧ r.hash = none ∧ r.lanes.any Lane.active then
      some (mwHash w / 32 % 64, (r.lanes.filter Lane.active).map Lane.n) else r.hash
  let after := r.lanesAfter e w
  let merged := after.map fun l =>
    match r1.lanes.find? (fun x => x.n == l.n) with
    | some x => { l with issued := x.issued, colour := x.colour }
    | none => l
  let (c2, ls) := emitLanes e (mwEmit w) act r1.chip merged
  { r1 with
    chip := c2, lanes := ls, hash, pc, stack, lastPc := some r.pc
    clk := r.clk + max (mwTim w + 1) (wordClocks w) }

/-- The words of a beat: at most 8, as each lasts at least one clock (R129, R130). -/
def WRun.loop (k : Clk) (e : WEnv) : Nat → WRun → WRun
  | 0, r => r
  | n + 1, r =>
    if 8 ≤ r.clk then r.overrun e
    else
      match r.chip.ecc (Reg.pg_weir e.reach) (2 * e.weir + e.bank.toNat) r.pc with
      | (.bad, c1) => ({ r with chip := c1 }).fault e 1 r.pc
      | (_, c1) =>
        let r1 := { r with chip := c1 }
        let w := c1.csWord e.bank e.reach e.weir r.pc
        if 8 < r.clk + max (mwTim w + 1) (wordClocks w) then r1.overrun e
        else
          match r1.readsBad e w with
          | (true, c2) => ({ r1 with chip := c2 }).fault e 1 r.pc
          | (false, c2) =>
            let r2 := { r1 with chip := c2 }
            match r2.wnext e w (r2.lanesAfter e w) with
            | .fault cause => r2.fault e cause r.pc
            | .stop => r2.commit k e w r.pc r.stack
            | .next pc st => WRun.loop k e n (r2.commit k e w pc st)

/-- The hash result of R102 written to HR(DST) of a lane, from its carry at the start of the beat, if the lane
was active at the issue (R101, R110). -/
def Chip.hashLane (c : Chip) (e : WEnv) (start : List Lane) (q : Nat) (act : List Nat) (l : Lane) : Lane :=
  match start.find? fun x => x.n == l.n with
  | some x =>
    if act.contains l.n then
      let dst := c.rdEF e.bank (Reg.parser_HCFG e.reach q) 5 4
      { l with carry := cput l.carry (0x280 + 4 * dst) (wordBytesBE (c.hashValue e.bank e.reach q x.carry)) }
    else l
  | none => l

/-- The colour of R126 written to CLASS[4:3]. -/
def Lane.coloured (l : Lane) : Lane :=
  match l.colour with
  | some col => { l with carry := cputN l.carry 0x016 1 (cClass l.carry / 32 * 32 + col * 8 + cClass l.carry % 8) }
  | none => l

/-- What the hardware writes before the next stage: the hash result and the colours. -/
def WRun.finish (r : WRun) (e : WEnv) (start : List Lane) : WRun :=
  let ls1 := match r.hash with
    | none => r.lanes
    | some (q, act) => r.lanes.map (r.chip.hashLane e start q act)
  { r with lanes := ls1.map Lane.coloured }

/-- A weir runs its program over a bundle for one beat (R109 to R112): the device, the lanes, and the last word
executed. A weir that does not execute leaves its lanes as they are. -/
def Chip.weirRun (c : Chip) (k : Clk) (e : WEnv) (lanes : List Lane) : WRun :=
  let entry := c.rdE e.bank (Reg.weir_ENTRY e.reach e.weir)
  let start := lanes.map fun l =>
    let el := cDrop l.carry == 0
    { l with elig := el, mask := el, lr := [], issued := [], colour := none }
  let r : WRun := { chip := c, lanes := start, pc := fld entry 10 0 }
  if !start.any (·.elig) || !bit entry 31 || !c.rdB (Reg.PAGE_CTL (Reg.pg_weir e.reach)) 0 then r
  else (WRun.loop k e 9 r).finish e start

/-! ## Control-store window, meters, counters, indirection (R139, R140, R146, R106, R108) -/

/-- CS_CMD completes (R139, R145). -/
def Chip.csDone (c : Chip) (r st : Nat) : Chip :=
  (c.wr (Reg.weir_CS_STATUS r) (wd st)).raise (Reg.pg_weir r) 0

/-- WORD of CS_ADDR advances by 1 when AUTO_INC is 1, wrapping from 2,047 to 0 (R139). -/
def Chip.csAdvance (c : Chip) (r : Nat) : Chip :=
  if c.rdB (Reg.weir_CS_ADDR r) 31 then c.wrF (Reg.weir_CS_ADDR r) 10 0 (c.rdF (Reg.weir_CS_ADDR r) 10 0 + 1) else c

/-- The microword in CS_DATA. -/
def Chip.csData (c : Chip) (r : Nat) : BitVec 256 := mwOfWords ((List.range 8).map fun i => c.rd (Reg.weir_CS_DATA r i))

/-- A control-store word written. -/
def Chip.csPut (c : Chip) (b : Bool) (r w word : Nat) (v : BitVec 256) : Chip :=
  ({ c with weirs := { c.weirs with cs := mset 0 c.weirs.cs (csKey b r w word) v } }).rewrite (Reg.pg_weir r) (2 * w + b.toNat) word

/-- CS_CMD.WRITE (R139): `false` when it is an access error of kind 1. -/
def Chip.csWrite (c : Chip) (r : Nat) : Bool × Chip :=
  let w := c.rdF (Reg.weir_CS_ADDR r) 19 16
  let word := c.rdF (Reg.weir_CS_ADDR r) 10 0
  if 14 < w then (true, c.csDone r stBadArg)
  else if !c.staging then (false, c.csDone r stDenied)
  else (true, ((c.csPut (!c.bankB) r w word (c.csData r)).csAdvance r).csDone r stOk)

/-- CS_CMD.READ (R139): the bank that RD_BANK selects, the active one outside staging (R48). -/
def Chip.csRead (c : Chip) (r : Nat) : Chip :=
  let w := c.rdF (Reg.weir_CS_ADDR r) 19 16
  let word := c.rdF (Reg.weir_CS_ADDR r) 10 0
  let b := if c.staging && c.rdB (Reg.PAGE_CTL (Reg.pg_weir r)) 4 then !c.bankB else c.bankB
  if 14 < w then c.csDone r stBadArg
  else
    let v := c.csWord b r w word
    let c1 := (List.range 8).foldl (fun c i => c.wr (Reg.weir_CS_DATA r i) (mwWord v i)) c
    (c1.csAdvance r).csDone r stOk

/-- CS_CMD.REPAIR (R140). -/
def Chip.csRepair (c : Chip) (r : Nat) : Chip :=
  let w := c.rdF (Reg.weir_CS_ADDR r) 19 16
  let word := c.rdF (Reg.weir_CS_ADDR r) 10 0
  let err := c.rd (Reg.ERR_ADDR (Reg.pg_weir r))
  if 14 < w then c.csDone r stBadArg
  else if bit err 31 && bit err 30 && fld err 29 24 == 2 * w + c.bankB.toNat && fld err 23 0 == word then
    (c.csPut c.bankB r w word (c.csData r)).csDone r stOk
  else c.csDone r stDenied

/-- A write of CS_CMD (R139): `false` when it is an access error of kind 1. -/
def Chip.csCmd (c : Chip) (r : Nat) (v : Word) : Bool × Chip :=
  match fld v 2 0 with
  | 0 => (true, c)
  | 1 => c.csWrite r
  | 2 => (true, c.csRead r)
  | 4 => (true, c.csRepair r)
  | _ => (true, c.csDone r stBadArg)

/-- A meter or counter command completes (R145, R146). -/
def Chip.mtrDone (c : Chip) (r st : Nat) : Chip := (c.wr (Reg.weir_MTR_STATUS r) (wd st)).raise (Reg.pg_weir r) 1
def Chip.cntDone (c : Chip) (r st : Nat) : Chip := (c.wr (Reg.weir_CNT_STATUS r) (wd st)).raise (Reg.pg_weir r) 1

/-- MTR_CMD WRITE: both buckets full (R146). -/
def Chip.mtrWrite (c : Chip) (k : Clk) (r i : Nat) : Chip :=
  let cir := c.rdF (Reg.weir_MTR_DATA_RATE r 0) 21 0
  let pir := c.rdF (Reg.weir_MTR_DATA_RATE r 1) 21 0
  let cbs := c.rdF (Reg.weir_MTR_DATA_BURST r 0) 23 0
  let pbs := c.rdF (Reg.weir_MTR_DATA_BURST r 1) 23 0
  if pir < cir then c.mtrDone r stBadArg
  else
    let m : Meter := { cir, pir, cbs, pbs, tc := cbs * 8 * bitU, tp := pbs * 8 * bitU, at_ := k.tod }
    ({ c with weirs := { c.weirs with meters := mset meter0 c.weirs.meters (r * 32768 + i) m } }).mtrDone r stOk

/-- MTR_CMD READ (R146). -/
def Chip.mtrRead (c : Chip) (r i : Nat) : Chip :=
  let m := mrd meter0 c.weirs.meters (r * 32768 + i)
  ((((c.wr (Reg.weir_MTR_DATA_RATE r 0) (wd m.cir)).wr (Reg.weir_MTR_DATA_RATE r 1) (wd m.pir)).wr
    (Reg.weir_MTR_DATA_BURST r 0) (wd m.cbs)).wr (Reg.weir_MTR_DATA_BURST r 1) (wd m.pbs)).mtrDone r stOk

/-- A write of MTR_CMD with GO (R146). -/
def Chip.mtrCmd (c : Chip) (k : Clk) (r : Nat) (v : Word) : Chip :=
  let c1 := c.wr (Reg.weir_MTR_CMD r) (v &&& 0x0F007FFF)
  if !bit v 31 then c1
  else match fld v 27 24 with
    | 1 => c1.mtrWrite k r (fld v 14 0)
    | 2 => c1.mtrRead r (fld v 14 0)
    | _ => c1.mtrDone r stBadArg

/-- The counts of a counter placed in CNT_DATA. -/
def Chip.cntShow (c : Chip) (r i : Nat) : Chip :=
  let o := mrd (0, 0) c.weirs.counters (r * 65536 + i)
  (c.wr64 (Reg.weir_CNT_DATA r 0) (Reg.weir_CNT_DATA r 1) o.1).wr64 (Reg.weir_CNT_DATA r 2) (Reg.weir_CNT_DATA r 3) o.2

/-- Both counts of a counter cleared. -/
def Chip.cntZero (c : Chip) (r i : Nat) : Chip :=
  { c with weirs := { c.weirs with counters := merase c.weirs.counters (r * 65536 + i) } }

/-- A write of CNT_CMD with GO: READ, READ_CLEAR, CLEAR (R146). -/
def Chip.cntCmd (c : Chip) (r : Nat) (v : Word) : Chip :=
  let c1 := c.wr (Reg.weir_CNT_CMD r) (v &&& 0x0F00FFFF)
  let i := fld v 15 0
  if !bit v 31 then c1
  else match fld v 27 24 with
    | 1 => (c1.cntShow r i).cntDone r stOk
    | 2 => ((c1.cntShow r i).cntZero r i).cntDone r stOk
    | 3 => (c1.cntZero r i).cntDone r stOk
    | _ => c1.cntDone r stBadArg

/-- An indirection command completes (R108). -/
def Chip.indDone (c : Chip) (st : Nat) : Chip := (c.wr Reg.lb_IND_STATUS (wd st)).raise 0x23C 0

/-- The BEFORE image of kinds 5 and 6: the word and its index (R445). -/
def wordImage (w : Word) (i : Nat) : List Byte := wordBytesBE w ++ beBytes 4 i ++ List.replicate 56 0

/-- IND_CMD WRITE_ENTRY and WRITE_GROUP, journalled (R106, R437). The journal's OP tells an entry (1) from a
descriptor (3). -/
def Chip.indWrite (c : Chip) (k : Clk) (agent op i : Nat) : Chip :=
  let d := c.rd Reg.lb_IND_DATA
  let bad := if op = 1 then fld d 30 29 == 3 else decide (512 < fld d 9 0) || decide (16 < fld d 28 24)
  if bad then c.indDone stBadArg
  else
    match c.jnlTake agent with
    | (0, held, c1) =>
      let old := if op = 1 then mrd 0 c1.weirs.indE i else mrd 0 c1.weirs.indG i
      let c2 := if op = 1
        then { c1 with weirs := { c1.weirs with indE := mset 0 c1.weirs.indE i (d &&& 0xE00FFFFF) } }.rewrite 0x23C 0 i
        else { c1 with weirs := { c1.weirs with indG := mset 0 c1.weirs.indG i (d &&& 0xFF0003FF) } }.rewrite 0x23C 1 i
      (c2.jnlAdd k held 5 op agent true (wordImage old i)).indDone stOk
    | (st, _, c1) => c1.indDone st

/-- IND_CMD READ_ENTRY and READ_GROUP: INTEGRITY when the word cannot be read (R8). -/
def Chip.indRead (c : Chip) (mem i : Nat) (w : Word) : Chip :=
  match c.ecc 0x23C mem i with
  | (.bad, c1) => c1.indDone stIntegrity
  | (_, c1) => (c1.wr Reg.lb_IND_DATA w).indDone stOk

/-- A write of IND_CMD with GO (R108). -/
def Chip.indCmd (c : Chip) (k : Clk) (agent : Nat) (v : Word) : Chip :=
  let c1 := c.wr Reg.lb_IND_CMD (v &&& 0x0FFFF1FF)
  let g := fld v 23 12
  let i := fld v 8 0
  if !bit v 31 then c1
  else if c.faulted 0x23C then c1.indDone stAborted
  else match fld v 27 24 with
    | 1 => c1.indWrite k agent 1 (g * 512 + i)
    | 2 => c1.indRead 0 (g * 512 + i) (mrd 0 c1.weirs.indE (g * 512 + i))
    | 3 => c1.indWrite k agent 3 g
    | 4 => c1.indRead 1 g (mrd 0 c1.weirs.indG g)
    | _ => c1.indDone stBadArg

end Sys2Proof.Machine
end

