-- ==== Sys2Proof/Machine/Pipe.lean ====
section
/-!
DEFINITION. Machine/Pipe.lean: a beat boundary: every reach advances W0 to W14, admits the frames that leave W9, selects
egress copies and closes a bundle (R16, R17, R125, R134 to R138, R281).
-/
namespace Sys2Proof.Machine

/-! ## Lookups in flight (R125) -/

/-- Page of the tables a lookup kind reads. -/
def kindPage (kind : Nat) : Nat := if kind = 1 then 0x231 else if kind = 5 then 0x23C else 0x232

/-- Results written into a carry: the slot, and the drop reason a result decides. -/
def applyRes (m : SMap Byte) : List (Nat × List Byte × Nat) → SMap Byte
  | [] => m
  | (slot, bs, code) :: l =>
    let m1 := cput m (0x180 + 16 * slot) bs
    applyRes (if code = 0 then m1 else csetDrop m1 code) l

/-- Lookups issued in the beat before are evaluated, in the order of their issue. A block whose lookup path took a fatal
fault writes the miss result and drops with TABLE_ERROR (R491). -/
def Chip.evalAll (c : Chip) (k : Clk) (lp epoch : Nat) :
    List (Nat × Nat × Nat × List Byte) → List (Nat × List Byte × Nat) × Chip
  | [] => ([], c)
  | (slot, kind, num, key) :: l =>
    let (bs, code, c1) := if c.tbl.lookupFault.contains (kindPage kind) then (List.replicate 16 0, 7, c)
      else c.lookup k kind num key lp epoch
    let (rs, c2) := c1.evalAll k lp epoch l
    ((slot, bs, code) :: rs, c2)

/-- What a stage does to a header before its program runs. -/
def Chip.prep (c : Chip) (k : Clk) (ing : Bool) (id : Nat) : Chip :=
  if ing then
    match mget c.frames id with
    | none => c
    | some f =>
      let m := applyRes f.carry f.results
      let (rs, c1) := c.evalAll k f.inLp (cEpoch m) f.issued
      c1.onFrame id fun x => { x with carry := m, results := rs, issued := [] }
  else
    match mget c.sw.copies id with
    | none => c
    | some cp =>
      let m := applyRes cp.carry cp.results
      let (rs, c1) := c.evalAll k (cInLp m) (cEpoch m) cp.issued
      c1.onCopy id fun x => { x with carry := m, results := rs, issued := [] }

/-- The carry of a header in a bundle. -/
def Chip.carryOf (c : Chip) (ing : Bool) (id : Nat) : Option (SMap Byte) :=
  if ing then (mget c.frames id).map (·.carry) else (mget c.sw.copies id).map (·.carry)

/-- A lane's carry and lookups go back to its header. -/
def Chip.putLane (c : Chip) (ing : Bool) (l : Lane) : Chip :=
  if ing then c.onFrame l.id fun x => { x with carry := l.carry, issued := l.issued }
  else c.onCopy l.id fun x => { x with carry := l.carry, issued := l.issued }

/-- The lanes of a bundle: slot number, header and carry. -/
def Chip.lanesIn (c : Chip) (ing : Bool) : Nat → List Nat → List Lane
  | _, [] => []
  | n, id :: ids =>
    match c.carryOf ing id with
    | some m => { n, id, elig := true, mask := true, carry := m } :: c.lanesIn ing (n + 1) ids
    | none => c.lanesIn ing (n + 1) ids

/-- The egress header of a lane lies outside what R134 allows. -/
def hdrBad (m : SMap Byte) : Bool :=
  let ctl := cfld m 0x01C 2
  let len := cfld m 0x01E 2 % 512
  decide (32768 ≤ ctl) && (decide (0x2C0 < ctl % 1024 + len) || decide (256 < len))

/-- A bundle enters weir `w` of a reach and the weir runs its program over it. A soft reset of the page drops every
eligible lane while it runs (R142). -/
def Chip.stage (c : Chip) (k : Clk) (r w : Nat) (b : Bundle) : Chip :=
  let ing := decide (w < 10)
  let c1 := b.slots.foldl (fun c id => c.prep k ing id) c
  let e : WEnv := { reach := r, weir := w, epoch := b.epoch, bank := c1.bankOf b.epoch, tns := todNs (c1.coreTod k), tsec := todSec (c1.coreTod k) % 4294967296 }
  let run := c1.weirRun k e (c1.lanesIn ing 0 b.slots)
  let run1 := if w = 14 ∧ run.lanes.any (fun l => l.elig && hdrBad l.carry) then
      run.fault e 5 (match run.lastPc with | some p => p | none => c1.rdEF e.bank (Reg.weir_ENTRY r 14) 10 0)
    else run
  let ls := if c1.inReset (Reg.pg_weir r) then run1.lanes.map fun l => if l.elig then { l with carry := csetDrop l.carry 4 } else l
    else run1.lanes
  ls.foldl (fun c l => c.putLane ing l) run1.chip

/-! ## The end of W14 (R134, R135, R358) -/

/-- The frame a copy leaves as: the edited header joined to the body, padded, with a new FCS; a copy for the host is the
stored frame as received (R134, R135, R539). -/
def joined (cp : Copy) (f : Frame) : List Byte :=
  let stored := f.bytes.take f.stored
  if cp.lp = 1152 then stored
  else
    let m := cp.carry
    let ctl := cfld m 0x01C 2
    let body := stored.take (stored.length - 4)
    let b := if 32768 ≤ ctl then cbytes m (ctl % 1024) (cfld m 0x01E 2 % 512) ++ body.drop (cParsedLen m) else body
    let p := b ++ List.replicate (60 - b.length) 0
    p ++ fcsOf p

/-- USER of the trace record (R367). -/
def Chip.traceUser (c : Chip) (r : Nat) (m : SMap Byte) : SMap Byte :=
  if bit (c.rdE (c.bankOf (cEpoch m)) (Reg.trace_TR_CFG r)) 0 then cput m 0x2F0 (cbytes m 0x030 16) else m

/-- A level copy at the output of W14 enters the hold buffer, unless its release boundary has passed (R358, R359). -/
def Chip.enterHold (c : Chip) (k : Clk) (cid : Nat) (cp : Copy) (t : Int) : Chip :=
  if t < (k.tod + c.delta k cp.lp + c.beatT k : Nat) then c.levelLate k cid 2
  else (({ c with sw := { c.sw with hold := c.sw.hold ++ [cid] } }).onCopy cid fun x => { x with pos := .hold })

/-- A copy leaves W14: dropped with its reason, by a flush, or on its way to its MAC (R133, R134, R269). -/
def Chip.exitW14 (c : Chip) (k : Clk) (cid : Nat) : Chip :=
  match mget c.sw.copies cid with
  | none => c
  | some cp =>
    let code := cDrop cp.carry
    if code ≠ 0 ∧ code ≠ drEpoch then c.dropCopy k cid code false
    else if !c.fwdUp cp.lp then c.dropCopy k cid drPortDown false
    else if code ≠ 0 then c.dropCopy k cid code false
    else
      match mget c.frames cp.fid with
      | none => c
      | some f =>
        let c1 := c.onCopy cid fun x => { x with pos := .ready, out := joined cp f, carry := c.traceUser (reachOf cp.lp) cp.carry }
        match c1.levelOf cp with
        | some t => c1.enterHold k cid cp t
        | none => c1

/-! ## Egress of a reach (R138, R281) -/

/-- How long ago an epoch was current. -/
def Chip.epochAge (c : Chip) (e : Nat) : Nat := (c.rdF Reg.epoch_EPOCH_STAT 15 0 + 65536 - e % 65536) % 65536

/-- Epoch of a copy. -/
def Chip.copyEpoch (c : Chip) (cid : Nat) : Nat :=
  match mget c.sw.copies cid with | some cp => cEpoch cp.carry | none => c.rdF Reg.epoch_EPOCH_STAT 15 0

/-- Every bundle but the last moves one weir on, and runs there. `w0` is the first weir of the list. -/
def Chip.advance (c : Chip) (k : Clk) (r : Nat) : Nat → List (Option Bundle) → Chip
  | _, [] => c
  | w, some b :: l => (c.stage k r w b).advance k r (w + 1) l
  | w, none :: l => c.advance k r (w + 1) l

/-- The egress bundle of a reach: the copies of the oldest epoch among those selected and those held (R138), at most 32. -/
def Chip.egressBundle (c : Chip) (pool : List Nat) : Option Bundle × List Nat :=
  let live := pool.filter fun cid => (mget c.sw.copies cid).isSome
  match live with
  | [] => (none, [])
  | x :: _ =>
    let old := live.foldl (fun a cid => if c.epochAge a < c.epochAge (c.copyEpoch cid) then c.copyEpoch cid else a) (c.copyEpoch x)
    let take := (live.filter fun cid => c.copyEpoch cid == old).take 32
    (some { epoch := old, slots := take }, live.filter fun cid => !take.contains cid)

/-- Egress of a reach at a beat boundary. -/
def Chip.egress (c : Chip) (k : Clk) (r : Nat) : Chip :=
  let p := c.reach r
  let out := match p.egr[4]? with | some (some b) => b.slots | _ => []
  let moved := none :: p.egr.take 4
  let c1 := (c.onReach r fun x => { x with egr := moved }).advance k r 10 moved
  let c2 := out.foldl (fun c cid => c.exitW14 k cid) c1
  let (sel, c3) := c2.select k r
  let (b, held) := c3.egressBundle (p.held ++ sel)
  match b with
  | none => c3.onReach r fun x => { x with held }
  | some b => (c3.onReach r fun x => { x with egr := some b :: x.egr.drop 1, held }).stage k r 10 b

/-! ## The end of W9 (R133, R136, R258) -/

/-- A frame leaves W9: recirculated, or admitted; a frame whose bank has been retired is dropped (R136, R443). -/
def Chip.exitW9 (c : Chip) (k : Clk) (r fid : Nat) : Chip :=
  match mget c.frames fid with
  | none => c
  | some f =>
    let m := f.carry
    if cDrop m = 0 ∧ cFwdKind m = 3 then
      let n := cfld m 0x00E 1
      if c.rdEF (c.bankOf (cEpoch m)) (Reg.weir_RECIRC_CTL r) 2 0 ≤ n then
        ((c.count (Reg.weir_RECIRC_LIMIT_CNT r) 1).raise (Reg.pg_weir r) 23).dropFrame k fid drRecirc 0x7FF 82
      else
        let m1 := cputN (cputN (cputN m 0x00B 1 ((cbyte m 0x00B).toNat ||| 0x20)) 0x00E 1 (n + 1)) 0x014 1 0
        (c.count (Reg.weir_RECIRC_CNT r) 1).onFrame fid fun x =>
          { x with carry := m1, pos := .recirc, slipped := false, readyAt := c.clockIx k + 16 }
    else if c.ep.dropping && cEpoch m != c.rdF Reg.epoch_EPOCH_STAT 15 0 then c.dropFrame k fid drEpoch 0x7FF 82
    else c.admitFrame k fid

/-- RECIRC_READY of a reach: the first header due re-enters the header queue (R136). -/
def Chip.recircReady (c : Chip) (k : Clk) (r : Nat) : Chip :=
  match c.frames.find? fun kf => kf.2.reach == r && kf.2.pos == .recirc && decide (kf.2.readyAt ≤ c.clockIx k) with
  | none => c
  | some (fid, f) =>
    if 512 ≤ (c.reach r).hq.length then
      ((c.count (Reg.parser_HDR_OVR_CNT r) 1).raise (Reg.pg_parser r) 8).dropFrame k fid drHeader 0x7FF 82
    else (c.onFrame fid fun x => { x with pos := .queue, readyAt := f.readyAt }).onReach r fun x => { x with hq := x.hq ++ [fid] }

/-! ## The bundle assembler (R15, R17, R137, R441) -/

/-- A header of the header queue, with what orders it. -/
structure Ready where
  fid : Nat
  at_ : Nat
  lp : Nat
  recirc : Bool
  epoch : Nat
  deriving DecidableEq, Repr

/-- The headers of a reach's queue that have their first buffer. -/
def Chip.readies (c : Chip) (r : Nat) : List Ready :=
  (c.reach r).hq.filterMap fun fid =>
    match mget c.frames fid with
    | some f => if f.bufs.isEmpty then none
      else some { fid, at_ := f.readyAt, lp := f.inLp, recirc := cRecirc f.carry, epoch := cEpoch f.carry }
    | none => none

/-- Readiness order: the clock, then the logical port, then parser headers first (R17, R136). -/
def Ready.before (x y : Ready) : Bool :=
  decide (x.at_ < y.at_) || (x.at_ == y.at_ && (decide (x.lp < y.lp) || (x.lp == y.lp && (!x.recirc && y.recirc))))

/-- A header put in its place in a sorted list, after those it does not precede. -/
def insertReady (x : Ready) : List Ready → List Ready
  | [] => [x]
  | y :: l => if x.before y then x :: y :: l else y :: insertReady x l

/-- Headers in readiness order; those that tie keep their place in the queue. -/
def sortReady (l : List Ready) : List Ready := l.foldl (fun acc x => insertReady x acc) []

/-- The assembler's current epoch of a reach: CUR, once no header of the older one that came from the parser waits
(R441). -/
def Chip.asmNow (c : Chip) (r : Nat) : Nat :=
  let cur := c.rdF Reg.epoch_EPOCH_STAT 15 0
  match mget c.ep.asmEpoch r with
  | none => cur
  | some e =>
    if (c.reach r).hq.any fun fid => match mget c.frames fid with
        | some f => cEpoch f.carry == e && !cRecirc f.carry
        | none => false then e else cur

/-- Headers that do not fit slip, and count once (R17). -/
def Chip.slip (c : Chip) (r : Nat) : List Ready → Chip
  | [] => c
  | x :: l =>
    match mget c.frames x.fid with
    | some f => if f.slipped then c.slip r l
      else ((c.count (Reg.parser_BUNDLE_SLIP_CNT r) 1).onFrame x.fid fun y => { y with slipped := true }).slip r l
    | none => c.slip r l

/-- Ingress of a reach at a beat boundary: bundles advance, frames leave W9, and a bundle closes and enters W0. -/
def Chip.ingress (c : Chip) (k : Clk) (r : Nat) : Chip :=
  let p := c.reach r
  let out := match p.ing[9]? with | some (some b) => b.slots | _ => []
  let moved := none :: p.ing.take 9
  let c1 := (c.onReach r fun x => { x with ing := moved }).advance k r 0 moved
  let c2 := out.foldl (fun c fid => c.exitW9 k r fid) c1
  let asm : Nat := c2.asmNow r
  let c3 : Chip := if asm = c2.rdF Reg.epoch_EPOCH_STAT 15 0 then { c2 with ep := { c2.ep with asmEpoch := merase c2.ep.asmEpoch r } } else c2
  let q := sortReady (c3.readies r)
  let epoch := match q.find? (·.epoch == asm), q with
    | some _, _ => asm
    | none, x :: _ => x.epoch
    | none, [] => asm
  let mine := q.filter (·.epoch == epoch)
  let main := mine.filter (·.lp < 1152)
  let host := mine.filter fun x => 1152 ≤ x.lp
  let take := main.take 32 ++ host.take (32 - (main.take 32).length)
  let c4 := c3.slip r (main.drop 32)
  if take.isEmpty then c4
  else
    let ids := take.map (·.fid)
    let c5 := ids.foldl (fun c fid => c.onFrame fid fun x => { x with pos := .weir 0 }) c4
    let b : Bundle := { epoch, slots := ids }
    (c5.onReach r fun x => { x with hq := x.hq.filter fun fid => !ids.contains fid, ing := some b :: x.ing.drop 1 }).stage k r 0 b

/-- Every reach at a beat boundary: egress first, then ingress. -/
def Chip.beatAll (c : Chip) (k : Clk) : Chip :=
  let c1 := (List.range 16).foldl (fun c r => c.egress k r) c
  (List.range 16).foldl (fun c r => c.ingress k r) c1

end Sys2Proof.Machine
end

