-- ==== Sys2Proof/Machine/Transmit.lean ====
section
/-!
DEFINITION. Machine/Transmit.lean: the transmit MAC and the transmit timestamp unit of a logical port: points 9 and 10 of
R19, PTP edits, settlement, gate closes and level placement (10 R263, 11 R283, R295, R297, 13 R334 to R339, 14 R358, R359).
-/
namespace Sys2Proof.Machine

/-! ## PTP edits (R337, R338) -/

/-- Bytes of a list replaced from a place; what would fall past the end is lost. -/
def overwrite (l : List Byte) (a : Nat) (bs : List Byte) : List Byte :=
  (l.take a ++ bs.take (l.length - a)) ++ l.drop (a + bs.length)

/-- One's-complement sum of the 16-bit words of a list, with end-around carry. -/
def onesSum : List Byte → Nat
  | a :: b :: l => csum16 (a.toNat * 256 + b.toNat) (onesSum l)
  | [a] => a.toNat * 256
  | [] => 0

/-- A field of a PTP message edited: in IPv4 the UDP checksum is written as zero, in IPv6 it is updated as RFC 1624 does.
`o` is the offset of the PTP header, `ip` the IP version that carries it. -/
def ptpEdit (b : List Byte) (o ip a : Nat) (bs : List Byte) : List Byte :=
  let b1 := overwrite b a bs
  if ip = 4 then overwrite b1 (o - 2) [0, 0]
  else if ip = 6 then
    let hc := 65535 - beNat (slice b (o - 2) 2)
    let gone := onesSum ((slice b a bs.length).map fun x => ~~~x)
    overwrite b1 (o - 2) (beBytes 2 (65535 - csum16 (csum16 hc gone) (onesSum bs)))
  else b1

/-- correctionField of a message with a number of 2^-16 ns added, held at its greatest value on overflow. -/
def correction (b : List Byte) (o : Nat) (add : Int) : List Byte :=
  let v := signed 64 (beNat (slice b (o + 8) 8)) + add
  beBytes 8 (if v < -(2 ^ 63 : Nat) ∨ ((2 ^ 63 : Nat) : Int) ≤ v then 2 ^ 63 - 1 else (v % (2 ^ 64 : Nat)).toNat)

/-- messageType of a PTP message. -/
def ptpType (b : List Byte) (o : Nat) : Nat := beNat (slice b o 1) % 16

/-- twoStepFlag of a PTP message. -/
def twoStep (b : List Byte) (o : Nat) : Bool := (beNat (slice b (o + 6) 1)).testBit 1

/-- What the transmit timestamp unit does with a frame. -/
structure PtpAct where
  /-- the frame without its FCS, as it leaves -/
  body : List Byte
  /-- a FIFO entry is made, with this EDITED -/
  entry : Option Bool := none
  /-- ONESTEP_SKIP counts one -/
  skip : Bool := false

/-- A bit of TS_CTL of a logical port. -/
def Chip.tsCtl (c : Chip) (lp i : Nat) : Bool := c.rdB (Reg.port_TS_CTL (lp / 8) (lp % 8)) i

/-- The action of R337 on a frame of logical port `lp`: `tOut` and `tIn` in device-time units, `inLp` where it entered. -/
def Chip.ptpAct (c : Chip) (lp inLp : Nat) (tOut : Nat) (tIn : Nat) (b : List Byte) : PtpAct :=
  match ptpHeader b with
  | none => { body := b }
  | some (o, ip) =>
    let ty := ptpType b o
    if !c.tsCtl lp 31 ∨ 3 < ty then { body := b }
    else if 1152 ≤ inLp then
      if ty = 0 && c.tsCtl lp 30 && c.mscTx lp then { body := b, entry := some false, skip := true }
      else if ty = 0 && c.tsCtl lp 30 && !twoStep b o then
        let b1 := ptpEdit b o ip (o + 34) (beBytes 6 (todSec tOut % 2 ^ 48) ++ beBytes 4 (todNs tOut))
        { body := ptpEdit b1 o ip (o + 8) (correction b1 o (todFrac tOut : Nat)), entry := some true }
      else { body := b, entry := some false }
    else if !c.tsCtl lp 29 then { body := b }
    else if c.mscTx lp then { body := b, skip := true }
    else
      let link : Int := if ty = 0 && c.tsCtl inLp 28 then
          ((c.rdF (Reg.port_LINK_DLY (inLp / 8) (inLp % 8)) 23 0 * 256 : Nat) : Int) else 0
      let resid : Int := ((tOut : Int) - tIn) / (fracU : Nat)
      { body := ptpEdit b o ip (o + 8) (correction b o (resid + link)) }

/-- ONESTEP_SKIP counts one. -/
def Chip.oneStepSkip (c : Chip) (lp : Nat) : Chip := c.countF (Reg.port_TS_CNT (lp / 8) (lp % 8)) 15 0

/-- The transmit timestamp FIFO of a logical port. -/
def Clk.txFifo (k : Clk) (lp : Nat) : List TxTs := mrd [] k.txts lp

/-- A transmit timestamp that is lost is counted (R339). -/
def Chip.txtsDrop (c : Chip) (lp : Nat) : Chip :=
  (c.countF (Reg.port_TS_CNT (lp / 8) (lp % 8)) 31 16).raise 0x003 16

/-- An entry for the transmit timestamp FIFO of a logical port, with the bytes of its PTP message as they leave (R339). -/
def State.txtsPut (s : State) (lp tOut : Nat) (b : List Byte) (edited tsErr : Bool) : State :=
  match ptpHeader b with
  | none => s
  | some (o, _) =>
    let q := s.clk.txFifo lp
    if 64 ≤ q.length then { s with chip := s.chip.txtsDrop lp }
    else
      let e : TxTs := { t := tOut, msgType := ptpType b o, seqId := beNat (slice b (o + 30) 2),
                        domain := beNat (slice b (o + 4) 1), edited, tsErr }
      { s with clk := { s.clk with txts := mput s.clk.txts lp (some (q ++ [e])) },
               chip := s.chip.pend 0x003 (Reg.time_TXTS_PEND (lp / 32)) (oneBit (lp % 32)) 18 }

/-! ## TRANSMIT_START (R19 points 9 and 10, R263, R337) -/

/-- The copy a transmit MAC takes next: that with the earliest departure among those past W14. -/
def Chip.nextOut (c : Chip) (lp : Nat) : Option (Nat × Copy) :=
  (c.sw.copies.filter fun kc => kc.2.lp == lp && (kc.2.pos == .ready || kc.2.pos == .hold)).foldl (fun o kc =>
    match o with
    | none => some kc
    | some x => if kc.2.dep < x.2.dep then some kc else some x) none

/-- OUT_OFF and the stamp's TS_ERR written into the trace record of a copy (R367). -/
def outTrace (m : SMap Byte) (tOut : Int) (tIn : Nat) (tsErr : Bool) : SMap Byte :=
  let m1 := cputN m 0x2D8 4 (depOff tOut tIn)
  if tsErr then cputN m1 0x2CE 1 ((cbyte m1 0x2CE).toNat % 128 + 128) else m1

/-- A copy takes the wire: `out` is the frame it leaves as. -/
def Chip.startWire (c : Chip) (cid lp tIn : Nat) (tOut : Int) (tsErr : Bool) (out : List Byte) : Chip :=
  let c1 := c.onCopy cid fun x => { x with pos := .sending, out, tOut, carry := outTrace x.carry tOut tIn tsErr }
  { c1 with sw := { c1.sw with
    sending := mput c1.sw.sending lp (some cid)
    wireEnd := mset 0 c1.sw.wireEnd lp (tOut + c1.wire lp out.length) } }

/-- A copy starts on its wire: PTP and MACsec act on it, it is stamped, and a frame that has failed, or whose buffers or
descriptor hold an uncorrectable error, is stomped (R255, R263, R337, R414; log 23). -/
def State.startCopy (s : State) (lp cid : Nat) (cp : Copy) (f : Frame) : State :=
  let c := s.chip
  let tOut : Nat := if cp.level.isSome && cp.tOut ≠ 0 then (roundQI cp.tOut).toNat else roundQ (s.clk.tod + c.txDly lp)
  let tsErr := c.stampErr s.clk lp
  let (desc, c0) := c.ecc 0x220 0 (cp.fid % 1048576)
  let (data, c1) := c0.readBufs f.bufs
  let bad := data || desc == .bad
  let act := c1.ptpAct lp f.inLp tOut f.tIn (cp.out.take (cp.out.length - 4))
  let c2 := if act.skip then c1.oneStepSkip lp else c1
  match mscTransmit (c2, s.vault) lp act.body with
  | (none, cv) => { s with chip := cv.1.dropCopy s.clk cid drMacsec false, vault := cv.2 }
  | (some b, cv) =>
    let c3 := cv.1.startWire cid lp f.tIn (tOut : Int) tsErr (b ++ fcsOf b)
    let s1 := { s with chip := c3, vault := cv.2 }
    let s2 := match act.entry with
      | some ed => s1.txtsPut lp tOut act.body ed tsErr
      | none => s1
    match f.failed with
    | some code => { s2 with chip := s2.chip.stompCopy s.clk cid code }
    | none => if bad then { s2 with chip := s2.chip.stompCopy s.clk cid drData } else s2

/-- TRANSMIT_START of a logical port: its next copy starts when the wire and its lanes are free. A level copy that finds
the wire taken at its placed start is late (R359 stage 3). -/
def State.transmitStart (s : State) (lp : Nat) : State :=
  let c := s.chip
  match c.nextOut lp with
  | none => s
  | some (cid, cp) =>
    match mget c.frames cp.fid with
    | none => s
    | some f =>
      if cp.pos ≠ .ready ∨ 1152 ≤ lp ∨ !c.lpActive lp ∨ c.asleep lp then s
      else if (c.levelOf cp).isSome && decide (cp.tOut < mrd 0 c.sw.wireEnd lp) then
        { s with chip := c.levelLate s.clk cid 3 }
      else if (mget c.sw.sending lp).isSome then s
      else s.startCopy lp cid cp f

/-! ## COPY_TRANSMIT_END (R283, R297, R365) -/

/-- Settlement of a copy sent with its actual length (R283). -/
def Chip.settleCopy (c : Chip) (k : Clk) (cp : Copy) (actual : Nat) : Chip :=
  let (r, l) := queueLoc cp.q
  let (lp, q) := lpk cp.q
  let n := localOf lp
  let gain : Int := (cp.lc : Int) - actual
  let c1 := if cp.lc < actual then (c.count (Reg.sched_GROW_EXCEED_CNT r) 1).raise (Reg.pg_sched r) 25 else c
  let c2 := if c1.weighted r n q && (c1.head cp.q).isSome then
      c1.setDeficit r l (max (-16777216) (min 16777215 (c1.deficit r l + gain))) else c1
  let c3 := (c2.recharge r l false k.tod (-gain)).recharge r n true k.tod (-gain)
  let more : Int := (c3.wire lp actual : Int) - (c3.wire lp cp.lc : Int)
  { c3 with sw := { c3.sw with wireFree := mset 0 c3.sw.wireFree lp (mrd 0 c3.sw.wireFree lp + more) } }

/-- A copy transmitted past the close of its window is counted (R297). -/
def Chip.overrun (c : Chip) (r : Nat) : Chip := (c.count (Reg.sched_GATE_OVERRUN_CNT r) 1).raise (Reg.pg_sched r) 26

/-- What the level page counts of a copy sent (R365). -/
def Chip.levelSent (c : Chip) (cp : Copy) : Chip :=
  match c.levelOf cp with
  | none => c
  | some t =>
    let r := reachOf cp.lp
    let dev := min 65535 ((cp.tOut - t).natAbs * 256 / nsU)
    let c1 := c.count64 (Reg.level_LR_SENT_CNT_LO r) (Reg.level_LR_SENT_CNT_HI r) 1
    c1.wr (Reg.level_LR_DEV_MAX r) (wd (max dev (c1.rdF (Reg.level_LR_DEV_MAX r) 15 0)))

/-- COPY_TRANSMIT_END: the last byte of the copy in transmission leaves the MAC. A copy that a PREEMPT window admitted
past its close was counted as the close passed (R295). -/
def Chip.transmitEnd (c : Chip) (k : Clk) (lp : Nat) : Chip :=
  match mget c.sw.sending lp with
  | none => c
  | some cid =>
    match mget c.sw.copies cid with
    | none => c
    | some cp =>
      let r := reachOf lp
      let c1 := (c.emit (.frame lp cp.out false)).count64 (Reg.port_TX_OK_CNT_LO (lp / 8) (lp % 8))
        (Reg.port_TX_OK_CNT_HI (lp / 8) (lp % 8)) 1
      let c2 := (c1.settleCopy k cp cp.out.length).levelSent cp
      let past : Bool := match cp.close with | some e => decide (e < cp.tOut + c.wire lp cp.out.length) | none => false
      let c3 := if past && !cp.pre then c2.overrun r else c2
      c3.endCopy k cid 0

/-! ## Preemption at gate closes (R295) -/

/-- Preemption is active on a logical port. -/
def Chip.preemptActive (c : Chip) (lp : Nat) : Bool :=
  let r := reachOf lp
  let n := localOf lp
  c.sch (Reg.sched_SCH_PCFG r n) 30 30 == 1 &&
    (c.rdF (Reg.sched_PMAC_STAT r n) 2 0 == 3 || c.sch (Reg.sched_SCH_PCFG r n) 29 29 == 1)

/-- GATE_CLOSE_PREEMPT: the close of its PREEMPT window finds a copy in transmission: it is suspended, or runs past the
close (R295). The fragment boundary is taken at the close itself (log 35). -/
def Chip.gateClosePreempt (c : Chip) (lp : Nat) : Chip :=
  match mget c.sw.sending lp with
  | none => c
  | some cid =>
    match mget c.sw.copies cid with
    | none => c
    | some cp =>
      let r := reachOf lp
      let fin : Int := mrd 0 c.sw.wireEnd lp
      match cp.close with
      | none => c
      | some e =>
        if !cp.pre ∨ e ≤ cp.tOut ∨ fin ≤ e then c
        else if !c.preemptActive lp then
          (c.count (Reg.sched_GATE_OVERRUN_CNT r) 1).onCopy cid fun x => { x with close := none }
        else
          let c1 := (c.count (Reg.sched_PREEMPT_CNT r) 1).onCopy cid fun x => { x with pos := .suspended, left := fin - e }
          { c1 with sw := { c1.sw with sending := merase c1.sw.sending lp, wireEnd := mset 0 c1.sw.wireEnd lp e } }

/-- The suspended copy of a logical port. -/
def Chip.suspendedCopy (c : Chip) (lp : Nat) : Option (Nat × Copy) :=
  c.sw.copies.find? fun kc => kc.2.lp == lp && kc.2.pos == .suspended

/-- PREEMPT_RESUME: a window that admits its queue opens and the suspended copy goes on, once the wire is free (R295). -/
def Chip.preemptResume (c : Chip) (k : Clk) (lp : Nat) : Chip :=
  match c.suspendedCopy lp with
  | none => c
  | some (cid, cp) =>
    let t : Int := (k.tod + c.txDly lp : Nat)
    let (g, clip) := c.gateAt lp t
    let q := (lpk cp.q).2
    if (mget c.sw.sending lp).isSome ∨ !c.fwdUp lp then c
    else
      let go (e : Option Int) (pre : Bool) : Chip :=
        let c1 := c.onCopy cid fun x => { x with pos := .sending, close := e, pre }
        { c1 with sw := { c1.sw with sending := mput c1.sw.sending lp (some cid),
                                     wireEnd := mset 0 c1.sw.wireEnd lp (t + cp.left) } }
      if !g.holds q then go none false
      else match g.windows q t clip with
        | (e, pre) :: _ => go (some e) pre
        | [] => c

/-- PREEMPT_VERIFY_RESULT: the verify exchange of IEEE 802.3br ends (R295). -/
def Chip.verifyResult (c : Chip) (lp : Nat) (ok : Bool) : Chip :=
  let r := reachOf lp
  let c1 := c.wrF (Reg.sched_PMAC_STAT r (localOf lp)) 2 0 (if ok then 3 else 4)
  if ok then c1 else c1.raise (Reg.pg_sched r) 23

/-! ## Level placement (R358, R359, R366) -/

/-- The earliest held copy of a logical port. -/
def Chip.heldCopy (c : Chip) (lp : Nat) : Option (Nat × Copy) :=
  (c.sw.copies.filter fun kc => kc.2.lp == lp && kc.2.pos == .hold).foldl (fun o kc =>
    match o with
    | none => some kc
    | some x => if kc.2.dep < x.2.dep then some kc else some x) none

/-- Device-time units of a 64-bit block of a sub-port. -/
def Chip.blockU (c : Chip) (lp : Nat) : Nat := 64 * nsU / max 1 (c.lpRate lp)

/-- A copy leaves the hold and is placed: its start is the block boundary nearest its target, an earlier one when two are as
near (R358; log 35). -/
def Chip.place64 (c : Chip) (k : Clk) (cid lp : Nat) (target : Int) : Chip :=
  let arrive : Int := (k.tod + c.delta k lp : Nat)
  let resid : Int := target - arrive
  if resid < 0 then c.levelLate k cid 3
  else
    let u : Int := (c.blockU lp : Nat)
    let blocks : Int := (2 * resid + u - 1) / (2 * u)
    let c1 := { c with sw := { c.sw with hold := c.sw.hold.filter (· != cid) } }
    c1.onCopy cid fun x => { x with pos := .ready, tOut := arrive + blocks * u }

/-- LEVEL_HOLD_RELEASE of a logical port: its earliest held copy leaves the hold at the last boundary that is in time, that
is, when the next one would not be (R358). An uncorrectable error in its entry drops it (R366). -/
def Chip.holdRelease (c : Chip) (k : Clk) (lp : Nat) : Chip :=
  match c.heldCopy lp with
  | none => c
  | some (cid, cp) =>
    match cp.level with
    | none => c
    | some (_, t) =>
      let beat : Int := (c.beatT k : Nat)
      let at_ : Int := (k.tod + c.delta k lp : Nat)
      if at_ + 2 * beat ≤ t then c
      else
        match c.ecc (Reg.pg_level (reachOf lp)) 0 ((c.sw.hold.idxOf? cid).getD 0) with
        | (.bad, c1) => c1.dropCopy k cid drData false
        | (_, c1) => c1.place64 k cid lp t

end Sys2Proof.Machine
end

