-- ==== Sys2Proof/Machine/Time.lean ====
section
/-!
DEFINITION. Machine/Time.lean: device time, its servo and steps, PPS and reference pins, and the requests S1 serves
(13_timebase_and_servo.md).
-/
namespace Sys2Proof.Machine

/-- The TIME page. -/
abbrev pgTime : Nat := 0x003

/-- TIME clocks, in real-time units. -/
def timeClocks (n : Nat) : Nat := 4032 * n

/-- Signed value of a register word. -/
def sWord (w : Word) : Int := w.toInt

/-- A word of a signed number. -/
def intW (v : Int) : Word := wd (v % 4294967296).toNat

/-! ## Frequency (R331, R341, R343) -/

/-- FREQ_LIM as it acts, in 2^-8 ppb. -/
def Chip.freqLim (c : Chip) : Int := (min 1000000 (c.rdF Reg.time_FREQ_LIM 19 0) * 256 : Nat)

/-- A frequency held within the limit. -/
def Chip.freqClamp (c : Chip) (f : Int) : Int := max (-c.freqLim) (min c.freqLim f)

/-- A number of 2^-32 ppb rounded to the nearest 2^-8 ppb, ties upward (log 36). -/
def roundF (x : Int) : Int := (x + 8388608) / 16777216

/-- A frequency that takes effect at the next sync boundary (R333). -/
def Clk.steer (k : Clk) (f : Int) : Clk := { k with nextFreq := some f }

/-- F in force, or about to be. -/
def Clk.target (k : Clk) : Int := k.nextFreq.getD k.freq

/-! ## Servo (R340 to R343) -/

/-- S1's notice that the servo enters or leaves GLIDE (R350). -/
def Chip.glideNotice (c : Chip) (k : Clk) (entry : Bool) : Chip :=
  if c.serves 1 then c.emit (.notice 3 0x0102 (beBytes 1 entry.toNat ++ secQBytes k.tod)) else c

/-- The servo enters GLIDE: `keep` when the F applied at entry stays, as GLIDE_SRC 0 asks. -/
def State.glideWith (s : State) (keep : Bool) : State :=
  if s.clk.servo ≠ 1 ∧ s.clk.servo ≠ 2 then s
  else
    let f := if keep then s.clk.freq else s.chip.freqClamp (-s.clk.integ)
    let c := ((s.chip.count Reg.time_GLIDE_CNT 1).raise pgTime 25).glideNotice s.clk true
    { s with clk := { s.clk with servo := 3, nextFreq := some f, count := 0, outliers := 0 }, chip := c }

/-- The servo enters GLIDE at the rate GLIDE_SRC selects (R343). -/
def State.enterGlide (s : State) : State := s.glideWith (!s.chip.rdB Reg.time_SERVO_CTL 4)

/-- LOCK_CNT as it acts. -/
def Chip.lockCnt (c : Chip) : Nat := max 1 (c.rdF Reg.time_SERVO_CNT_CFG 23 16)

/-- I and F after an accepted sample of `th` 2^-16 ns (R341). -/
def Chip.servoLoop (c : Chip) (i th : Int) : Int × Int :=
  let i1 := c.freqClamp (roundF (i * 16777216 + (c.rdF Reg.time_SERVO_KI 23 0 : Nat) * th))
  (i1, c.freqClamp (roundF (-((c.rdF Reg.time_SERVO_KP 23 0 : Nat) * th + i1 * 16777216))))

/-- The state of the servo after an accepted sample: the state, the count and the event it sets, if any (R342). -/
def servoNext (st cnt lockCnt : Nat) (near : Bool) : Nat × Nat × Option Nat :=
  if st = 1 then
    if near then (if lockCnt ≤ cnt + 1 then (2, 0, some 27) else (1, cnt + 1, none)) else (1, 0, none)
  else if st = 2 then
    if near then (2, 0, none) else if lockCnt ≤ cnt + 1 then (1, 0, some 26) else (2, cnt + 1, none)
  else (1, 0, none)

/-- A sample is accepted. -/
def State.sampleAccepted (s : State) (th : Int) : State :=
  let c := s.chip
  let k := s.clk
  let near : Bool := decide (th.natAbs < c.rdF Reg.time_SERVO_TH 31 16 * 65536)
  let (i, f) := c.servoLoop k.integ th
  let (st, cnt, ev) := servoNext k.servo k.count c.lockCnt near
  let off := (th % 281474976710656).toNat
  let c1 := ((c.count Reg.time_SAMPLE_ACC_CNT 1).wr Reg.time_LAST_OFFSET_LO (wd (off % 4294967296))).wr
    Reg.time_LAST_OFFSET_HI (wd (off / 4294967296))
  let c2 := match ev with | some e => c1.raise pgTime e | none => c1
  let c3 := if k.servo = 3 then c2.glideNotice k false else c2
  let c4 : Chip := { c3 with tel := { c3.tel with accepted := c3.tel.accepted + 1 } }
  { s with clk := { k with servo := st, count := cnt, outliers := 0, integ := i, nextFreq := some f }, chip := c4 }

/-- An outlier in LOCKED: the eighth in a row unlocks the servo. -/
def State.sampleOutlier (s : State) : State :=
  let c := s.chip.countF Reg.time_SAMPLE_REJ_CNT 31 16
  if 7 ≤ s.clk.outliers then
    { s with clk := { s.clk with servo := 1, count := 0, outliers := 0 }, chip := c.raise pgTime 26 }
  else { s with clk := { s.clk with outliers := s.clk.outliers + 1 }, chip := c }

/-- A sample reaches the servo: an offset in 2^-16 ns and the STEP_SEQ its source believes current (R340). An
uncorrectable error in the servo state sends it to GLIDE at the F applied (R352). -/
def State.servoSample (s : State) (seq : Nat) (th : Int) : State :=
  match s.chip.ecc pgTime 1 0 with
  | (.bad, c) => ({ s with chip := c.rewrite pgTime 1 0 }).glideWith true
  | (_, c) =>
    let s1 := { s with chip := c }
    if seq ≠ s.clk.stepSeq then { s1 with chip := c.countF Reg.time_SAMPLE_REJ_CNT 15 0 }
    else if s.clk.servo = 0 then s1
    else if s.clk.servo = 2 ∧ c.rdF Reg.time_SERVO_TH 15 0 * 65536 < th.natAbs then s1.sampleOutlier
    else s1.sampleAccepted th

/-- The source SERVO_CTL.SRC names: its agent number, 0 for PPS_IN. -/
def Chip.servoSrc (c : Chip) : Nat :=
  match c.rdF Reg.time_SERVO_CTL 9 8 with
  | 1 => 1
  | 2 => 0
  | _ => 18

/-- A write of SAMPLE_HI: `false` when its agent is not the source (R340). -/
def State.sampleHi (s : State) (agent : Nat) (v : Word) : Bool × State :=
  if s.chip.servoSrc ≠ agent then (false, s)
  else
    let th := signed 48 (fld v 15 0 * 4294967296 + (s.chip.rd Reg.time_SAMPLE_LO).toNat)
    (true, s.servoSample (fld v 31 24) th)

/-- SERVO_EN is set (R342). -/
def State.servoOn (s : State) : State :=
  if s.clk.servo = 0 then
    { s with clk := { s.clk with servo := 1, integ := s.chip.freqClamp (-s.clk.target), count := 0, outliers := 0 } }
  else s

/-- The servo is disabled: F is kept and becomes FREQ_MAN (R342). -/
def State.servoOff (s : State) : State :=
  if s.clk.servo = 0 then s
  else
    let c := s.chip.wr Reg.time_FREQ_MAN (intW s.clk.target)
    let c1 := if s.clk.servo = 3 then c.glideNotice s.clk false else c
    { s with clk := { s.clk with servo := 0, count := 0, outliers := 0 }, chip := c1 }

/-- A write of SERVO_CTL. -/
def State.servoCtl (s : State) (v : Word) : State :=
  let s1 := { s with chip := s.chip.wr Reg.time_SERVO_CTL (v &&& 0x80000310) }
  let s2 := if bit v 31 then s1.servoOn else s1.servoOff
  if bit v 0 then s2.enterGlide else s2

/-- FREQ_MAN or FREQ_LIM has been written: F follows FREQ_MAN while the servo is DISABLED, and stays within the limit
(R331). -/
def State.freqWritten (s : State) : State :=
  let f := if s.clk.servo = 0 then sWord (s.chip.rd Reg.time_FREQ_MAN) else s.clk.target
  { s with clk := s.clk.steer (s.chip.freqClamp f) }

/-! ## Steps (R344 to R346) -/

/-- The value STEP_SEC, STEP_NS and STEP_FRAC form. -/
def Chip.stepValue (c : Chip) : Nat :=
  c.rd64 Reg.time_STEP_SEC_LO Reg.time_STEP_SEC_HI * secU + c.rdF Reg.time_STEP_NS 29 0 * nsU +
    c.rdF Reg.time_STEP_FRAC 15 0 * fracU

/-- A GO: the status it gives, `none` when it is taken. -/
def State.stepRefused (s : State) (v : Word) : Option Nat :=
  let kind := fld v 1 0
  if s.clk.step.isSome then some stBusy
  else if 999999999 < s.chip.rdF Reg.time_STEP_NS 29 0 ∨ (kind ≠ 1 ∧ kind ≠ 2) ∨ (kind = 2 ∧ bit v 8) ∨
      (kind = 1 ∧ bit v 8 ∧ s.clk.tod < s.chip.stepValue) then some stBadArg
  else none

/-- A write of STEP_CMD: `false` when its agent may not step time (R344). -/
def State.stepCmd (s : State) (agent : Nat) (v : Word) (svc : Bool) : Bool × State :=
  if agent ≠ 1 ∧ agent ≠ 18 then (false, { s with chip := s.chip.wr Reg.time_STEP_STATUS (wd stDenied) })
  else
    let s1 := { s with chip := s.chip.wr Reg.time_STEP_CMD (v &&& 0x00000103) }
    if !bit v 31 then (true, s1)
    else match s.stepRefused v with
      | some st => (true, { s with chip := s.chip.wr Reg.time_STEP_STATUS (wd st) })
      | none => (true, { s1 with clk := { s1.clk with
          step := some { isSet := fld v 1 0 == 2, neg := bit v 8, value := s.chip.stepValue, agent, svc }
          stepAt := s.clk.now } })

/-- Device time after a step. -/
def StepCmd.result (x : StepCmd) (tod : Nat) : Nat :=
  (if x.isSet then x.value else if x.neg then tod - x.value else tod + x.value) % (2 ^ 64 * secU)

/-- Three words of STEP_LOG: the seconds and the nanoseconds of a time. -/
def Chip.logTime (c : Chip) (i t : Nat) : Chip :=
  ((c.wr (Reg.time_STEP_LOG i) (wd (todSec t % 4294967296))).wr (Reg.time_STEP_LOG (i + 1)) (wd (todSec t / 4294967296))).wr
    (Reg.time_STEP_LOG (i + 2)) (wd (todNs t))

/-- An instant moved by a step. -/
def stepNat (t : Nat) (δ : Int) : Nat := ((t : Int) + δ).toNat

/-- Meters and capture buckets keep their tokens across a step: the instant each was filled to moves with it (log 37). -/
def Chip.bucketStep (c : Chip) (δ : Int) : Chip :=
  { c with weirs := { c.weirs with meters := c.weirs.meters.map fun kv => (kv.1, { kv.2 with at_ := stepNat kv.2.at_ δ }) }
           tel := { c.tel with buckets := c.tel.buckets.map fun kv => (kv.1, (kv.2.1, stepNat kv.2.2 δ)) } }

/-- STEP_APPLY: an armed step is applied at a sync boundary 256 TIME clocks or more after its command (R345, R346). -/
def State.stepApply (s : State) : State :=
  match s.clk.step with
  | none => s
  | some x =>
    if s.clk.now ≠ s.clk.lastSync ∨ s.clk.now < s.clk.stepAt + timeClocks 256 then s
    else
      let t0 := s.clk.tod
      let t1 := x.result t0
      let seq := (s.clk.stepSeq + 1) % 256
      let δ : Int := (t1 : Int) - t0
      let c := (((s.chip.schedStep δ).bucketStep δ).logTime 0 t0).logTime 3 t1
      let c1 := ((c.wr Reg.time_STEP_LOG_INFO (wd (seq * 65536 + x.agent))).wr Reg.time_STEP_STATUS (wd stOk)).raise pgTime 24
      let c2 := if x.svc && c1.serves 1 then c1.emit (.reply 3 0x0004 stOk []) else c1
      let c3 : Chip := { c2 with tel := { c2.tel with steps := c2.tel.steps ++ [(t0, t1, x.agent)] } }
      { s with clk := { s.clk with tod := t1, syncTod := t1, step := none, stepSeq := seq }, chip := c3 }

/-! ## Sync words and votes (R332, R333) -/

/-- Real-time units between sync words. -/
def syncUnits : Nat := timeClocks 64

/-- Lane die of a logical port. -/
def dieOf (lp : Nat) : Nat := lp / 144

/-- Ring entries of stamps that a die took from `since` on carry TS_ERR (R333). -/
def Chip.ptpMark (c : Chip) (d since : Nat) : Chip :=
  let head := c.rdF Reg.time_PTPQ_HEAD 11 0
  let tail := c.rdF Reg.time_PTPQ_TAIL 11 0
  (List.range ((head + 4096 - tail) % 4096)).foldl (fun c i =>
    let a := 64 * (c.rd Reg.time_PTPQ_BASE).toNat + 192 * ((tail + i) % 4096)
    let b := c.flBytes a 14
    let t := beNat (slice b 0 6) * secU + beNat (slice b 6 4) * nsU + beNat (slice b 10 2) * fracU
    let lp := beNat (slice b 12 2)
    if dieOf lp = d ∧ since ≤ t + c.rdF (Reg.port_PORT_RX_DLY (lp / 8) (lp % 8)) 23 0 * (nsU / 256) then c.flStore (a + 16) [1] else c) c

/-- A die's copy differs from the sync word: it reloads, and every stamp it took since the last word carries TS_ERR
(R333). `since` is device time at that word. -/
def State.copyError (s : State) (since : Nat) (d : Nat) : State :=
  let c := (s.chip.count Reg.time_COPY_ERR_CNT 1).raise pgTime 21
  let c1 := if c.rdB Reg.time_COPY_ERR_LAST 31 then c else c.wr Reg.time_COPY_ERR_LAST (wd (0x80000000 + d))
  let frames := c1.frames.map fun kf =>
    if kf.2.inLp < 1152 ∧ dieOf kf.2.inLp = d ∧ s.clk.lastSync ≤ kf.2.stampNow then (kf.1, { kf.2 with tsErr := true }) else kf
  let copies := c1.sw.copies.map fun kc =>
    if kc.2.lp < 1152 ∧ dieOf kc.2.lp = d ∧ kc.2.onWire ∧ ((since + c1.txDly kc.2.lp : Nat) : Int) ≤ kc.2.tOut then
      (kc.1, { kc.2 with carry := cputN kc.2.carry 0x2CE 1 ((cbyte kc.2.carry 0x2CE).toNat % 128 + 128) }) else kc
  let txts := s.clk.txts.map fun kq =>
    if dieOf kq.1 = d then (kq.1, kq.2.map fun e => if since + c1.txDly kq.1 ≤ e.t then { e with tsErr := true } else e) else kq
  let c2 : Chip := { c1 with frames, sw := { c1.sw with copies }, tel := { c1.tel with copyErr := true } }
  { s with clk := { s.clk with txts }, chip := c2.ptpMark d since }

/-- SYNC_WORD: the next sync boundary comes; a new F takes effect; `bad` names the dies whose copy differs (R333). -/
def State.syncWord (s : State) (bad : List Nat) : State :=
  let k := s.clk.advance (s.clk.lastSync + syncUnits)
  let s1 := bad.foldl (fun s d => s.copyError s.clk.syncTod d) { s with clk := { k with lastSync := s.clk.lastSync } }
  { s1 with clk := { s1.clk with lastSync := k.now, syncTod := k.tod, freq := k.target, nextFreq := none } }

/-- TOD_VOTE_RELOAD: one counter disagrees with the other two, or all three disagree, which is a fatal fault (R332). -/
def State.todVote (s : State) (two : Bool) : State :=
  if two then
    let c := (s.chip.count Reg.time_TOD_VOTE_CNT 1).raise pgTime 22
    { s with chip := { c with tel := { c.tel with votes := true } } }
  else { s with clk := { s.clk with todFault := true }, chip := s.chip.fatal s.clk.tod pgTime }

/-! ## References (R329, R330) -/

/-- A write of TIME_CLK_CTL: the PLL moves to the reference REF_SEL names, if it is present. -/
def Chip.refSel (c : Chip) (v : Word) : Chip :=
  let c1 := c.wr Reg.time_TIME_CLK_CTL (v &&& 0x00000101)
  c1.wrF Reg.time_TIME_CLK_STAT 2 2 (if bit v 0 && c1.rdB Reg.time_TIME_CLK_STAT 1 then 1 else 0)

/-- TIME_REF is lost. -/
def Chip.refLoss (c : Chip) : Chip :=
  if !c.rdB Reg.time_TIME_CLK_STAT 1 then c
  else
    let c1 := (c.wrF Reg.time_TIME_CLK_STAT 1 1 0).raise pgTime 23
    if c1.rdB Reg.time_TIME_CLK_CTL 8 then c1.wrF Reg.time_TIME_CLK_STAT 2 2 0 else c1

/-- Edges return on TIME_REF. -/
def Chip.refReturn (c : Chip) : Chip :=
  let c1 := c.wrF Reg.time_TIME_CLK_STAT 1 1 1
  if !c1.rdB Reg.time_TIME_CLK_CTL 8 && c1.rdB Reg.time_TIME_CLK_CTL 0 then c1.wrF Reg.time_TIME_CLK_STAT 2 2 1 else c1

/-! ## Transmit timestamps (R339, R352, R353) -/

/-- TXTS_PEND of a logical port follows its FIFO. -/
def State.txtsSettle (s : State) (lp : Nat) : State :=
  if (s.clk.txFifo lp).isEmpty then
    let c1 := s.chip.wrF (Reg.time_TXTS_PEND (lp / 32)) (lp % 32) (lp % 32) 0
    { s with chip := (s.chip.settle c1 pgTime).firstSettle pgTime }
  else s

/-- The oldest entry of a FIFO is checked: an uncorrectable error discards it (R352). Word `lp` of memory 0 stands for it
(log 23). -/
def State.txtsCheck (s : State) (lp : Nat) : State :=
  match s.clk.txFifo lp with
  | [] => s
  | _ :: l => match s.chip.ecc pgTime 0 lp with
    | (.bad, c) => { s with clk := { s.clk with txts := mset [] s.clk.txts lp l }, chip := (c.rewrite pgTime 0 lp).txtsDrop lp }
    | (_, c) => { s with chip := c }

/-- A read of TXTS_NS: the value read. -/
def State.txtsRead (s0 : State) (lp : Nat) : Word × State :=
  let s := s0.txtsCheck lp
  match s.clk.txFifo lp with
  | [] => (0, s.txtsSettle lp)
  | e :: l =>
    let (p, j) := (lp / 8, lp % 8)
    let c1 := ((s.chip.wr (Reg.port_TXTS_SEC p j) (wd (todSec e.t % 4294967296))).wr (Reg.port_TXTS_INFO p j)
      (wd (e.seqId * 65536 + e.domain * 256 + e.edited.toNat * 16 + e.msgType))).wr (Reg.port_TXTS_FRAC p j)
      (wd (todSec e.t / 4294967296 % 65536 * 65536 + todFrac e.t))
    let s1 : State := { s with clk := { s.clk with txts := mset [] s.clk.txts lp l }, chip := c1 }
    (wd (0x80000000 + e.tsErr.toNat * 0x40000000 + todNs e.t), s1.txtsSettle lp)

/-- The transmit timestamp FIFOs of a port are emptied (R353). -/
def State.txtsClear (s : State) (p : Nat) : State :=
  (List.range 8).foldl (fun s j => ({ s with clk := { s.clk with txts := merase s.clk.txts (8 * p + j) } }).txtsSettle (8 * p + j)) s

/-! ## PPS (R347, R348) -/

/-- An edge is ignored. -/
def Chip.ppsIgnored (c : Chip) : Chip := c.count Reg.time_PPS_IN_IGN_CNT 1

/-- θ of a PPS stamp: its distance from the nearest whole second, in 2^-16 ns; half a second counts as ahead (log 36). -/
def ppsTheta (t : Nat) : Int :=
  let f := t % secU
  ((if 2 * f ≤ secU then (f : Int) else (f : Int) - secU) / (fracU : Nat))

/-- PPS_IN_EDGE: a rising edge `sub` quarter nanoseconds after the last sync word. -/
def State.ppsIn (s : State) (sub : Nat) : State :=
  let c := s.chip
  let at_ := s.clk.lastSync + sub * rtNs / 4
  let soon : Bool := match s.clk.ppsLast with | some t => decide (at_ < t + 500000000 * rtNs) | none => false
  if !c.rdB Reg.time_PPS_CTL 30 then s
  else if soon || decide (4 ≤ s.clk.ppsFifo.length) then { s with chip := c.ppsIgnored }
  else
    let t := roundQ (s.clk.syncTod + sub * qU) - c.rdF Reg.time_PPS_IN_DLY 15 0 * (nsU / 256)
    let s1 : State := { s with clk := { s.clk with ppsFifo := s.clk.ppsFifo ++ [t], ppsLast := some at_ },
                               chip := { c.raise pgTime 17 with tel := { c.tel with lastPps := t } } }
    if c.rdF Reg.time_SERVO_CTL 9 8 = 2 then s1.servoSample s1.clk.stepSeq (ppsTheta t) else s1

/-- The oldest stamp is checked: an uncorrectable error discards it (R352). Word 2,048 of memory 0 stands for it (log 23). -/
def State.ppsCheck (s : State) : State :=
  match s.clk.ppsFifo with
  | [] => s
  | _ :: l => match s.chip.ecc pgTime 0 2048 with
    | (.bad, c) => { s with clk := { s.clk with ppsFifo := l }, chip := (c.rewrite pgTime 0 2048).ppsIgnored }
    | (_, c) => { s with chip := c }

/-- A read of PPS_IN_NS: the value read. -/
def State.ppsRead (s0 : State) : Word × State :=
  let s := s0.ppsCheck
  match s.clk.ppsFifo with
  | [] => (0, s)
  | t :: l =>
    let c1 := (s.chip.wr Reg.time_PPS_IN_SEC (wd (todSec t % 4294967296))).wr Reg.time_PPS_IN_FRAC (wd (todFrac t))
    (wd (0x80000000 + todNs t), { s with clk := { s.clk with ppsFifo := l }, chip := c1 })

/-- PPS_OUT_EDGE: increments carry device time across the edge instant (R346, R348). -/
def State.ppsOutEdge (s : State) : State :=
  if s.chip.rdB Reg.time_PPS_CTL 31 then { s with clk := { s.clk with ppsOut := true } } else s

/-- PPS_OUT_FALL. -/
def State.ppsOutFall (s : State) : State := { s with clk := { s.clk with ppsOut := false } }

/-! ## Soft reset of the page (R352) -/

/-- What a soft reset of the TIME page leaves, once its registers have been reset. -/
def State.timeReset (s : State) : State :=
  let k := s.clk
  let c := s.chip.wr Reg.time_FREQ_MAN (intW k.target)
  let c1 := if k.step.isSome then c.wr Reg.time_STEP_STATUS (wd stAborted) else c
  { s with clk := { k with servo := 0, count := 0, outliers := 0, integ := 0, step := none, ppsFifo := [], ppsLast := none,
                           txts := [], todShadow := [] }, chip := c1 }

/-! ## The S1 PTP service (R349, R350) -/

/-- S1 answers a request, when it runs (R168, R169). -/
def Chip.s1Reply (c : Chip) (op st : Nat) (body : List Byte) : Chip := c.emit (.reply 3 op st body)

/-- The transparent clock type. -/
def clockTc (typ : Nat) : Bool := typ == 2 || typ == 3

/-- CLOCK_CFG: the PTP clock is configured and its best-master choice starts again. -/
def State.clockCfg (s : State) (vals : List Nat) : State :=
  if s.chip.serves 1 then { s with clk := { s.clk with ptpClock := vals }, chip := s.chip.s1Reply 0x0001 stOk [] } else s

/-- PORT_CFG: TS_CTL and the PTP settings of a logical port. TC_EN follows the clock type (log 38). -/
def State.portCfg (s : State) (lp : Nat) (en peer oneStep : Bool) (vals : List Int) : State :=
  if s.chip.serves 1 then
    let tc := clockTc (s.clk.ptpClock.head?.getD 0)
    let w := en.toNat * 0x80000000 + oneStep.toNat * 0x40000000 + tc.toNat * 0x20000000 + peer.toNat * 0x10000000
    { s with clk := { s.clk with ptpPorts := mput s.clk.ptpPorts lp (some vals) },
             chip := (s.chip.wr (Reg.port_TS_CTL (lp / 8) (lp % 8)) (wd w)).s1Reply 0x0002 stOk [] }
  else s

/-- `n` free words, as bytes: values of S1's protocol engine that the spec does not fix (log 38). -/
def Chip.freeBytes (c : Chip) : Nat → List Byte × Chip
  | 0 => ([], c)
  | n + 1 =>
    let (w, c1) := c.free
    let (bs, c2) := c1.freeBytes n
    (wordBytesBE w ++ bs, c2)

/-- GET_STATUS: the PTP state of a port or of the clock, which S1's protocol decides, and the servo state. -/
def State.ptpStatus (s : State) (lp : Option Nat) : State :=
  if s.chip.serves 1 then
    let (bs, c) := s.chip.freeBytes 7
    { s with chip := c.s1Reply 0x0003 stOk (beBytes 2 (lp.getD 0xFFFF) ++ bs ++ beBytes 1 s.clk.servo) }
  else s

/-- STEP: S1 writes the step registers and STEP_CMD, and answers with STEP_STATUS once the step is refused or applied. -/
def State.svcStep (s : State) (kind sec ns frac : Nat) (neg : Bool) : State :=
  if s.chip.serves 1 then
    let c := ((s.chip.wr64 Reg.time_STEP_SEC_LO Reg.time_STEP_SEC_HI sec).wr Reg.time_STEP_NS (wd ns)).wr Reg.time_STEP_FRAC (wd frac)
    let v := wd (0x80000000 + neg.toNat * 256 + kind)
    let s1 := { s with chip := c }
    match s1.stepRefused v with
    | some st => let s2 := (s1.stepCmd 18 v false).2; { s2 with chip := s2.chip.s1Reply 0x0004 st [] }
    | none => (s1.stepCmd 18 v true).2
  else s

end Sys2Proof.Machine
end

