-- ==== Sys2Proof/Machine/Vault.lean ====
section
/-!
DEFINITION. Machine/Vault.lean: the Vault (17_cipher.md R422 to R435): key slots, job queues, the operations of
R426, the DRBG, zeroisation and the self-tests.
-/
namespace Sys2Proof.Machine

/-! ## The DRBG (R426, R430) -/

/-- `n` bytes of the entropy source. -/
def Vault.entropy (v : Vault) (n : Nat) : List Byte × Vault :=
  ((List.range n).map fun i => Config.entropy (v.drawn + i), { v with drawn := v.drawn + n })

/-- The DRBG seeded: at its first use, and after every 2^20 requests. -/
def Vault.seed (v : Vault) : Vault :=
  if v.drbgKey.isEmpty ∨ 1048576 ≤ v.drbgCount then
    let (s, v1) := v.entropy 48
    let key := if v.drbgKey.isEmpty then List.replicate 32 0 else v.drbgKey
    let vv := if v.drbgKey.isEmpty then List.replicate 16 0 else v.drbgV
    let (k2, v2) := Crypto.drbgUpdate key vv s
    { v1 with drbgKey := k2, drbgV := v2, drbgCount := 0 }
  else v

/-- One request for `n` bytes. -/
def Vault.draw (v : Vault) (n : Nat) : List Byte × Vault :=
  let v0 := v.seed
  let (o, w) := Crypto.drbgBlocks (Crypto.roundKeys v0.drbgKey) ((n + 15) / 16) v0.drbgV
  let (k2, w2) := Crypto.drbgUpdate v0.drbgKey w (List.replicate 48 0)
  (o.take n, { v0 with drbgKey := k2, drbgV := w2, drbgCount := v0.drbgCount + 1 })

/-! ## State changes (R430 to R433) -/

/-- Every slot, every port SA and the DRBG state overwritten (R432). -/
def Vault.zeroise (v : Vault) : Vault := { v with slots := [], sas := [], drbgKey := [], drbgV := [], drbgCount := 0 }

/-- A request of a sluice is carried out with a status and bytes for its data SRAM. -/
def Chip.sluAnswer (c : Chip) (r serial st : Nat) (bytes : List Byte) (at_ : Nat) : Chip :=
  { c with slu := { c.slu with s := modAt c.slu.s r fun u =>
    { u with reqs := u.reqs.map fun q => if q.serial = serial then { q with status := some st, bytes, at_ } else q } } }

/-- A job ends: its result is written over its descriptor, and its issuer told (R425, R435). -/
def jobEnd (cv : CV) (u : Nat) (j : VJob) (st : Nat) (desc : List Byte) : CV :=
  let d := blkPutB desc 3 st
  let c0 := cv.1.count64 Reg.vault_JOB_CNT_LO Reg.vault_JOB_CNT_HI 1
  match j.sluice with
  | none =>
    let c1 := (List.range 16).foldl (fun c n => c.wr (Reg.upage_JOB_DESC u n) (wd (beNat (slice d (4 * n) 4)))) c0
    ((c1.wr (Reg.upage_JOB_STATUS u) (wd st)).raise (0x020 + u) 0, cv.2)
  | some (r, serial, a) => (c0.sluAnswer r serial st d a, cv.2)
where
  /-- A byte of a descriptor replaced. -/
  blkPutB (b : List Byte) (i st : Nat) : List Byte := b.take i ++ beBytes 1 st ++ b.drop (i + 1)

/-- Every queued job of the pages that pass a test ends ABORTED. -/
def abortJobs (cv : CV) (f : Nat → Bool) : CV :=
  let gone := cv.2.jobs.filter fun uj => f uj.1
  let v1 := { cv.2 with jobs := cv.2.jobs.filter fun uj => !f uj.1 }
  gone.foldl (fun acc uj => uj.2.foldl (fun a j => jobEnd a uj.1 j stAborted j.desc) acc) (cv.1, v1)

/-- Entry to ERROR (R430, R432). -/
def vaultError (cv : CV) : CV :=
  let (c, v) := abortJobs cv (fun _ => true)
  (c.raise 0x010 25, { v.zeroise with state := 2 })

/-- HEALTH_TEST_FAIL (R430). -/
def healthFail (cv : CV) : CV :=
  if cv.2.state = 2 then cv
  else vaultError ((cv.1.count Reg.vault_HEALTH_FAIL_CNT 1).raise 0x010 26, cv.2)

/-- ZEROIZE.ALL (R432). -/
def zeroizeAll (cv : CV) (readBackOk : Bool) : CV :=
  let (c, v) := abortJobs cv (fun _ => true)
  let done := (c.raise 0x010 24, v.zeroise)
  if readBackOk then done else (done.1.raise 0x010 25, { done.2 with state := 2 })

/-- The known-answer tests finish (R433). Which bit of KAT_STAT stands for which test the spec does not say: the
bits are free when one failed (log 26). -/
def katDone (cv : CV) (fail : Option Nat) : CV :=
  if cv.2.state ≠ 0 then cv
  else match fail with
    | none => (cv.1.wr Reg.vault_KAT_STAT 0xFFFF, { cv.2 with state := 1 })
    | some n =>
      let (w, c1) := cv.1.free
      let (c2, v2) := vaultError (c1, cv.2)
      (c2.wr Reg.vault_KAT_STAT (wd (n % 256 * 16777216 + fld w 15 0)), v2)

/-- UP_OWNER of a page. -/
def Chip.upOwner (c : Chip) (u : Nat) : Nat := c.rdF (Reg.vault_UP_OWNER u) 7 0

/-- A write of UP_OWNER (R422): `false` when it is not accepted. -/
def upOwnerWrite (cv : CV) (agent u : Nat) (w : Word) : Bool × CV :=
  let used := (List.range 16).any fun s => (cv.2.slot u s).isSome
  if u = 0 ∨ u = 5 ∨ (agent ≠ 1 ∧ agent ≠ 17) ∨ used then (false, cv)
  else (true, (cv.1.wr (Reg.vault_UP_OWNER u) (w &&& 0xFF), cv.2))

/-! ## Job queues (R422, R424) -/

/-- Jobs of a page, oldest first. -/
def Vault.queueOf (v : Vault) (u : Nat) : List VJob := mrd [] v.jobs u

/-- A job is queued: the status when it is not. -/
def Vault.enqueue (v : Vault) (u : Nat) (j : VJob) : Nat × Vault :=
  if v.state = 2 then (stAborted, v)
  else if 4 ≤ (v.queueOf u).length then (stBusy, v)
  else (stOk, { v with jobs := mput v.jobs u (some (v.queueOf u ++ [j])) })

/-- JOB_DESC of a page as 64 bytes. -/
def Chip.jobDesc (c : Chip) (u : Nat) : List Byte :=
  ((List.range 16).map fun n => wordBytesBE (c.rd (Reg.upage_JOB_DESC u n))).flatten

/-- A host job is submitted through JOB_CMD.GO (R424, R435). A refused job leaves the status only. -/
def jobSubmit (cv : CV) (u : Nat) : CV :=
  match cv.2.enqueue u { desc := cv.1.jobDesc u, sluice := none } with
  | (0, v1) => (cv.1, v1)
  | (st, v1) => (cv.1.wr (Reg.upage_JOB_STATUS u) (wd st), v1)

/-- A page has a host job queued or running (JOB_CMD.GO reads 1). -/
def Vault.jobBusy (v : Vault) (u : Nat) : Bool := (v.queueOf u).any fun j => j.sluice.isNone

/-- The page whose oldest job runs next: ascending after the page served last, wrapping (R424). -/
def Vault.nextPage (v : Vault) : Option Nat :=
  ((List.range 32).map fun i => (v.lastPage + 1 + i) % 32).find? fun u => !(v.queueOf u).isEmpty

/-! ## Where a job reads and writes (R425) -/

/-- Fields of a descriptor. -/
def jF (d : List Byte) (at_ n : Nat) : Nat := beNat (slice d at_ n)

/-- Bytes of the Flume a page's jobs may reach: a customer sluice's window, the service region, and the ledger
region for UP5. -/
def Chip.jobFlumeOk (c : Chip) (u a n : Nat) : Bool :=
  let o := c.upOwner u
  let last := (64 * a + n + 63) / 64
  let service := c.rdF Reg.flume_FL_PART 5 0 * 16777216
  let ledger := service + c.rdF Reg.flume_FL_PART 13 8 * 16777216
  let inWin := if 25 ≤ o ∧ o < 33 then
      decide ((c.rd (Reg.sluice_FLUMEWIN_BASE (o - 17))).toNat ≤ a) && decide (last ≤ (c.rd (Reg.sluice_FLUMEWIN_LIM (o - 17))).toNat)
    else decide (last ≤ service) ||
      (u == 5 && decide (ledger ≤ a) && decide (last ≤ ledger + c.rdF Reg.flume_FL_PART 21 16 * 16777216))
  inWin

/-- Host addresses a page's jobs may reach: a customer sluice's window, or any. -/
def Chip.jobHostOk (c : Chip) (u a n : Nat) : Bool :=
  let o := c.upOwner u
  if 25 ≤ o ∧ o < 33 then
    decide (c.rd64 (Reg.sluice_HOSTWIN_BASE_LO (o - 17)) (Reg.sluice_HOSTWIN_BASE_HI (o - 17)) ≤ a) &&
      decide (a + n ≤ c.rd64 (Reg.sluice_HOSTWIN_LIM_LO (o - 17)) (Reg.sluice_HOSTWIN_LIM_HI (o - 17)))
  else true

/-- A space and a range are allowed to a job. -/
def Chip.spaceOk (c : Chip) (u : Nat) (j : VJob) (sp a n : Nat) (output : Bool) : Bool :=
  match sp with
  | 0 => c.jobHostOk u a n
  | 1 => c.jobFlumeOk u a n
  | 2 => j.sluice.isSome && decide (a + n ≤ 65536)
  | _ => u == 5 && !output

/-- The input of a job: host memory and the ledger stream come with the command. -/
def Chip.jobInput (c : Chip) (j : VJob) (sp a n : Nat) (inp : List Byte) : List Byte :=
  match sp with
  | 1 => c.flRead (64 * a) n
  | 2 => match j.sluice with
    | some (r, _, _) => readBytes ((c.slu.s[r]?.getD {}).ds) a n
    | none => slice inp 0 n
  | _ => slice inp 0 n

/-- The Flume data a job reads is checked: the status that ends the job, when it cannot be read (R318; log 26). -/
def Chip.jobFlume (c : Chip) (sp a n : Nat) : Option Nat × Chip :=
  if sp ≠ 1 ∨ n = 0 then (none, c)
  else if !c.flReady then (some stAborted, c)
  else
    match c.flUnits 3 a ((n + 63) / 64) with
    | (true, c1) => (some stIntegrity, c1)
    | (false, c1) => (none, c1)

/-- The output of a job written. -/
def Chip.jobOutput (c : Chip) (j : VJob) (sp a : Nat) (out : List Byte) : Chip :=
  if out.isEmpty then c
  else match sp with
    | 1 => c.flStore (64 * a) out
    | 2 => match j.sluice with
      | some (r, _, _) => { c with slu := { c.slu with s := modAt c.slu.s r fun u => { u with ds := writeBytes u.ds a out } } }
      | none => c
    | _ => c.emit (.host a out)

/-! ## Key slots (R423, R427 to R429) -/

/-- A slot given a key, or emptied. -/
def Vault.putSlot (v : Vault) (u s : Nat) (k : Option KeySlot) : Vault := { v with slots := mput v.slots (16 * u + s) k }

/-- A complete key of a type in a slot; an error in its storage empties it first (R435). -/
def keyOf (cv : CV) (u s typ : Nat) : Option KeySlot × CV :=
  let (r, c1) := cv.1.ecc (0x020 + u) 0 s
  let v1 := if r = .bad then cv.2.putSlot u s none else cv.2
  let c2 := if r = .bad then c1.rewrite (0x020 + u) 0 s else c1
  match v1.slot u s with
  | some k => (if k.typ = typ ∧ k.half.isNone then some k else none, (c2, v1))
  | none => (none, (c2, v1))

/-- What a job gives: status, output bytes, and the descriptor's IV and TAG where it returns them. -/
structure JRes where
  st : Nat
  out : List Byte := []
  iv : Option (List Byte) := none
  tag : Option (List Byte) := none

/-- The IV the Vault forms, and the slot after its use (R427). -/
def KeySlot.iv (k : KeySlot) : List Byte := beBytes 4 k.fixed ++ beBytes 8 k.ctr

/-- GCM_ENC and GMAC (R426, R427). -/
def jobEncrypt (cv : CV) (u s : Nat) (aad pt : List Byte) : JRes × CV :=
  match keyOf cv u s 1 with
  | (none, cv1) => ({ st := stBadArg }, cv1)
  | (some k, (c1, v1)) =>
    if k.ctr = 2 ^ 64 - 1 then ({ st := stFull }, (c1.raise (0x020 + u) 27, v1))
    else
      let (ct, tag) := Crypto.gcmEnc k.key k.iv aad pt
      ({ st := stOk, out := ct, iv := some k.iv, tag := some tag }, (c1, v1.putSlot u s (some { k with ctr := k.ctr + 1 })))

/-- UNWRAP of a blob into a slot of page `u` (R428, R429). -/
def jobUnwrap (cv : CV) (u s dst : Nat) (blob : List Byte) : JRes × CV :=
  let typ := jF blob 0 1
  let pg := jF blob 1 1
  let ks := jF blob 2 1
  let byDevice := typ == 5 && pg == 0 && ks == 0
  let fail := fun (st : Nat) => (({ st } : JRes), cv)
  if pg ≠ u ∧ !byDevice then fail stDenied
  else if !byDevice ∧ s ≠ ks then fail stBadArg
  else
    match cv.2.kek blob with
    | none => fail stBadArg
    | some kek =>
      match openWrapped kek blob with
      | none => fail stIntegrity
      | some (fixed, ctr, key) =>
        let exportable := jF blob 3 1 != 0
        if typ = 4 then
          let half := jF blob 4 1
          if 1 < half ∨ jF blob 5 3 ≠ 0 ∨ ctr ≠ 0 then fail stIntegrity
          else match cv.2.slot u dst with
            | none =>
              ({ st := stOk }, (cv.1, cv.2.putSlot u dst (some { typ := 2, exportable, fixed := 0, ctr := 0, key := key.take 24, half := some half })))
            | some k =>
              if k.typ ≠ 2 ∨ k.half.isNone ∨ k.half = some half ∨ k.exportable ≠ exportable then fail stBadArg
              else
                let whole := if half = 1 then k.key ++ key.take 24 else key.take 24 ++ k.key
                ({ st := stOk }, (cv.1, cv.2.putSlot u dst (some { k with key := whole, half := none })))
        else
          let slotTyp := if typ = 2 ∧ u = 5 then 1 else if typ = 3 ∧ u ≠ 5 then 1 else if typ = 5 then 4 else 0
          if slotTyp = 0 then fail stIntegrity
          else ({ st := stOk }, (cv.1, cv.2.putSlot u dst (some { typ := slotTyp, exportable, fixed, ctr, key })))

/-- A wrapped key under a KEK (R428). -/
def wrapBlob (kek : List Byte) (typ pg ks : Nat) (exportable : Bool) (word ctr : Nat) (key : List Byte) : List Byte :=
  let hdr := beBytes 1 typ ++ beBytes 1 pg ++ beBytes 1 ks ++ [if exportable then 1 else 0] ++ beBytes 4 word
  hdr ++ Crypto.kwWrap kek (hdr ++ beBytes 8 ctr ++ slice key 0 32)

/-- WRAP of slot `dst` under the KEK in slot `s` (R426, R428). -/
def jobWrap (cv : CV) (u s dst : Nat) : JRes × CV :=
  match keyOf cv u s 4 with
  | (none, cv1) => ({ st := stBadArg }, cv1)
  | (some kek, cv1) =>
    match cv1.2.slot u dst with
    | none => ({ st := stBadArg }, cv1)
    | some k =>
      if k.half.isSome ∨ k.typ = 3 then ({ st := stBadArg }, cv1)
      else if !k.exportable then ({ st := stDenied }, cv1)
      else if k.typ = 2 then
        ({ st := stOk, out := wrapBlob kek.key 4 u s true 0 0 (k.key.take 24) ++ wrapBlob kek.key 4 u s true 0x01000000 0 (k.key.drop 24) }, cv1)
      else
        let typ := if k.typ = 4 then 5 else if u = 5 then 2 else 3
        ({ st := stOk, out := wrapBlob kek.key typ u s true k.fixed k.ctr k.key }, cv1)

/-- KEYGEN (R426). FIXED and the counter of a generated key are free values: the spec gives them for a loaded
key only (log 26). -/
def jobKeygen (cv : CV) (u dst typ : Nat) (exportable : Bool) : JRes × CV :=
  if typ = 0 ∨ 4 < typ then ({ st := stBadArg }, cv)
  else
    let (raw, v1) := cv.2.draw 48
    let (w0, c1) := cv.1.free
    let (w1, c2) := c1.free
    let (w2, c3) := c2.free
    let d := beNat raw % (Crypto.pN - 1) + 1
    let key := if typ = 3 then beBytes 48 d else if typ = 2 then raw else raw.take 32
    let k : KeySlot := { typ, exportable, fixed := w0.toNat, ctr := w1.toNat + 4294967296 * w2.toNat, key }
    ({ st := stOk, out := if typ = 3 then Crypto.publicKey d else [] }, (c3, v1.putSlot u dst (some k)))

/-- What one operation does with its input (R426). -/
def jobRun (cv : CV) (u : Nat) (d inp : List Byte) : JRes × CV :=
  let s := jF d 1 1 % 16
  let dst := jF d 2 1 % 16
  let aadLen := jF d 20 4
  let bad := (({ st := stBadArg } : JRes), cv)
  let ok := fun (out : List Byte) => (({ st := stOk, out } : JRes), cv)
  match jF d 0 1 with
  | 0x01 => if inp.length < aadLen then bad else jobEncrypt cv u s (inp.take aadLen) (inp.drop aadLen)
  | 0x02 =>
    if inp.length < aadLen then bad
    else match keyOf cv u s 1 with
      | (none, cv1) => ({ st := stBadArg }, cv1)
      | (some k, cv1) =>
        match Crypto.gcmDec k.key (slice d 32 12) (inp.take aadLen) (inp.drop aadLen) (slice d 48 16) with
        | (pt, true) => ({ st := stOk, out := pt }, cv1)
        | (_, false) => ({ st := stIntegrity }, cv1)
  | 0x03 => jobEncrypt cv u s inp []
  | 0x04 => ok (Crypto.sha384 inp)
  | 0x05 =>
    match keyOf cv u s 2 with
    | (none, cv1) => ({ st := stBadArg }, cv1)
    | (some k, cv1) => ({ st := stOk, out := Crypto.hmac k.key inp }, cv1)
  | 0x06 =>
    match keyOf cv u s 3 with
    | (none, cv1) => ({ st := stBadArg }, cv1)
    | (some k, (c1, v1)) =>
      let (raw, v2) := v1.draw 48
      match Crypto.sign (beNat k.key) (beNat raw % (Crypto.pN - 1) + 1) (slice inp 0 48) with
      | some sig => ({ st := stOk, out := sig }, (c1, v2))
      | none => ({ st := stIntegrity }, (c1, v2))
  | 0x07 => if Crypto.verify (slice inp 0 48) (slice inp 48 96) (slice inp 144 97) then ok [] else ({ st := stIntegrity }, cv)
  | 0x08 => jobUnwrap cv u s dst (slice inp 0 64)
  | 0x09 => jobWrap cv u s dst
  | 0x0A => jobKeygen cv u dst (jF d 8 8 % 8) (decide (128 ≤ jF d 2 1))
  | 0x0B => ({ st := stOk }, (cv.1, cv.2.putSlot u s none))
  | 0x0C =>
    if 4096 < jF d 16 4 then bad
    else
      let (out, v1) := cv.2.draw (jF d 16 4)
      ({ st := stOk, out }, (cv.1, v1))
  | 0x0D =>
    match keyOf cv u s 1 with
    | (none, cv1) => ({ st := stBadArg }, cv1)
    | (some k, (c1, v1)) =>
      if jF d 8 8 ≤ k.ctr then ({ st := stBadArg }, (c1, v1))
      else ({ st := stOk }, (c1, v1.putSlot u s (some { k with ctr := jF d 8 8 })))
  | _ => bad

/-- Operations that read an input, and how many bytes (R426). -/
def jobReads (d : List Byte) : Nat :=
  match jF d 0 1 with
  | 0x01 | 0x02 | 0x03 | 0x04 | 0x05 => jF d 16 4
  | 0x06 => 48
  | 0x07 => 241
  | 0x08 => 64
  | _ => 0

/-- The two lanes disagree (R431): the output is withheld, and a third mismatch in a second ends in ERROR. The
key state moves on, as the nonce has been used (log 26). -/
def jobMismatch (cv : CV) (k : Clk) : CV :=
  let c1 := (cv.1.count Reg.vault_DUP_CNT 1).raise 0x010 27
  let recent := (cv.2.dups.filter fun t => k.now < t + 1000000000 * rtNs) ++ [k.now]
  let v1 := { cv.2 with dups := recent }
  if 3 ≤ recent.length then vaultError (c1, v1) else (c1, v1)

/-- The descriptor with the IV and TAG a job returns. -/
def jobDescOut (d : List Byte) (r : JRes) : List Byte :=
  let d1 := match r.iv with | some iv => d.take 32 ++ iv ++ d.drop 44 | none => d
  match r.tag with | some t => d1.take 48 ++ t | none => d1

/-- The job at the front runs and ends (R424 to R426, R431). -/
def jobServe (cv : CV) (k : Clk) (u : Nat) (j : VJob) (inp : List Byte) (agree : Bool) : CV :=
  let d := slice j.desc 0 64
  let sp := jF d 4 1
  let n := jobReads d
  if 16777216 < jF d 16 4 ∨ (n ≠ 0 ∧ !cv.1.spaceOk u j (sp % 4) (jF d 8 8) n false) then jobEnd cv u j stBadArg d
  else
    match cv.1.jobFlume (sp % 4) (jF d 8 8) n with
    | (some st, c1) => jobEnd (c1, cv.2) u j st d
    | (none, c1) =>
      let (r, cv1) := jobRun (c1, cv.2) u d (if n = 0 then [] else c1.jobInput j (sp % 4) (jF d 8 8) n inp)
      if !agree then
        let (c2, v2) := jobMismatch cv1 k
        jobEnd (c2, v2) u j stIntegrity d
      else if !r.out.isEmpty && !c1.spaceOk u j (sp / 16 % 4) (jF d 24 8) r.out.length true then jobEnd (c1, cv.2) u j stBadArg d
      else jobEnd (cv1.1.jobOutput j (sp / 16 % 4) (jF d 24 8) r.out, cv1.2) u j r.st (jobDescOut d r)

/-- The Vault runs its next job if it is one of operation `op` and the Vault is READY. -/
def vaultStep (cv : CV) (k : Clk) (op : Nat) (inp : List Byte) (agree : Bool) : CV :=
  if cv.2.state ≠ 1 then cv
  else match cv.2.nextPage with
    | none => cv
    | some u =>
      match cv.2.queueOf u with
      | [] => cv
      | j :: rest =>
        if jF j.desc 0 1 ≠ op then cv
        else
          let v1 := { cv.2 with lastPage := u, jobs := mput cv.2.jobs u (if rest.isEmpty then none else some rest) }
          jobServe (cv.1, v1) k u j inp agree

/-! ## KEK_ISSUE (R429) -/

/-- S0 generates a KEK for a page its requester owns, and answers it wrapped under the device KEK. -/
def kekIssue (cv : CV) (agent u : Nat) (exportable : Bool) : CV :=
  let (c, v) := cv
  let say := fun (c : Chip) (st : Nat) (b : List Byte) => c.emit (.reply 1 0x0301 st b)
  if !c.serves 0 then cv
  else if 32 ≤ u then (say c stBadArg [], v)
  else if c.upOwner u ≠ agent then (say c stDenied [], v)
  else if v.state ≠ 1 then (say c stAborted [], v)
  else
    match v.slot 0 0 with
    | none => (say c stBadArg [], v)
    | some dk =>
      let (raw, v1) := v.draw 32
      let (w0, c1) := c.free
      let (w1, c2) := c1.free
      let (w2, c3) := c2.free
      (say c3 stOk (wrapBlob dk.key 5 0 0 exportable w0.toNat (w1.toNat + 4294967296 * w2.toNat) raw), v1)

/-- A user page's slots are zeroised and its jobs end ABORTED (R432). -/
def userPageReset (cv : CV) (u : Nat) : CV :=
  let (c, v) := abortJobs cv (· == u)
  (c, { v with slots := mclear v.slots (16 * u) (16 * (u + 1)) })

/-- The common page zeroises and reruns the self-tests (R432, R434). -/
def vaultReset (cv : CV) : CV :=
  let (c, v) := abortJobs cv (fun _ => true)
  (c, { v.zeroise with state := 0 })

end Sys2Proof.Machine
end

