-- ==== Sys2Proof/Machine/Ledger.lean ====
section
/-!
DEFINITION. Machine/Ledger.lean: the sample ring, queue sampling and histograms, the signed ledger, and the services of S4
and S5 (15_telemetry_and_ledger.md).
-/
namespace Sys2Proof.Machine

/-! ## The sample ring (R371) -/

/-- An offer is discarded. -/
def Chip.sampleDrop (c : Chip) : Chip := (c.count Reg.telemetry_SMPQ_DROP_CNT 1).raise 0x250 27

/-- SAMPLE_RING_WRITE: the oldest offer leaves the FIFO for the ring, or is discarded. Word 0 of memory 2 stands for the
oldest entry (log 23). -/
def Chip.sampleRingWrite (c : Chip) : Chip :=
  match c.tel.smpFifo with
  | [] => c
  | e :: l =>
    let c0 : Chip := { c with tel := { c.tel with smpFifo := l } }
    match c0.ecc 0x250 2 0 with
    | (.bad, c1) => (c1.rewrite 0x250 2 0).sampleDrop
    | (_, c1) =>
      let head := c1.rdF Reg.telemetry_SMPQ_HEAD 15 0
      if !c1.flReady || !c1.serves 4 || (head + 1) % 65536 == c1.rdF Reg.telemetry_SMPQ_TAIL 15 0 then c1.sampleDrop
      else
        let a := 64 * (c1.rd Reg.telemetry_SMPQ_BASE).toNat + 128 * head
        c1.edge ((c1.flStore a e).wr Reg.telemetry_SMPQ_HEAD (wd ((head + 1) % 65536))) 0x250

/-! ## Queue samples and histograms (R298, R372) -/

/-- The bin of a value. -/
def histBin (shift v : Nat) : Nat :=
  match (List.range 31).find? fun i => decide (v < 2 ^ (shift + i)) with
  | some i => i
  | none => 31

/-- A sample counts in a histogram bound to its queue. -/
def Chip.histAdd (c : Chip) (r h depth soj : Nat) : Chip :=
  let w := c.rd (Reg.trace_HIST_CFG r h)
  let a := Reg.trace_HIST_BIN r h (histBin (fld w 20 16) (if bit w 30 then soj else depth))
  let c1 := c.count a 1
  if c1.rd a = 0xFFFFFFFF ∧ c.rd a ≠ 0xFFFFFFFF then c1.raise (Reg.pg_trace r) 27 else c1

/-- A sample of queue `l` of a reach counts in the histograms bound to it. -/
def Chip.histSample (c : Chip) (r l : Nat) : Chip :=
  let depth := c.rdF (Reg.gauge_LAST_DEPTH r l) 23 0
  let soj := (c.rd (Reg.gauge_LAST_SOJ r l)).toNat
  ((List.range 16).filter fun h => c.rdB (Reg.trace_HIST_CFG r h) 31 && c.rdF (Reg.trace_HIST_CFG r h) 10 0 == l).foldl
    (fun c h => c.histAdd r h depth soj) c

/-- QUEUE_SAMPLE of a reach: every queue is sampled while SAMPLE_CTL.EN is 1. A queue that is empty, whose gauges read zero
and that no histogram names is left as it is: its sample changes nothing. -/
def Chip.queueSample (c : Chip) (k : Clk) (r : Nat) : Chip :=
  if !c.rdB (Reg.gauge_SAMPLE_CTL r) 31 then c
  else
    let named := ((List.range 16).filter fun h => c.rdB (Reg.trace_HIST_CFG r h) 31).map fun h => c.rdF (Reg.trace_HIST_CFG r h) 10 0
    let busy := c.sampled r
    let c1 := busy.foldl (fun c l => c.sampleQueue r l k.tod) c
    (((busy ++ named).eraseDups).filter (· < (if r = 0 then 1456 else 1440))).foldl (fun c l => c.histSample r l) c1

/-- A write of HIST_CFG clears the 32 bins of its histogram. -/
def Chip.histCfg (c : Chip) (r h : Nat) (v : Word) : Chip :=
  (List.range 32).foldl (fun c i => c.wr (Reg.trace_HIST_BIN r h i) 0) (c.wr (Reg.trace_HIST_CFG r h) (v &&& 0xC01F07FF))

/-! ## The ledger: blocks (R378 to R383) -/

/-- The ledger pages' numbers and record-area size. -/
abbrev ldgArea : Nat := 65440

/-- NBLK. -/
def Chip.ldgBlocks (c : Chip) : Nat := c.flGib 2 * 16384

/-- Sequence of the open block, or of the next to open. -/
def Chip.ldgOpen (c : Chip) : Nat := c.rd64 Reg.ledger_OPEN_SEQ_LO Reg.ledger_OPEN_SEQ_HI

/-- Sequence of the oldest block held. -/
def Chip.ldgOldest (c : Chip) : Nat := c.rd64 Reg.ledger_OLDEST_SEQ_LO Reg.ledger_OLDEST_SEQ_HI

/-- The ledger runs. -/
def Chip.ldgRuns (c : Chip) : Bool := c.rdB Reg.ledger_LDG_STAT 31

/-- MODE is STOP. -/
def Chip.ldgStop (c : Chip) : Bool := c.rdB Reg.ledger_LDG_CTL 24

/-- Blocks in use: those held and the open one. -/
def Chip.ldgUsed (c : Chip) : Nat := c.ldgOpen - c.ldgOldest + (if c.tel.openBlk.isSome then 1 else 0)

/-- Free blocks. -/
def Chip.ldgFree (c : Chip) : Nat := c.ldgBlocks - c.ldgUsed

/-- LDG_STAT follows the blocks in use. -/
def Chip.ldgShow (c : Chip) : Chip := c.wrF Reg.ledger_LDG_STAT 19 0 (min 1048575 c.ldgFree)

/-- Byte address of block `s`. -/
def Chip.ldgAddr (c : Chip) (s : Nat) : Nat := 64 * c.flBase 2 + 65536 * (s % max 1 c.ldgBlocks)

/-- The TAG of the last block closed. -/
def Chip.ldgLastTag (c : Chip) : List Byte := ((List.range 4).map fun i => wordBytesBE (c.rd (Reg.ledger_LAST_TAG i))).flatten

/-- TAG registers given a value. -/
def Chip.ldgTagSet (c : Chip) (t : List Byte) : Chip :=
  (List.range 4).foldl (fun c i => c.wr (Reg.ledger_LAST_TAG i) (wd (beNat (slice t (4 * i) 4)))) c

/-- The key of a KEY_ID, in Vault user page UP5. -/
def ldgKey (c : Chip) (v : Vault) (id : Nat) : Option (List Byte) :=
  match mget c.tel.keySlot id with
  | some s => (v.slot 5 s).map (·.key)
  | none => none

/-- TAG of a block under a key (R381): its first 64 bytes and its record area. -/
def ldgTag (key head area : List Byte) (id seq : Nat) : List Byte :=
  Crypto.gcmTag (Crypto.roundKeys key) (beBytes 4 id ++ beBytes 8 seq) (area ++ head) []

/-- A PAD record that fills the rest of the area, empty when nothing is left. -/
def padRecord (k : Clk) (n : Nat) : List Byte :=
  if n = 0 then [] else [15] ++ beBytes 1 k.stepSeq ++ beBytes 2 n ++ [0, 0] ++ secQBytes k.tod ++ List.replicate (n - 16) 0

/-- The first 64 bytes of the open block (R379). -/
def Chip.ldgHead (c : Chip) : List Byte :=
  beBytes 4 0x4F4C4447 ++ beBytes 2 1 ++ beBytes 2 c.tel.blkFlags ++ beBytes 8 c.ldgOpen ++ beBytes 4 (c.rd Reg.ledger_KEY_ID).toNat ++
    beBytes 4 c.tel.blkCount ++ secQBytes c.tel.blkFirst ++ secQBytes c.tel.blkLast ++ beBytes 4 ldgArea ++
    (if c.ldgOpen = 0 then List.replicate 16 0 else c.ldgLastTag)

/-- A lost interval starts now: its GAP record is owed, unless an earlier one is (R386). -/
def Chip.ldgGap (c : Chip) (k : Clk) (cause : Nat) : Chip :=
  match c.tel.gap with
  | some _ => c
  | none => { c with tel := { c.tel with gap := some (cause, k.tod) } }

/-- The open block is discarded. -/
def Chip.ldgDiscard (c : Chip) : Chip := { c with tel := { c.tel with openBlk := none, blkCount := 0, blkFlags := 0 } }

/-- The ledger stops running. -/
def Chip.ldgHalt (c : Chip) : Chip := c.wrF Reg.ledger_LDG_STAT 31 31 0

/-- The open block closes: PAD, TAG, and its place in the Flume; BLOCK_SEQ advances (R381, R382). Without its key or the
Flume it is lost, as an interval without records (log 39). -/
def Chip.ldgClose (c : Chip) (v : Vault) (k : Clk) : Chip :=
  match c.tel.openBlk with
  | none => c
  | some recs =>
    match ldgKey c v c.tel.curKey with
    | none => (c.ldgDiscard.ldgGap k 2).ldgHalt.ldgShow
    | some key =>
      if !c.flReady then (c.ldgDiscard.ldgGap k 2).ldgShow
      else
        let seq := c.ldgOpen
        let area := recs ++ padRecord k (ldgArea - recs.length)
        let head := c.ldgHead
        let tag := ldgTag key head area c.tel.curKey seq
        let c1 := (c.flStore (c.ldgAddr seq) (head ++ area ++ tag ++ List.replicate 16 0)).ldgTagSet tag
        (c1.ldgDiscard.wr64 Reg.ledger_OPEN_SEQ_LO Reg.ledger_OPEN_SEQ_HI (seq + 1)).ldgShow

/-- The ledger has no block left: it stops (R383). -/
def Chip.ldgFull (c : Chip) : Chip :=
  let c1 := ((c.wrF Reg.ledger_LDG_STAT 30 30 1).ldgHalt).raise 0x251 27
  if c1.serves 5 then c1.emit (.notice 11 0x0101 (beBytes 8 c1.ldgOldest ++ beBytes 8 c1.ldgOpen)) else c1

/-- A block opens for the next record, under the newest key; `none` when none is free in STOP mode (R383, R384). -/
def Chip.ldgOpenBlock (c : Chip) (first : Nat) : Option Chip :=
  let seq := c.ldgOpen
  if c.ldgBlocks ≤ seq - c.ldgOldest && c.ldgStop then none
  else
    let c1 := if c.ldgBlocks ≤ seq - c.ldgOldest then
        c.wr64 Reg.ledger_OLDEST_SEQ_LO Reg.ledger_OLDEST_SEQ_HI (seq + 1 - c.ldgBlocks) else c
    let newKey := c1.tel.curKey != c1.tel.lastKey
    let c2 := { c1 with tel := { c1.tel with
      openBlk := some [], blkFirst := first, blkCount := 0, blkFlags := if newKey then 2 else 0, curKey := c1.tel.lastKey } }
    some ((c2.wr Reg.ledger_KEY_ID (wd c2.tel.curKey)).ldgShow)

/-- A record of a kind, with its header (R380); `t` is its time. -/
def ldgRecord (k : Clk) (kind aux t : Nat) (body : List Byte) : List Byte :=
  let n := (body.length + 15) / 16 * 16
  beBytes 1 kind ++ beBytes 1 k.stepSeq ++ beBytes 2 (16 + n) ++ beBytes 2 aux ++ secQBytes t ++ slice body 0 n

/-- A record enters the open block; `t` is its time, `flag` a bit of BFLAGS it sets. `false` when no block takes it. -/
def Chip.ldgPut (c : Chip) (v : Vault) (k : Clk) (rec_ : List Byte) (t flag : Nat) : Bool × Chip :=
  let c0 := match c.tel.openBlk with
    | some recs => if ldgArea < recs.length + rec_.length then c.ldgClose v k else c
    | none => c
  match (if c0.tel.openBlk.isSome then some c0 else if c0.ldgRuns then c0.ldgOpenBlock t else none) with
  | none => (false, if c0.ldgRuns then c0.ldgFull else c0)
  | some c1 =>
    let gapFirst := if c1.tel.openBlk = some [] ∧ (rec_.head? = some 4) then 4 else 0
    let c2 : Chip := { c1 with tel := { c1.tel with
      openBlk := c1.tel.openBlk.map (· ++ rec_), blkLast := t, blkCount := c1.tel.blkCount + 1,
      blkFlags := c1.tel.blkFlags ||| flag ||| gapFirst } }
    (true, c2.count64 Reg.ledger_LDG_REC_CNT_LO Reg.ledger_LDG_REC_CNT_HI 1)

/-- The open-block state is read: an uncorrectable error ends the block as a soft reset of the page does (R393). -/
def Chip.ldgCheck (c : Chip) (k : Clk) : Chip :=
  match c.ecc 0x251 0 0 with
  | (.bad, c1) => ((c1.rewrite 0x251 0 0).ldgDiscard.ldgGap k 3).ldgShow
  | (_, c1) => c1

/-- A GAP record that is owed goes first (R386). -/
def Chip.ldgPayGap (c : Chip) (v : Vault) (k : Clk) : Chip :=
  match c.tel.gap with
  | none => c
  | some (cause, t0) =>
    let iv := secQBytes t0 ++ secQBytes k.tod
    match c.ldgPut v k (ldgRecord k 4 cause k.tod iv) k.tod 0 with
    | (false, c1) => c1
    | (true, c1) =>
      let c2 := ({ c1 with tel := { c1.tel with gap := none } }).raise 0x251 25
      if c2.serves 5 then c2.emit (.notice 11 0x0102 (beBytes 1 cause ++ iv)) else c2

/-- The ledger takes records: it runs, S5 runs, the Flume and the page serve. -/
def Chip.ldgTakes (c : Chip) : Bool := c.ldgRuns && c.serves 5 && c.flReady && !c.faulted 0x251 && !c.inReset 0x251

/-- A record of S5 is written (R382, R383). -/
def Chip.s5Write (c : Chip) (v : Vault) (k : Clk) (kind aux t : Nat) (body : List Byte) (flag : Nat) : Bool × Chip :=
  let c1 := (c.ldgCheck k).ldgPayGap v k
  if c1.ldgTakes then c1.ldgPut v k (ldgRecord k kind aux t body) t flag else (false, c1)

/-- CAPTURE_RECORD_WRITE: the oldest capture record enters the ledger, or is lost (R377, R380, R383). Word 0 of memory 1 of
the telemetry page stands for the oldest entry (log 23). -/
def Chip.captureWrite (c : Chip) (v : Vault) (k : Clk) : Chip :=
  match c.tel.capFifo with
  | [] => c
  | x :: l =>
    if !c.ldgTakes then c
    else
      let c0 : Chip := { c with tel := { c.tel with capFifo := l } }
      match c0.ecc 0x250 1 0 with
      | (.bad, c1) => (c1.rewrite 0x250 1 0).captureLost
      | (_, c1) =>
        let c2 := (c1.ldgCheck k).ldgPayGap v k
        if c2.ldgStop && decide (c2.ldgFree ≤ c2.rdF Reg.ledger_LDG_CTL 23 16) then c2.captureLost
        else
          let rec_ := slice x 0 1 ++ beBytes 1 k.stepSeq ++ slice x 2 4 ++ secQBytes k.tod ++ x.drop 16
          match c2.ldgPut v k rec_ k.tod 0 with
          | (true, c3) => c3
          | (false, c3) => c3.captureLost

/-! ## Time traceability (R385, R386) -/

/-- The body of a TIME_TRACE record. S1's fields are its protocol's, free values here; zero, with the age of none, while it
is not configured (log 38). -/
def State.traceBody (s : State) : List Byte × Chip :=
  let c := s.chip
  let k := s.clk
  let s1 := c.serves 1 && !k.ptpClock.isEmpty
  let (p, c1) := if s1 then c.freeBytes 6 else (List.replicate 24 0, c)
  let (q, c2) := if s1 then c1.freeBytes 5 else (List.replicate 16 0 ++ [0xFF, 0xFF, 0xFF, 0xFF], c1)
  let flags := c.tel.votes.toNat + c.tel.copyErr.toNat * 2 + (c.faulted pgTime).toNat * 4
  let off := beBytes 2 (c.rd Reg.time_LAST_OFFSET_HI).toNat ++ wordBytesBE (c.rd Reg.time_LAST_OFFSET_LO)
  (beBytes 1 k.servo ++ beBytes 1 k.stepSeq ++ beBytes 1 (c.rdF Reg.time_TIME_CLK_STAT 2 0) ++ beBytes 1 flags ++
    wordBytesBE (intW k.freq) ++ wordBytesBE (intW k.integ) ++ off ++ beBytes 2 (min 65535 c.tel.accepted) ++ slice p 0 22 ++
    List.replicate 6 0 ++ q ++ (if c.tel.lastPps = 0 then List.replicate 10 0 else secQBytes c.tel.lastPps) ++ List.replicate 18 0, c2)

/-- A LOSS record when LOSS_ACC has advanced since the last TICK (R386). -/
def Chip.lossRecord (c : Chip) (v : Vault) (k : Clk) : Chip :=
  let lost := (c.rd Reg.ledger_LOSS_ACC).toNat
  if lost = c.tel.lossSeen then c
  else
    let sec := todSec k.tod * secU
    let body := secQBytes (sec - secU) ++ secQBytes sec ++ beBytes 4 ((lost + 4294967296 - c.tel.lossSeen) % 4294967296)
    let c1 := (c.s5Write v k 5 0 k.tod body 0).2
    { c1 with tel := { c1.tel with lossSeen := lost } }

/-- TIME_TRACE_WRITE: the record of the second that has just begun. -/
def State.timeTrace (s : State) : State :=
  if !s.chip.ldgTakes then s
  else
    let (body, c0) := s.traceBody
    let c1 := (c0.s5Write s.vault s.clk 2 0 (todSec s.clk.tod * secU) body 0).2
    let c2 : Chip := { c1 with tel := { c1.tel with votes := false, copyErr := false, accepted := 0 } }
    { s with chip := c2.lossRecord s.vault s.clk }

/-- STEP_RECORD_WRITE: the oldest step that is owed a record. -/
def State.stepRecord (s : State) : State :=
  match s.chip.tel.steps with
  | [] => s
  | (t0, t1, agent) :: l =>
    if !s.chip.ldgTakes then s
    else
      let part (t : Nat) : List Byte := beBytes 4 (todSec t % 4294967296) ++ beBytes 4 (todSec t / 4294967296) ++ beBytes 4 (todNs t)
      let c := (s.chip.s5Write s.vault s.clk 3 agent t1 (part t0 ++ part t1) 1).2
      { s with chip := { c with tel := { c.tel with steps := l } } }

/-! ## The S5 service (R383, R384, R387, R388) -/

/-- S5 answers. -/
def Chip.s5Reply (c : Chip) (op st : Nat) (body : List Byte) : Chip := c.emit (.reply 11 op st body)

/-- LEDGER_CFG. -/
def Chip.ledgerCfg (c : Chip) (stop : Bool) (age reserve : Nat) : Chip :=
  if !c.serves 5 then c
  else if c.ldgRuns then c.s5Reply 0x0001 stBusy []
  else if age < 1 ∨ 10000 < age ∨ reserve < 1 ∨ 255 < reserve then c.s5Reply 0x0001 stBadArg []
  else
    let w := c.rd Reg.ledger_LDG_CTL
    (c.wr Reg.ledger_LDG_CTL (setFld (setFld (setFld w 24 24 stop.toNat) 23 16 reserve) 15 0 age)).s5Reply 0x0001 stOk []

/-- The lowest empty slot of Vault page UP5. -/
def Vault.freeSlot5 (v : Vault) : Option Nat := (List.range 16).find? fun s => (v.slot 5 s).isNone

/-- Slots of ledger keys older than the present one are emptied (log 39). -/
def oldKeysGone (c : Chip) (v : Vault) : CV :=
  let old := c.tel.keySlot.filter fun x => x.1 < c.tel.curKey
  ({ c with tel := { c.tel with keySlot := c.tel.keySlot.filter fun x => c.tel.curKey ≤ x.1 } },
   old.foldl (fun v x => v.putSlot 5 x.2 none) v)

/-- KEY_LOAD: a wrapped ledger key takes the next KEY_ID; while the ledger runs, the old key's last block ends with a
KEY_ROLL record. -/
def keyLoad (cv0 : CV) (k : Clk) (blob : List Byte) : CV :=
  if !cv0.1.serves 5 then cv0
  else
    let (c, v) := oldKeysGone cv0.1 cv0.2
    let fail (c : Chip) (st : Nat) : CV := (c.s5Reply 0x0002 st [], v)
    if v.state ≠ 1 then fail c stAborted
    else if jF blob 0 1 ≠ 2 then fail c stIntegrity
    else match v.freeSlot5 with
      | none => fail c stFull
      | some dst =>
        match jobUnwrap (c, v) 5 (jF blob 2 1) dst (slice blob 0 64) with
        | (r, (c1, v1)) =>
          if r.st ≠ stOk then (c1.s5Reply 0x0002 r.st [], v1)
          else
            let id := c1.tel.lastKey + 1
            let roll := c1.ldgRuns && c1.tel.curKey != 0
            let (_, c2) := if roll then c1.s5Write v1 k 6 0 k.tod (beBytes 4 id) 0 else (true, c1)
            let c3 := if roll then (c2.ldgClose v1 k).raise 0x251 26 else c2
            let c4 : Chip := { c3 with tel := { c3.tel with lastKey := id, keySlot := mput c3.tel.keySlot id (some dst) } }
            (c4.s5Reply 0x0002 stOk (beBytes 4 id), v1)

/-- A block of the ring whose bytes have been written and whose tag verifies: its sequence and its tag (R384). -/
def Chip.ldgVerify (c : Chip) (v : Vault) (i : Nat) : Option (Nat × List Byte) :=
  let a := c.ldgAddr i
  let b := c.flBytes a 65520
  let head := b.take 64
  let id := beNat (slice head 16 4)
  let seq := beNat (slice head 8 8)
  match mget c.flm.mem a, ldgKey c v id with
  | some _, some key =>
    if beNat (slice head 0 4) = 0x4F4C4447 ∧ seq % max 1 c.ldgBlocks = i ∧ ldgTag key head (slice b 64 ldgArea) id seq = b.drop 65504 then
      some (seq, b.drop 65504)
    else none
  | _, _ => none

/-- Places of the ring whose first byte has been written. -/
def Chip.ldgWritten (c : Chip) : List Nat :=
  let base := 64 * c.flBase 2
  (c.flm.mem.filter fun kb => base ≤ kb.1 && kb.1 < base + 65536 * c.ldgBlocks && (kb.1 - base) % 65536 == 0).map
    fun kb => (kb.1 - base) / 65536

/-- The newest block whose tag verifies. -/
def Chip.ldgNewest (c : Chip) (v : Vault) : Option (Nat × List Byte) :=
  (c.ldgWritten.filterMap (c.ldgVerify v)).foldl (fun o x =>
    match o with
    | none => some x
    | some y => if y.1 < x.1 then some x else some y) none

/-- START: the chain continues from the newest block whose tag verifies, or starts at sequence 0 with a GAP owed. -/
def Chip.ledgerStart (c : Chip) (v : Vault) (k : Clk) : Chip :=
  if !c.serves 5 then c
  else if c.tel.lastKey = 0 ∨ (ldgKey c v c.tel.lastKey).isNone then c.s5Reply 0x0003 stDenied []
  else if c.ldgRuns then c.s5Reply 0x0003 stBusy []
  else
    let c1 := (c.wrF Reg.ledger_LDG_CTL 31 31 1).wrF Reg.ledger_LDG_STAT 31 30 2
    let c2 := match c1.ldgNewest v with
      | some (seq, tag) =>
        let held := max c1.ldgOldest (seq + 1 - c1.ldgBlocks)
        ((c1.wr64 Reg.ledger_OPEN_SEQ_LO Reg.ledger_OPEN_SEQ_HI (seq + 1)).wr64 Reg.ledger_OLDEST_SEQ_LO Reg.ledger_OLDEST_SEQ_HI
          (min held (seq + 1))).ldgTagSet tag
      | none =>
        ((c1.wr64 Reg.ledger_OPEN_SEQ_LO Reg.ledger_OPEN_SEQ_HI 0).wr64 Reg.ledger_OLDEST_SEQ_LO Reg.ledger_OLDEST_SEQ_HI 0).ldgGap k 4
    (c2.ldgShow).s5Reply 0x0003 stOk []

/-- The ledger stops: the open block closes (R382, R387). -/
def Chip.ldgStopNow (c : Chip) (v : Vault) (k : Clk) : Chip := (((c.ldgClose v k).ldgHalt).wrF Reg.ledger_LDG_CTL 31 31 0).ldgShow

/-- STOP. -/
def Chip.ledgerStop (c : Chip) (v : Vault) (k : Clk) : Chip :=
  if !c.serves 5 then c else (c.ldgStopNow v k).s5Reply 0x0004 stOk []

/-- A write of LDG_CTL: `false` when its agent is not S5 (R391). Clearing EN stops the ledger. -/
def Chip.ldgCtl (c : Chip) (v : Vault) (k : Clk) (agent : Nat) (w : Word) : Bool × Chip :=
  if agent ≠ 22 then (false, c)
  else
    let c1 := if c.ldgRuns && !bit w 31 then c.ldgStopNow v k else c
    (true, c1.wr Reg.ledger_LDG_CTL (w &&& 0x81FFFFFF))

/-- The seal of an extract (R388). A device that holds no attestation key has no signature the spec states: those bytes are
free (log 39). -/
def ldgSeal (cv : CV) (k : Clk) (first last : Nat) (tag data : List Byte) : List Byte × CV :=
  let body := beBytes 4 0x4F53454C ++ beBytes 2 1 ++ [0, 0] ++ beBytes 8 first ++ beBytes 8 last ++ tag ++ Crypto.sha384 data ++
    secQBytes k.tod ++ List.replicate 62 0
  match cv.2.slot 0 1 with
  | some s =>
    let (raw, v1) := cv.2.draw 48
    match Crypto.sign (beNat s.key) (beNat raw % (Crypto.pN - 1) + 1) (Crypto.sha384 body) with
    | some sig => (body ++ sig, (cv.1, v1))
    | none => let (bs, c1) := cv.1.freeBytes 24; (body ++ bs, (c1, v1))
  | none => let (bs, c1) := cv.1.freeBytes 24; (body ++ bs, (c1, cv.2))

/-- Blocks read in order from `seq`: their bytes, and the first that fails, if one does. -/
def Chip.ldgReadBlocks (c : Chip) (seq : Nat) : Nat → List Byte → List Byte × Option Nat × Chip
  | 0, acc => (acc, none, c)
  | n + 1, acc =>
    match c.flUnits 2 (c.ldgAddr seq / 64) 1024 with
    | (true, c1) => (acc, some seq, (c1.count Reg.ledger_LDG_INTEG_CNT 1).raise 0x251 24)
    | (false, c1) => c1.ldgReadBlocks (seq + 1) n (acc ++ c1.flBytes (c1.ldgAddr seq) 65536)

/-- EXTRACT. -/
def extract (cv : CV) (k : Clk) (first count addr len : Nat) : CV :=
  let (c, v) := cv
  let say (st : Nat) : CV := (c.s5Reply 0x0005 st [], v)
  if !c.serves 5 then cv
  else if count < 1 ∨ 65536 < count ∨ addr % 64 ≠ 0 ∨ len < count * 65536 + 256 then say stBadArg
  else if first < c.ldgOldest then say stNotFound
  else if c.ldgOpen < first + count then say stBusy
  else if !c.flReady then say stAborted
  else
    let (data, bad, c1) := c.ldgReadBlocks first count []
    let st := if bad.isSome then stIntegrity else stOk
    let body := match bad with | some s => beBytes 8 s | none => []
    if data.isEmpty then (c1.s5Reply 0x0005 st body, v)
    else
      let last := first + data.length / 65536 - 1
      let (sl, (c2, v2)) := ldgSeal (c1, v) k first last (slice (data.drop (data.length - 65536)) 65504 16) data
      ((c2.emit (.host addr (data ++ sl))).s5Reply 0x0005 st body, v2)

/-- RELEASE. -/
def Chip.ledgerRelease (c : Chip) (seq : Nat) : Chip :=
  if !c.serves 5 then c
  else if !c.ldgStop ∨ c.ldgOpen ≤ seq then c.s5Reply 0x0006 stBadArg []
  else
    let c1 := (c.wr64 Reg.ledger_OLDEST_SEQ_LO Reg.ledger_OLDEST_SEQ_HI (max c.ldgOldest (seq + 1))).ldgShow
    (if c1.ldgFree = 0 then c1 else c1.wrF Reg.ledger_LDG_STAT 30 30 0).s5Reply 0x0006 stOk []

/-- NOTE. -/
def Chip.ledgerNote (c : Chip) (v : Vault) (k : Clk) (bs : List Byte) : Chip :=
  if !c.serves 5 then c
  else if bs.length < 1 ∨ 64 < bs.length then c.s5Reply 0x0007 stBadArg []
  else
    match c.s5Write v k 7 0 k.tod bs 0 with
    | (true, c1) => c1.s5Reply 0x0007 stOk []
    | (false, c1) => c1.s5Reply 0x0007 stDenied []

/-- What a soft reset of the ledger page leaves once its registers are reset (R393). -/
def Chip.ldgReset (c : Chip) (k : Clk) : Chip := (c.ldgDiscard.ldgGap k 3).ldgShow

/-- What a soft reset of the telemetry page leaves: the entries of its FIFOs are counted as lost (R393). -/
def Chip.telReset (c : Chip) : Chip :=
  let n := c.tel.smpFifo.length
  let m := c.tel.capFifo.length
  let c1 : Chip := { c with tel := { c.tel with smpFifo := [], capFifo := [], buckets := [] } }
  ((c1.count Reg.telemetry_SMPQ_DROP_CNT n).count Reg.telemetry_CAP_LOSS_CNT m).wr Reg.ledger_LOSS_ACC
    (c1.rd Reg.ledger_LOSS_ACC + wd m)

/-! ## The S4 service (R374, R375) -/

/-- S4 answers. -/
def Chip.s4Reply (c : Chip) (op st : Nat) (body : List Byte) : Chip := c.emit (.reply 9 op st body)

/-- COLLECTOR_CFG: `body` is the setting, in the order of R375. -/
def Chip.collectorCfg (c : Chip) (i lp mtu : Nat) (body : List Byte) : Chip :=
  if !c.serves 4 then c
  else if 7 < i ∨ 1152 < lp ∨ mtu < 576 ∨ 9000 < mtu then c.s4Reply 0x0001 stBadArg []
  else ({ c with tel := { c.tel with collectors := mput c.tel.collectors i (some body) } }).s4Reply 0x0001 stOk []

/-- Information elements a template may name (R374). -/
def ipfixElements : List Nat := [1, 2, 4, 5, 7, 8, 10, 11, 12, 14, 27, 28, 89, 156, 157, 325]

/-- TEMPLATE_CFG. -/
def Chip.templateCfg (c : Chip) (id : Nat) (els : List Nat) (flow : Bool) (idle active refresh : Nat) : Chip :=
  if !c.serves 4 then c
  else if id < 256 ∨ 65535 < id ∨ els.any fun e => !ipfixElements.contains e then c.s4Reply 0x0002 stBadArg []
  else
    let body := (els.map (beBytes 2)).flatten ++ beBytes 1 flow.toNat ++ beBytes 4 idle ++ beBytes 4 active ++ beBytes 4 refresh
    ({ c with tel := { c.tel with templates := mput c.tel.templates id (some body) } }).s4Reply 0x0002 stOk []

/-- SAMPLER_BIND: the sampler is bound and enabled with its N. -/
def Chip.samplerBind (c : Chip) (s id mask domain : Nat) : Chip :=
  if !c.serves 4 then c
  else if 31 < s then c.s4Reply 0x0003 stBadArg []
  else if (mget c.tel.templates id).isNone then c.s4Reply 0x0003 stNotFound []
  else
    let body := beBytes 2 id ++ beBytes 1 mask ++ beBytes 4 domain
    (({ c with tel := { c.tel with binds := mput c.tel.binds s (some body) } }).wrF (Reg.telemetry_SMP_CFG s) 31 31 1).s4Reply 0x0003 stOk []

/-- STATS: what S4 has exported is its own count, a free value (log 38). -/
def Chip.samplerStats (c : Chip) (s : Nat) : Chip :=
  if !c.serves 4 then c
  else if 31 < s then c.s4Reply 0x0004 stBadArg []
  else
    let (bs, c1) := c.freeBytes 3
    c1.s4Reply 0x0004 stOk bs

end Sys2Proof.Machine
end

