-- ==== Sys2Proof/Machine/Life.lean ====
section
/-!
DEFINITION. Machine/Life.lean: the lifecycle, device keys, tokens, debug sessions, the debug matrix and freeze
(21_security_lifecycle_debug.md R498 to R516).
-/
namespace Sys2Proof.Machine

/-! ## Lifecycle states (R498, R499) -/

/-- The state two of the three copies of the fuse word agree on. -/
def Otp.fuse (o : Otp) : Option Nat :=
  if o.st0 = o.st1 ∨ o.st0 = o.st2 then some o.st0 else if o.st1 = o.st2 then some o.st1 else none

/-- LC_STAT.STATE: 0 BLANK, 1 PROVISIONED, 2 DEPLOYED, 3 DEBUG_OPEN, 4 RMA, 5 DISABLED. -/
def Aux.lifecycle (a : Aux) : Nat :=
  match a.otp.fuse with
  | none => 5
  | some n => if n = 2 ∧ a.session.isSome then 3 else n

/-- All three copies burned. -/
def Aux.burn (a : Aux) (st : Nat) : Aux := { a with otp := { a.otp with st0 := st, st1 := st, st2 := st } }

/-- Whole seconds left on the session timer (R504). -/
def State.sessionLeft (s : State) : Nat :=
  match s.aux.session with
  | none => 0
  | some x => x.length - (s.clk.now - x.at_) / (1000000000 * rtNs)

/-- LC_STAT (R515). -/
def Aux.lcStat (a : Aux) : Word :=
  wd (a.lifecycle * 0x10000000 + (match a.session with | some x => x.mask | none => 0) * 0x10000 + a.fails * 256)

/-! ## The debug matrix (R508, R509) -/

/-- Facility `i`, 0 to 3, is open: boundary scan, freeze read-out, control-store read, Vault page read. -/
def State.facility (s : State) (i : Nat) : Bool :=
  if s.aux.pstate = 2 then false
  else match s.aux.lifecycle with
    | 0 | 1 | 4 => true
    | 3 => (match s.aux.session with | some x => x.mask / 2 ^ i % 2 == 1 | none => false)
    | _ => false

/-- Pages that stay open to the debug access port in STANDBY. -/
def auxPage (pg : Nat) : Bool := pg == 0x001 || pg == 0x003 || pg == 0x004 || pg == 0x007

/-- The debug access port may access a page. -/
def State.dapMay (s : State) (pg : Nat) (write : Bool) : Bool :=
  let pages := if s.aux.pstate = 2 then auxPage pg else true
  match s.aux.lifecycle with
  | 0 | 1 | 4 => pages
  | 3 => pages && (match s.aux.session with | some x => x.mask / 16 % 2 == 1 | none => false)
  | 5 => pg == 0x004 && !write
  | _ => false

/-- Freeze read-out shows key material. -/
def Aux.keysReadable (a : Aux) : Bool := a.lifecycle == 0 || a.lifecycle == 4

/-- PCIe offers only the CHIP and LIFE pages (R506): DISABLED, or both firmware slots failed. -/
def Aux.lifeOnly (a : Aux) : Bool :=
  a.lifecycle == 5 || (a.bootSlot != 2 && a.fail0 != 0 && a.fail1 != 0)

/-! ## Device keys (R502) -/

/-- One block of the KDF in counter mode of NIST SP 800-108, with an empty context (log 42). -/
def kdfBlock (secret label : List Byte) (bits i : Nat) : List Byte :=
  Crypto.hmac secret (beBytes 4 i ++ label ++ [0] ++ beBytes 4 bits)

/-- The device KEK, label "KEK". -/
def deviceKek (secret : List Byte) : List Byte := (kdfBlock secret [0x4B, 0x45, 0x4B] 256 1).take 32

/-- The attestation private key, label "ATT", by extra random bits (FIPS 186-5). -/
def attestKey (secret : List Byte) : Nat :=
  let l : List Byte := [0x41, 0x54, 0x54]
  beNat ((kdfBlock secret l 448 1 ++ kdfBlock secret l 448 2).take 56) % (Crypto.pN - 1) + 1

/-- UP0 slots 0 and 1 filled, if a device secret is burned. -/
def Vault.derive (v : Vault) (secret : List Byte) : Vault :=
  if secret.isEmpty then v
  else
    let k : KeySlot := { typ := 4, exportable := false, fixed := 0, ctr := 0, key := deviceKek secret }
    (v.putSlot 0 0 (some k)).putSlot 0 1 (some { k with typ := 3, key := beBytes 48 (attestKey secret) })

/-- Bytes of ATT_PUB: the attestation public key and three zero bytes (R515). -/
def Otp.attPub (o : Otp) : List Byte :=
  if o.secret.isEmpty then List.replicate 100 0 else Crypto.publicKey (attestKey o.secret) ++ [0, 0, 0]

/-! ## Tokens (R503) -/

/-- DEVICE_ID as its 16 bytes. -/
def deviceIdBytes : List Byte := ((List.range 4).map fun n => wordBytesBE (Config.deviceId n)).flatten

/-- Whether every byte of a list is zero. -/
def allZero (l : List Byte) : Bool := l.all (· == 0)

/-- The checks of a token for an OP, in order: the status of the first that fails, OK otherwise. -/
def State.tokenCheck (s : State) (op : Nat) (keyHash : List Byte) : Nat :=
  let t := readBytes s.aux.tokenBuf 0 272
  let unlock := op == 4
  let dur := beNat (slice t 8 4)
  let mask := beNat (slice t 5 1)
  let form := beNat (slice t 0 4) == 0x4F444254 && beNat (slice t 4 1) == op && allZero (slice t 6 2) &&
    allZero (slice t 12 4) && allZero (slice t 161 15) && slice t 16 16 == deviceIdBytes &&
    (if unlock then decide (mask < 32) && decide (1 ≤ dur) && decide (dur ≤ 28800) else mask == 0 && dur == 0)
  let chal := ((List.range 8).map fun n => wordBytesBE (s.chip.rd (Reg.life_DBG_CHAL n))).flatten
  if !form then stBadArg
  else if !s.aux.chalCurrent || slice t 32 32 != chal then stIntegrity
  else if Crypto.sha384 (slice t 64 97) != keyHash then stIntegrity
  else if !Crypto.verify (Crypto.sha384 (slice t 0 176)) (slice t 176 96) (slice t 64 97) then stIntegrity
  else stOk

/-! ## Sessions (R499, R500) -/

/-- A customer sluice whose control store was written in the session is stopped, and its stores zeroed. -/
def Chip.sessionSluice (c : Chip) (r : Nat) : Chip :=
  if !(c.slu.s[r]?.getD {}).dbgWritten then c
  else
    let c1 := if c.sluState r = 3 then c.wrF (Reg.sluice_SL_STAT r) 19 16 1 else c
    { c1 with slu := { c1.slu with s := modAt c1.slu.s r fun u =>
      { u with cs := [], ds := [], threads := [{}, {}, {}, {}], reqs := [], halting := false, dbgWritten := false } } }

/-- A DEBUG_OPEN session ends: the device is DEPLOYED again. -/
def State.endSession (s : State) : State :=
  match s.aux.session with
  | none => s
  | some _ =>
    let c := [8, 9, 10, 11, 12, 13, 14, 15].foldl Chip.sessionSluice s.chip
    { s with aux := { s.aux with session := none }, chip := c.raiseM 0x004 0x0C000000 }

/-! ## LC_CMD (R500 to R504, R507) -/

/-- What a command of LC_CMD gives: its status, and the device. -/
abbrev LcRes := Nat × State

/-- Zeroisation and the destruction of the device secret, then the state burn (R500). -/
def State.retire (s : State) (st : Nat) : State :=
  let (c, v) := zeroizeAll (s.chip, s.vault) true
  let a := { s.aux with otp := { s.aux.otp with secret := List.replicate 32 0xFF }, session := none }
  { s with chip := c, vault := v, aux := a.burn st }

/-- A token command consumes the challenge, whether it succeeds or fails. -/
def State.withToken (s : State) (op : Nat) (keyHash : List Byte) (ok : State → State) : LcRes :=
  let st := s.tokenCheck op keyHash
  let s1 := { s with aux := { s.aux with chalCurrent := false } }
  if st = stOk then (stOk, ok s1) else (st, s1)

/-- PROVISION (R502). -/
def State.lcProvision (s : State) : LcRes :=
  if s.aux.lifecycle ≠ 0 then (stDenied, s)
  else
    let b := readBytes s.aux.tokenBuf 0 256
    let n := beNat (slice b 0 4)
    if 4 < n ∨ !allZero (slice b 4 12) ∨ !allZero (b.drop (64 + 48 * n)) then (stBadArg, s)
    else
      let (secret, v) := s.vault.entropy 32
      let keys := (List.range 4).map fun k => if k < n then some (slice b (64 + 48 * k) 48, false) else none
      let a := { s.aux with otp := { s.aux.otp with secret, dbgHash := slice b 16 48, custKeys := keys } }
      (stOk, { s with aux := a.burn 1, vault := v.derive secret, chip := s.chip.raise 0x004 27 })

/-- DEPLOY. -/
def State.lcDeploy (s : State) : LcRes :=
  if s.aux.lifecycle ≠ 1 then (stDenied, s)
  else (stOk, { s with aux := s.aux.burn 2, chip := s.chip.raise 0x004 27 })

/-- CHALLENGE (R503). -/
def State.lcChallenge (s : State) : LcRes :=
  let (bs, v) := s.vault.entropy 32
  let c := (List.range 8).foldl (fun c n => c.wr (Reg.life_DBG_CHAL n) (wd (beNat (slice bs (4 * n) 4)))) s.chip
  (stOk, { s with chip := c, vault := v, aux := { s.aux with chalCurrent := true } })

/-- UNLOCK (R500, R503, R504). -/
def State.lcUnlock (s : State) : LcRes :=
  if s.aux.lifecycle ≠ 2 ∨ 8 ≤ s.aux.fails then (stDenied, s)
  else
    let t := readBytes s.aux.tokenBuf 0 272
    let x : Session := { mask := beNat (slice t 5 1), length := beNat (slice t 8 4), at_ := s.clk.now }
    let (st, s1) := s.withToken 4 s.aux.otp.dbgHash fun s1 => { s1 with aux := { s1.aux with session := some x } }
    if st = stIntegrity then (st, { s1 with aux := { s1.aux with fails := s1.aux.fails + 1 } }) else (st, s1)

/-- RELOCK. -/
def State.lcRelock (s : State) : LcRes := if s.aux.lifecycle ≠ 3 then (stDenied, s) else (stOk, s.endSession)

/-- RMA. -/
def State.lcRma (s : State) : LcRes :=
  if !(([1, 2, 3] : List Nat).contains s.aux.lifecycle) then (stDenied, s)
  else s.withToken 6 Config.rmaKeyHash fun s1 => s1.retire 4

/-- DISABLE: with a token from PROVISIONED, DEPLOYED and DEBUG_OPEN, without one from BLANK and RMA. -/
def State.lcDisable (s : State) : LcRes :=
  match s.aux.lifecycle with
  | 0 | 4 => (stOk, s.retire 5)
  | 1 | 2 | 3 => s.withToken 7 s.aux.otp.dbgHash fun s1 => s1.retire 5
  | _ => (stDenied, s)

/-- ADD_KEY (R507). -/
def State.lcAddKey (s : State) : LcRes :=
  if !(([1, 2] : List Nat).contains s.aux.lifecycle) then (stDenied, s)
  else match s.aux.otp.custKeys.findIdx? Option.isNone with
    | none => (stFull, s)
    | some i => (stOk, { s with aux := { s.aux with otp := { s.aux.otp with
        custKeys := upd s.aux.otp.custKeys i (some (readBytes s.aux.tokenBuf 0 48, false)) } } })

/-- REVOKE_KEY (R507). -/
def State.lcRevokeKey (s : State) (arg : Nat) : LcRes :=
  if !(([1, 2] : List Nat).contains s.aux.lifecycle) then (stDenied, s)
  else match (s.aux.otp.custKeys[arg % 4]?).join with
    | none => (stNotFound, s)
    | some (h, _) => (stOk, { s with aux := { s.aux with otp := { s.aux.otp with
        custKeys := upd s.aux.otp.custKeys (arg % 4) (some (h, true)) } } })

/-- SVN of the image that runs on the sluices an index covers (R507). -/
def Chip.runningSvn (c : Chip) (i : Nat) : Nat := c.rdF (Reg.sluice_IMG_SVN (if i = 0 then 0 else 7 + i)) 15 0

/-- SVN_ADVANCE (R507). -/
def State.lcSvnAdvance (s : State) (arg : Nat) : LcRes :=
  if !(([1, 2, 3] : List Nat).contains s.aux.lifecycle) then (stDenied, s)
  else
    let i := arg / 65536
    let v := arg % 65536
    match s.aux.otp.svn[i]? with
    | none => (stBadArg, s)
    | some (fl, left) =>
      if v ≤ fl ∨ s.chip.runningSvn i < v then (stBadArg, s)
      else if left = 0 then (stFull, s)
      else (stOk, { s with aux := { s.aux with otp := { s.aux.otp with svn := upd s.aux.otp.svn i (v, left - 1) } } })

/-- The command of an OP. A reserved OP is answered BAD_ARG (log 42). -/
def State.lcRun (s : State) (op arg : Nat) : LcRes :=
  match op with
  | 1 => s.lcProvision
  | 2 => s.lcDeploy
  | 3 => s.lcChallenge
  | 4 => s.lcUnlock
  | 5 => s.lcRelock
  | 6 => s.lcRma
  | 7 => s.lcDisable
  | 8 => s.lcAddKey
  | 9 => s.lcRevokeKey arg
  | 10 => s.lcSvnAdvance arg
  | _ => (stBadArg, s)

/-- A write of LC_CMD (R501): `false` when it is ignored with an access error of kind 5. -/
def State.lcWrite (s : State) (agent : Nat) (v : Word) : Bool × State :=
  if agent ≠ 1 ∧ agent ≠ 34 then (false, s)
  else
    let s0 := { s with chip := s.chip.wr Reg.life_LC_CMD (v &&& 0x0F0FFFFF) }
    if !bit v 31 then (true, s0)
    else
      let (st, s1) := s0.lcRun (fld v 27 24) (fld v 19 0)
      (true, { s1 with
        aux := { s1.aux with tokenBuf := [] }
        chip := (s1.chip.wr Reg.life_LC_STATUS (wd st)).raise 0x004 0 })

/-- TOKEN_BUF[n] written (R515). -/
def Aux.tokenWrite (a : Aux) (n : Nat) (v : Word) : Aux :=
  { a with tokenBuf := writeBytes a.tokenBuf (4 * n) (wordBytesBE v) }

/-! ## Timers of the page (R503, R504) -/

/-- The challenge is 60 s old. -/
def State.challengeExpiry (s : State) : State :=
  if s.auxOn then { s with aux := { s.aux with chalCurrent := false } } else s

/-- The session timer reaches 60 s: DBG_WARN_EV. -/
def State.dbgWarn (s : State) : State :=
  match s.aux.session with
  | none => s
  | some x =>
    let y := { x with length := 60, at_ := s.clk.now }
    { s with aux := { s.aux with session := some y }, chip := s.chip.raise 0x004 25 }

/-! ## Freeze (R511 to R513) -/

/-- A freeze trigger: it acts in ACTIVE and QUIESCE, outside a device reset, on a device that is not frozen. The
record is the first one since it was cleared. -/
def State.freeze (s : State) (kind pg : Nat) : State :=
  if s.aux.rail ≠ .run ∨ s.aux.pstate = 2 ∨ s.aux.frozen then s
  else
    let a := { s.aux with frozen := true }
    { s with
      aux := if a.frzKind ≠ 0 then a
        else { a with frzKind := kind, frzPage := pg, frzSec := todSec s.clk.tod % 4294967296, frzNs := todNs s.clk.tod }
      chip := { s.chip with flm := { s.chip.flm with pstate := 2 } } }

/-- FRZ_STAT (R515). -/
def Aux.frzStat (a : Aux) : Word :=
  if a.frzKind = 0 then 0 else wd (0x80000000 + a.frzKind * 0x1000000 + a.frzPage)

/-- FRZ_NOW of agents 1 and 34. -/
def State.frzNow (s : State) (agent : Nat) : State := if agent = 1 ∨ agent = 34 then s.freeze 2 0 else s

/-- FRZ_CLR. -/
def Aux.frzClr (a : Aux) (v : Word) : Aux :=
  if bit v 31 then { a with frzKind := 0, frzPage := 0, frzSec := 0, frzNs := 0 } else a

/-- The first page whose fatal fault is new and a freeze trigger (R41, R511). -/
def newFatal (c c' : Chip) : Option Nat :=
  ((c'.regs.filter fun kv => kv.1 % 65536 == 8 && kv.1 < 0x10000000 && bit kv.2 2).map fun kv => kv.1 / 65536).find?
    fun pg => c'.faulted pg && !c.faulted pg

/-- What a step did may trigger a freeze: a fatal fault of a page with FRZ_TRIG_EN, or the drop watch with DW_EN
(R511). -/
def State.settleFrom (s' s : State) : State :=
  match newFatal s.chip s'.chip with
  | some pg => s'.freeze 3 pg
  | none =>
    if s'.chip.rdB Reg.life_FRZ_CTL 0 && s'.chip.rdB Reg.switch_DROP_LAST 31 && !s.chip.rdB Reg.switch_DROP_LAST 31 then
      s'.freeze 4 0
    else s'

/-! ## Soft reset of the page (R499, R516) -/

/-- The session ends and the challenge is discarded; the OTP and the freeze record stay. -/
def State.lifeReset (s : State) : State :=
  let s1 := s.endSession
  { s1 with aux := { s1.aux with chalCurrent := false, tokenBuf := [] } }

/-! ## IEEE 1149.1 (R508, R510) -/

/-- An instruction is shifted in: IDCODE and BYPASS are always there while VDD_AUX is up, and another acts as BYPASS
where the matrix does not open boundary scan. -/
def State.scan (s : State) (ir : ScanInstr) : State :=
  if !s.auxOn then s
  else
    let ir1 := match ir with
      | .other _ => if s.facility 0 then ir else .bypass
      | _ => ir
    { s with aux := { s.aux with tap := ir1 } }

end Sys2Proof.Machine
end

