-- ==== Sys2Proof/Machine/Mailbox.lean ====
section
/-!
DEFINITION. Machine/Mailbox.lean: mailboxes, doorbells and lock registers (16_mailboxes_and_locks.md R394 to
R411).
-/
namespace Sys2Proof.Machine

/-! ## Permissions and states (R394, R395, R398) -/

/-- A host function's agent number. -/
def isHost (agent : Nat) : Bool := decide (1 ≤ agent) && decide (agent ≤ 8)

/-- A sluice's agent number. -/
def isSluice (agent : Nat) : Bool := decide (17 ≤ agent) && decide (agent ≤ 32)

/-- An agent may post to mailbox `m` (R395). -/
def mayPost (agent m : Nat) : Bool :=
  if m % 2 = 0 then isHost agent || (isSluice agent && agent != sluiceAgent (m / 2)) else agent == sluiceAgent (m / 2)

/-- An agent may take and acknowledge a post of mailbox `m` (R395). -/
def mayTake (agent m : Nat) : Bool := if m % 2 = 0 then agent == sluiceAgent (m / 2) else isHost agent

/-- MBX_STAT.STATE: 0 EMPTY, 1 POSTED, 2 TAKEN. -/
def Chip.mbxState (c : Chip) (m : Nat) : Nat := c.rdF (Reg.mbx_MBX_STAT m) 17 16

/-- The form of a pointer (R396). -/
def ptrOk (p2 : Word) : Bool :=
  fld p2 30 24 == 0 && decide (16 ≤ fld p2 23 0) && decide (fld p2 23 0 ≤ 16777200) && fld p2 23 0 % 16 == 0

/-- A non-fatal event of a sluice (R159, R170). -/
def Chip.slEvent (c : Chip) (r i : Nat) : Chip := c.orW (Reg.sluice_SL_EVENT r) (oneBit i)

/-! ## Posting (R397, R398, R400, R403) -/

/-- A post lands. -/
def Chip.mbxLand (c : Chip) (agent m : Nat) (p0 p1 p2 p3 : Word) : Chip :=
  let a := Reg.mbx_MBX_PTR m
  let c1 := (((c.wr (a 0) p0).wr (a 1) p1).wr (a 2) p2).wr (a 3) p3
  let c2 := (c1.wr (Reg.mbx_MBX_STAT m) (wd (0x10000 + agent * 256))).wrF (Reg.mbx_MBX_ACK m) 31 31 0
  let c3 : Chip := { (c2.rewrite 0x006 0 m) with mbx := { c2.mbx with fired := c2.mbx.fired.filter (· != m) } }
  let c4 := if m % 2 = 1 then c3.pend 0x006 Reg.mbx_POST_PEND (oneBit m) 27 else c3.slEvent (m / 2) 0
  if c4.mbxState (2 * (m / 2)) ≠ 0 ∧ c4.mbxState (2 * (m / 2) + 1) ≠ 0 then
    (c4.count Reg.mbx_XOVER_CNT 1).pend 0x006 Reg.mbx_XOVER_PEND (oneBit (m / 2)) 24
  else c4

/-- A post is tried: its outcome. -/
def Chip.mbxPost (c : Chip) (agent m : Nat) (formOk : Bool) (p0 p1 p2 p3 : Word) : Nat × Chip :=
  if !mayPost agent m then (stDenied, c)
  else if !formOk || !ptrOk p2 then (stBadArg, c)
  else if c.mbxState m ≠ 0 then (stFull, c)
  else (stOk, c.mbxLand agent m p0 p1 p2 p3)

/-- A staged word of an agent. -/
def Chip.staged (c : Chip) (agent w : Nat) : Word := mrd 0 c.mbx.stage (4 * agent + w)

/-- POST_Ww written by an agent. -/
def Chip.stageW (c : Chip) (agent w : Nat) (v : Word) : Chip :=
  { (c.rewrite 0x006 1 agent) with mbx := { c.mbx with stage := mset 0 c.mbx.stage (4 * agent + w) v } }

/-- A write of POST_CMD (R397): `false` when it is also an access error of kind 5. -/
def Chip.postCmd (c : Chip) (agent m : Nat) : Bool × Chip :=
  let (e, c0) := c.ecc 0x006 1 agent
  let bad := e == .bad || c0.mbx.stageBad.contains agent
  let (st, c1) := c0.mbxPost agent m (!bad) (c0.staged agent 0) (c0.staged agent 1) (c0.staged agent 2) (c0.staged agent 3)
  let c2 := if e == .bad then c1.rewrite 0x006 1 agent else c1
  (st != stDenied, { c2 with mbx := { c2.mbx with
    res := mset 0 c2.mbx.res agent st, stageBad := c2.mbx.stageBad.filter (· != agent) } })

/-! ## Acknowledging (R398 to R400, R406) -/

/-- A mailbox empties with an acknowledge by `agent`, 0 for the device, and its poster is told. An acknowledge of
an outbound mailbox is discarded while its sluice is aborted (R161). -/
def Chip.mbxEmpty (c : Chip) (agent m st : Nat) : Chip :=
  let poster := c.rdF (Reg.mbx_MBX_STAT m) 15 8
  let a := Reg.mbx_MBX_PTR m
  let c1 := (((c.wr (a 0) 0).wr (a 1) 0).wr (a 2) 0).wr (a 3) 0
  let c2 := (c1.wrF (Reg.mbx_MBX_STAT m) 17 16 0).wr (Reg.mbx_MBX_ACK m) (wd (0x80000000 + agent * 65536 + st % 256))
  let c3 := c2.rewrite 0x006 0 m
  let c4 := if isHost poster then c3.pend 0x006 Reg.mbx_ACK_PEND (oneBit m) 26 else c3
  if m % 2 = 1 ∧ c4.sluState (m / 2) ≠ 4 then
    { (c4.slEvent (m / 2) 4) with mbx := { c4.mbx with ackTo := c4.mbx.ackTo.filter (· != m / 2) ++ [m / 2] } }
  else c4

/-- A slot is read: an uncorrectable error acknowledges its post INTEGRITY (R411). -/
def Chip.mbxRead (c : Chip) (m : Nat) : Chip :=
  match c.ecc 0x006 0 m with
  | (.bad, c1) => if c1.mbxState m = 0 then c1.rewrite 0x006 0 m else c1.mbxEmpty 0 m stIntegrity
  | (_, c1) => c1

/-- A read of MBX_PTRw of mailbox `m` (R398): `false` is an access error of kind 5. -/
def Chip.ptrRead (c : Chip) (agent m w : Nat) : Bool × Word × Chip :=
  if !(mayTake agent m || agent == 1) then (false, 0, c)
  else
    let c1 := c.mbxRead m
    let v := c1.rd (Reg.mbx_MBX_PTR m w)
    if w = 3 ∧ mayTake agent m ∧ c1.mbxState m = 1 then (true, v, c1.wrF (Reg.mbx_MBX_STAT m) 17 16 2)
    else (true, v, c1)

/-- A write of MBX_ACK (R398). -/
def Chip.ackWrite (c : Chip) (agent m st : Nat) : Bool × Chip :=
  if !mayTake agent m || c.mbxState m = 0 then (false, c) else (true, c.mbxEmpty agent m st)

/-- The watchdog of mailbox `m` fires, once per post (R405). -/
def Chip.ackTimeout (c : Chip) (m : Nat) : Chip :=
  if c.mbxState m = 0 ∨ c.mbx.fired.contains m then c
  else
    let c1 : Chip := { c with mbx := { c.mbx with fired := c.mbx.fired ++ [m] } }
    (c1.count Reg.mbx_ACK_TMO_CNT 1).pend 0x006 Reg.mbx_TMO_PEND (oneBit m) 25

/-! ## Locks (R407 to R409) -/

/-- The owner of a lock, 0 while it is FREE. -/
def Chip.lockOwner (c : Chip) (i : Nat) : Nat := c.rdF (Reg.mbx_LOCK i) 7 0

/-- The arbiter of a lock has granted an agent. -/
def Chip.lockGrant (c : Chip) (agent i : Nat) : Chip :=
  { c with mbx := { c.mbx with lockLast := mset 0 c.mbx.lockLast i agent } }

/-- LOCK_ERR_EV sets and the first error is captured (R409). -/
def Chip.lockErr (c : Chip) (agent v i : Nat) : Chip :=
  let c1 := (c.count Reg.mbx_LOCK_ERR_CNT 1).raise 0x006 23
  if c1.rdB Reg.mbx_LOCK_ERR_LAST 31 then c1
  else c1.wr Reg.mbx_LOCK_ERR_LAST (wd (0x80000000 + agent * 65536 + v % 256 * 256 + i))

/-- A read of a lock by an agent (R407): what it returns. An uncorrectable error frees the lock first (R411). -/
def Chip.lockRead (c : Chip) (agent i : Nat) : Word × Chip :=
  let c0 := match c.ecc 0x006 2 i with
    | (.bad, c1) => ((c1.rewrite 0x006 2 i).wr (Reg.mbx_LOCK i) 0).raise 0x006 23
    | (_, c1) => c1
  let o := c0.lockOwner i
  let c1 := c0.lockGrant agent i
  if o = 0 then (0, (c1.rewrite 0x006 2 i).wr (Reg.mbx_LOCK i) (wd agent)) else (wd o, c1)

/-- Sluices with a LOCK_ACQ that waits for lock `i`, in the arbiter's order after the agent granted last. -/
def Chip.lockWaiters (c : Chip) (i : Nat) : List Nat :=
  let start := mrd 0 c.mbx.lockLast i + 1
  ((List.range 34).map fun n => (start + n + 33) % 34 + 1).filter fun a =>
    isSluice a && ((c.slu.s[a - 17]?.getD {}).reqs.any fun q => q.op == 10 && q.status.isNone && q.at_ == 1 && q.x.toNat % 64 == i)

/-- The first waiting LOCK_ACQ of a sluice for lock `i` has won. -/
def lockWon (i : Nat) : List SluReq → List SluReq
  | [] => []
  | q :: qs =>
    if q.op == 10 && q.status.isNone && q.at_ == 1 && q.x.toNat % 64 == i then { q with status := some stOk } :: qs
    else q :: lockWon i qs

/-- A lock becomes FREE and the waiting LOCK_ACQ reads are presented again: the first granted wins, the others read
its number (R408, R409). -/
def Chip.lockFree (c : Chip) (i : Nat) : Chip :=
  let c1 := (c.rewrite 0x006 2 i).wr (Reg.mbx_LOCK i) 0
  match c1.lockWaiters i with
  | [] => c1
  | a :: rest =>
    let c2 := c1.wr (Reg.mbx_LOCK i) (wd a)
    let c3 : Chip := { c2 with slu := { c2.slu with s := modAt c2.slu.s (a - 17) fun u => { u with reqs := lockWon i u.reqs } } }
    c3.lockGrant ((a :: rest).getLastD a) i

/-- A write of a lock (R409). -/
def Chip.lockWrite (c : Chip) (agent i : Nat) (v : Word) : Chip :=
  let c1 := c.lockGrant agent i
  if c1.lockOwner i = agent ∧ fld v 7 0 = agent then c1.lockFree i else c1.lockErr agent (fld v 7 0) i

/-- A write of LOCK_BREAK (R409): agent 1 only. A break of a lock that is FREE changes nothing. -/
def Chip.lockBreak (c : Chip) (agent : Nat) (v : Word) : Bool × Chip :=
  let i := fld v 5 0
  if agent ≠ 1 then (false, c)
  else if c.lockOwner i = 0 then (true, c)
  else (true, (c.lockFree i).raise 0x006 22)

/-- Every lock of an agent is released: it was aborted or reset (R161, R409, R546). -/
def Chip.lockReleaseAll (c : Chip) (agent : Nat) : Chip :=
  (List.range 64).foldl (fun c i => if c.lockOwner i = agent then c.lockFree i else c) c

/-! ## Aborts and resets (R161, R406, R411) -/

/-- The posts that an aborted sluice has not acknowledged, and its locks (R161 step 4). -/
def Chip.mbxAbort (c : Chip) (r : Nat) : Chip :=
  let c1 := if c.mbxState (2 * r) = 0 then c else c.mbxEmpty 0 (2 * r) stAborted
  { (c1.lockReleaseAll (sluiceAgent r)) with mbx := { (c1.lockReleaseAll (sluiceAgent r)).mbx with
      ackTo := c1.mbx.ackTo.filter (· != r) } }

/-- A soft reset of the page (R406): `clear` returns its registers to reset, then every mailbox that held a post
shows its ABORTED acknowledge, and waiting LOCK_ACQ reads are presented again. -/
def Chip.mbxReset (c : Chip) (clear : Chip → Chip) : Chip :=
  let held := (List.range 32).filter fun m => c.mbxState m != 0
  let posters := held.map fun m => (m, c.rdF (Reg.mbx_MBX_STAT m) 15 8)
  let locks := (List.range 64).filter fun i => c.lockOwner i != 0
  let c1 : Chip := { (clear c) with mbx := { (clear c).mbx with stage := [], stageBad := [], res := [], fired := [], lockLast := [] } }
  let c2 := posters.foldl (fun c mp => (c.wr (Reg.mbx_MBX_STAT mp.1) (wd (0x10000 + mp.2 * 256))).mbxEmpty 0 mp.1 stAborted) c1
  locks.foldl (fun c i => c.lockFree i) c2

/-- An uncorrectable error in the page's storage is found (R411). -/
def Chip.mbxBad (c : Chip) (mem word : Nat) : Chip :=
  match mem with
  | 0 => if word < 32 ∧ c.mbxState word ≠ 0 then c.mbxEmpty 0 word stIntegrity else c.rewrite 0x006 0 word
  | 1 =>
    { (c.rewrite 0x006 1 word) with mbx := { c.mbx with stageBad := c.mbx.stageBad.filter (· != word) ++ [word] } }
  | 2 => if word < 64 then (c.raise 0x006 23).lockFree word else c
  | _ => c

end Sys2Proof.Machine
end

