-- ==== Sys2Proof/Machine/Sluice.lean ====
section
/-!
DEFINITION. Machine/Sluice.lean: a sluice engine executes microwords (06_sluice_engines.md R147 to R163): operands,
waits, threads, poll points, requests as a word issues them, aborts and restarts.
-/
namespace Sys2Proof.Machine

/-! ## The engine's parts -/

/-- Sluice `r`. -/
def Chip.slu1 (c : Chip) (r : Nat) : Slu := c.slu.s[r]?.getD {}

/-- A change of sluice `r`. -/
def Chip.onSlu (c : Chip) (r : Nat) (f : Slu → Slu) : Chip := { c with slu := { c.slu with s := modAt c.slu.s r f } }

/-- Thread `t` of a sluice. -/
def Slu.th (u : Slu) (t : Nat) : Thread := u.threads[t]?.getD {}

/-- A change of thread `t`. -/
def Chip.onTh (c : Chip) (r t : Nat) (f : Thread → Thread) : Chip :=
  c.onSlu r fun u => { u with threads := modAt u.threads t f }

/-- SL_STAT.STATE set. -/
def Chip.setSlu (c : Chip) (r st : Nat) : Chip := c.wrF (Reg.sluice_SL_STAT r) 19 16 st

/-- LRn of a lane. -/
def Thread.reg (th : Thread) (lane n : Nat) : Word := mrd 0 th.lr (16 * lane + n)

/-- The mask bit of a lane. -/
def Thread.active (th : Thread) (lane : Nat) : Bool := bit th.mask lane

/-- The data SRAM address of byte `a` of a lane's window (R149). -/
def Thread.win (th : Thread) (lane a : Nat) : Nat := ((th.reg lane 15).toNat + a) % 65536

/-- Bytes of the data SRAM from an address, modulo 65,536. -/
def Slu.dsBytes (u : Slu) (a n : Nat) : List Byte := (List.range n).map fun i => mrd 0 u.ds ((a + i) % 65536)

/-- Bytes written to the data SRAM, modulo 65,536. -/
def dsPut (ds : SMap Byte) (a : Nat) : List Byte → SMap Byte
  | [] => ds
  | b :: bs => dsPut (mset 0 ds (a % 65536) b) (a + 1) bs

/-! ## Operands (R149) -/

/-- What a word reads: the engine and its thread at the start of the word, and the values that stand beside them. -/
structure SCtx where
  u : Slu
  th : Thread
  r : Nat
  t : Nat
  imm : Word
  tns : Nat
  tsec : Nat
  epoch : Nat
  cause : Word

/-- STATUS. -/
def Thread.status (th : Thread) : Word := wd (th.inHandler.toNat * 4 + th.ackSeen.toNat * 2 + th.tmo.toNat)

/-- An operand of a lane; a reserved code reads zero. -/
def SCtx.operand (x : SCtx) (lane code : Nat) : Word :=
  if code < 0x0C0 then wd (beNat (x.u.dsBytes (x.th.win lane (4 * code)) 4))
  else if code < 0x0D0 then x.th.reg lane (code - 0x0C0)
  else if code < 0x0F0 then mrd 0 x.u.g (code - 0x0D0)
  else match code with
    | 0x0F0 => x.imm
    | 0x0F1 => wd lane
    | 0x0F2 => x.th.mask
    | 0x0F3 => 0xFFFFFFFF
    | 0x0F5 => wd x.u.cyc
    | 0x0F6 => wd x.tns
    | 0x0F7 => wd x.tsec
    | 0x0F8 => wd (x.r * 16777216 + x.t * 65536 + x.epoch)
    | 0x0F9 => x.th.status
    | 0x0FA => x.cause
    | 0x0FB => wd (mrd 0 x.th.rstat lane)
    | _ => 0

/-- The destination's value at the start of the word, for BFI. -/
def SCtx.old (x : SCtx) (lane dst : Nat) : Word := if dst < 0xD0 then x.operand lane dst else 0

/-- What an ALU does in a lane. -/
def SCtx.effect (x : SCtx) (lane f : Nat) : Option Word :=
  let op := aluOp f
  if 0x2F < op then none
  else
    let lor := if op = 0x2F then (List.range 32).foldl (fun w n => if x.th.active n then w ||| x.operand n (aluA f) else w) 0 else 0
    aluResult op (x.operand lane (aluA f)) (x.operand lane (aluB f)) x.imm (x.old lane (aluDst f)) lor

/-! ## Writes of a word (R111, R148, R149) -/

/-- What a word leaves. -/
structure SAcc where
  ds : SMap Byte
  lr : SMap Word
  g : SMap Word
  mask : Word

/-- The lowest-numbered active lane. -/
def Thread.lowest (th : Thread) : Option Nat := (List.range 32).find? th.active

/-- One result in one lane: windows and lane registers only when the lane is active, mask bits in every lane,
G registers from the lowest active lane. -/
def SCtx.write (x : SCtx) (a : SAcc) (lane dst : Nat) (v : Word) : SAcc :=
  if isMaskDst dst then { a with mask := setBit a.mask lane (maskAfter dst (bit a.mask lane) v) }
  else if !x.th.active lane then a
  else if dst < 0xC0 then { a with ds := dsPut a.ds (x.th.win lane (4 * dst)) (wordBytesBE v) }
  else if dst < 0xD0 then { a with lr := mset 0 a.lr (16 * lane + (dst - 0xC0)) v }
  else if 0xE0 ≤ dst ∧ x.th.lowest = some lane then { a with g := mset 0 a.g (dst - 0xE0) v }
  else a

/-- One ALU over the lanes, in ascending order. -/
def SCtx.alu (x : SCtx) (a : SAcc) (f : Nat) : SAcc :=
  (List.range 32).foldl (fun a n => match x.effect n f with
    | some v => x.write a n (aluDst f) v
    | none => a) a

/-- MOVE over the lanes, in each lane's window (R121). -/
def SCtx.move (x : SCtx) (a : SAcc) (m : Nat) : SAcc :=
  let src := m / 2 ^ 14
  let dst := m / 16 % 1024
  let len := m % 16
  (List.range 32).foldl (fun a n =>
    if x.th.active n && len != 0 then
      let bs := (List.range (min len (768 - dst))).map fun i =>
        if src + i < 768 then mrd 0 x.u.ds (x.th.win n (src + i)) else 0
      { a with ds := dsPut a.ds (x.th.win n dst) bs }
    else a) a

/-- MOVE, then the four ALUs. -/
def SCtx.result (x : SCtx) (w : BitVec 256) : SAcc :=
  let a0 : SAcc := { ds := x.u.ds, lr := x.th.lr, g := x.u.g, mask := x.th.mask }
  x.alu (x.alu (x.alu (x.alu (x.move a0 (mwMove w)) (mwAlu w 0)) (mwAlu w 1)) (mwAlu w 2)) (mwAlu w 3)

/-- HASH: the profile over each active lane's window, into LR(8 + DST) for the next word. -/
def SCtx.hash (x : SCtx) (c : Chip) (w : BitVec 256) (lr : SMap Word) : SMap Word :=
  let h := mwHash w
  if h / 2048 = 0 then lr
  else
    let q := h / 32 % 64
    let dst := c.rdEF c.bankB (Reg.parser_HCFG x.r q) 5 4
    (List.range 32).foldl (fun lr n =>
      if x.th.active n then
        mset 0 lr (16 * n + 8 + dst) (c.hashValue c.bankB x.r q (writeBytes [] 0 (x.u.dsBytes (x.th.win n 0) 768)))
      else lr) lr

/-- The requests of a word, one for each active lane in ascending order (R150, R151). -/
def SCtx.requests (x : SCtx) (w : BitVec 256) : List SluReq :=
  let q := mwTable w
  let op := q / 4096
  let a := q / 256 % 16
  let d := q / 16 % 16
  if op = 0 ∨ 14 ≤ op then []
  else ((List.range 32).filter x.th.active).map fun n =>
    { serial := 0, thread := x.t, lane := n, op, n := q % 16, odd := decide (a % 2 = 1), x := x.th.reg n a,
      xh := x.th.reg n ((a + 1) % 16), y := x.th.reg n d, dreg := d }

/-- Requests numbered as they are issued. -/
def Slu.issue (u : Slu) : List SluReq → Slu
  | [] => u
  | q :: qs => Slu.issue { u with reqs := u.reqs ++ [{ q with serial := u.nextReq }], nextReq := u.nextReq + 1 } qs

/-- How many reserved encodings a word uses (R148). -/
def sluIllegals (w : BitVec 256) : Nat :=
  ((List.range 4).filter fun n => (aluIllegal true (mwAlu w n)).isSome).length +
    (if 10 < mwBr w then 1 else 0) + (if 14 ≤ mwTable w / 4096 then 1 else 0) + (if mwMeter w ≠ 0 then 1 else 0) +
    (if 2 ≤ mwEmit w / 32 then 1 else 0)

/-! ## Waits (R153 to R155) -/

/-- The thread has no request of these operations in flight. -/
def Slu.noneOf (u : Slu) (t : Nat) (ops : List Nat) : Bool := !u.reqs.any fun q => q.thread == t && ops.contains q.op

/-- An enabled watched page asserts. -/
def Chip.extNow (c : Chip) (r : Nat) : Bool :=
  (List.range 8).any fun i =>
    let w := c.rd (Reg.sluice_SL_WATCH r i)
    bit w 31 && c.asserts (fld w 11 0)

/-- The sluice's inbound mailbox holds an unserved post. -/
def Chip.mbxIn (c : Chip) (r : Nat) : Bool := c.mbxState (2 * r) == 1

/-- A condition of R153 but ANY. -/
def Chip.cond1 (c : Chip) (r t code : Nat) : Bool :=
  let u := c.slu1 r
  match code with
  | 0 => true
  | 1 => c.mbxIn r
  | 2 => u.noneOf t [7]
  | 3 => u.noneOf t [3, 4]
  | 4 => u.noneOf t [1, 2, 9, 11, 12, 13]
  | 5 => u.noneOf t [5, 6]
  | 6 => u.noneOf t [10]
  | 7 => u.noneOf t [8]
  | 8 => r == 2 && !c.tbl.learnQ.isEmpty
  | 9 => u.t0
  | 10 => u.t1
  | 11 => u.tick
  | 12 => c.mbx.ackTo.contains r || c.mbxIn r
  | 13 => c.extNow r
  | 14 => r == 4 && c.rd Reg.telemetry_SMPQ_HEAD != c.rd Reg.telemetry_SMPQ_TAIL
  | _ => false

/-- Conditions that a wait names. -/
def Chip.waitNames (c : Chip) (r t code : Nat) : List Nat :=
  if code = 15 then ((List.range 15).drop 1).filter fun i => c.rdB (Reg.sluice_WAIT_SET r t) i else [code]

/-- The condition of a wait. -/
def Chip.waitTrue (c : Chip) (r t code : Nat) : Bool := (c.waitNames r t code).any fun i => c.cond1 r t i

/-- A wait that REQ_TMO ends (R155). -/
def Chip.waitTimed (c : Chip) (r t code : Nat) : Bool := (c.waitNames r t code).any fun i => decide (2 ≤ i) && decide (i ≤ 7)

/-- What the execution of a word that waited on `code` consumes, and what STATUS then reads (R154, R155). -/
def Chip.consume (c : Chip) (r t code : Nat) (forced : Bool) : Chip :=
  let acked := c.mbx.ackTo.contains r
  let names := c.waitNames r t code
  let c1 := c.onSlu r fun u =>
    { u with t0 := u.t0 && !names.contains 9, t1 := u.t1 && !names.contains 10, tick := u.tick && !names.contains 11 }
  let c2 : Chip := if names.contains 12 then { c1 with mbx := { c1.mbx with ackTo := c1.mbx.ackTo.filter (· != r) } } else c1
  c2.onTh r t fun th =>
    { th with forced := false
              ackSeen := if code = 12 then acked else th.ackSeen
              tmo := if code = 0 then th.tmo else forced }

/-! ## Interrupts (R158) -/

/-- CAUSE of a thread: enabled events routed to it. -/
def Chip.slCause (c : Chip) (r t : Nat) : Word :=
  let ev := c.rd (Reg.sluice_SL_EVENT r) &&& c.rd (Reg.sluice_SL_EVENT_EN r)
  let thr := c.rd (Reg.sluice_SL_EVENT_THR r)
  bitsOf ((List.range 10).map fun i => bit ev i && fld thr (2 * i + 1) (2 * i) == t)

/-- The thread takes an interrupt at a poll point. -/
def Chip.interrupts (c : Chip) (r t : Nat) : Bool := !((c.slu1 r).th t).inHandler && c.slCause r t != 0

/-! ## Aborts (R161) -/

/-- The requests of a sluice are discarded; its Vault jobs end ABORTED, the one that runs included. -/
def sluDiscard (cv : CV) (r : Nat) : CV :=
  let mine := fun (j : VJob) => match j.sluice with | some (s, _, _) => s == r | none => false
  let jobs := (cv.2.jobs.map fun uj => (uj.1, uj.2.filter fun j => !mine j)).filter fun uj => !uj.2.isEmpty
  (cv.1.onSlu r fun u => { u with reqs := [] }, { cv.2 with jobs })

/-- S3 aborts while it replays the journal (R448). -/
def Chip.replayLost (c : Chip) : Chip :=
  if !c.rdB Reg.epoch_JNL_STAT 30 then c
  else
    let c1 := (c.wrF Reg.epoch_JNL_STAT 30 30 0).raise 0x005 22
    let c2 := if c1.rdB Reg.epoch_JNL_FAIL_SEQ 31 then c1
      else c1.wr Reg.epoch_JNL_FAIL_SEQ (wd (0x80000000 + (c1.ep.replay.length - 1)))
    { c2 with ep := { c2.ep with replay := [] } }

/-- What the abort of a fixed sluice does to the work it held: S3's table work and replay, S5's ledger (R168, R190, R217,
R448). -/
def Chip.serviceLost (c : Chip) (k : Clk) (r : Nat) : Chip :=
  if r = 3 then ((c.emEndPending k stFull).pfxEndPending k stBusy).replayLost
  else if r = 5 then c.ldgGap k 1
  else c

/-- The engine aborts: cause, thread and address (R161). -/
def sluAbort (cv : CV) (k : Clk) (r cause t pc : Nat) : CV :=
  let pg := Reg.pg_sluice r
  let (c0, v) := sluDiscard cv r
  let c1 := c0.onSlu r fun u => { u with threads := u.threads.map fun th => { th with st := 0, forced := false }, halting := false }
  let c2 := (c1.setSlu r 4).mbxAbort r
  let c3 := (c2.wrF (Reg.sluice_SL_STAT r) 11 8 cause).wr (Reg.sluice_ABORT_INFO r)
    (wd (0x80000000 + cause * 0x1000000 + t * 0x100000 + pc % 16384))
  let c4 := ((c3.wrF (Reg.PAGE_STAT pg) 2 2 1).raiseM pg 0x88000000).count (Reg.sluice_ABORT_CNT r) 1
  (((c4.count Reg.fault_FATAL_CNT 1).firstFatal k.tod pg).serviceLost k r, v)

/-! ## Storage checks (R147, R159, R161) -/

/-- The 64-bit data SRAM words that hold `n` bytes from an address. -/
def dsWords (a n : Nat) : List (Nat × Nat) := ((List.range n).map fun i => (1, (a + i) % 65536 / 8)).eraseDups

/-- Storage an operand code reads in a lane: register words are thread × 512 + lane × 16 + register, then the global
registers at 2,048 and the stacks at 2,080 (log 23). -/
def SCtx.codeReads (x : SCtx) (lane code : Nat) : List (Nat × Nat) :=
  if code < 0x0C0 then (2, x.t * 512 + lane * 16 + 15) :: dsWords (x.th.win lane (4 * code)) 4
  else if code < 0x0D0 then [(2, x.t * 512 + lane * 16 + (code - 0x0C0))]
  else if code < 0x0F0 then [(2, 2048 + (code - 0x0D0))]
  else []

/-- Storage a word reads in a lane. -/
def SCtx.laneReads (x : SCtx) (c : Chip) (w : BitVec 256) (lane : Nat) : List (Nat × Nat) :=
  let act := x.th.active lane
  let alus := ((List.range 4).map fun i =>
    let f := mwAlu w i
    if act || isMaskDst (aluDst f) then
      (if opReadsA (aluOp f) then x.codeReads lane (aluA f) else []) ++ (if opReadsB (aluOp f) then x.codeReads lane (aluB f) else [])
    else []).flatten
  let mv := if act then dsWords (x.th.win lane (mwMove w / 2 ^ 14)) (mwMove w % 16) else []
  let hq := mwHash w / 32 % 64
  let hs := if act && decide (2048 ≤ mwHash w) then ((List.range 16).map fun f =>
      let e := c.rdE c.bankB (Reg.parser_HFIELD x.r hq f)
      if bit e 31 then dsWords (x.th.win lane (fld e 25 16)) (min 64 (fld e 6 0)) else []).flatten else []
  let q := mwTable w
  let rq := if act && decide (4096 ≤ q) then
    [(2, x.t * 512 + lane * 16 + q / 256 % 16), (2, x.t * 512 + lane * 16 + q / 16 % 16)] else []
  alus ++ mv ++ hs ++ rq

/-- A storage word of a sluice is read. The corrected-error count of the data SRAM that reaches CE_TH is an event of
the sluice (R159). -/
def Chip.sluEcc (c : Chip) (r mem word : Nat) : Bool × Chip :=
  let pg := Reg.pg_sluice r
  match c.ecc pg mem word with
  | (.bad, c1) => (true, c1)
  | (.corrected, c1) =>
    let th := c1.rdF (Reg.SCRUB_CTL pg) 31 16
    (false, if mem = 1 ∧ th ≠ 0 ∧ (c1.rd (Reg.ERR_CE_CNT pg)).toNat = th then c1.slEvent r 9 else c1)
  | (.clean, c1) => (false, c1)

/-- A list of storage words read: the abort cause of the first that is uncorrectable. -/
def Chip.sluCheck (c : Chip) (r : Nat) : List (Nat × Nat) → Option Nat × Chip
  | [] => (none, c)
  | mw :: rest =>
    match c.sluEcc r mw.1 mw.2 with
    | (true, c1) => (some (mw.1 + 1), c1)
    | (false, c1) => c1.sluCheck r rest

/-- A sluice page has an upset: only then are the reads of a word checked. -/
def Chip.sluUpset (c : Chip) (r : Nat) : Bool := c.upsets.any fun kv => kv.1 / 16777216 / 64 == Reg.pg_sluice r

/-! ## The next address (R119, R148, R161) -/

/-- Where a word leads. -/
inductive SNext where
  | next (pc : Nat) (stack : List Nat) (reti : Bool)
  | abort (cause : Nat)
  deriving DecidableEq, Repr

/-- The next address of a word, from the masks after it. -/
def SCtx.next (x : SCtx) (w : BitVec 256) (mask : Word) : SNext :=
  let cr := bit (mrd 0 x.u.g (fld x.imm 9 5)) (fld x.imm 4 0)
  let goTo := fun (n : Nat) (st : List Nat) (reti : Bool) => if 16383 < n then SNext.abort 6 else .next n st reti
  let pop := fun (reti : Bool) => match x.th.stack with
    | [] => SNext.abort 5
    | a :: st => goTo a st reti
  if mwSafe w = 3 then .next x.th.pc [] false
  else if mwBr w = 10 then pop true
  else match branchOf (mwBr w) x.th.pc (mwNext w) (mask != 0) (mask == 0xFFFFFFFF) cr x.th.tmo with
    | .go n => goTo n x.th.stack false
    | .call n ret => if 8 ≤ x.th.stack.length then .abort 4 else goTo n (ret :: x.th.stack) false
    | .ret => pop false

/-! ## One word (R148, R154, R157, R158) -/

/-- A thread that halts at a poll point or a wait: STOP makes it IDLE, STANDBY entry stands it still (R163, R526). -/
def Chip.haltAt (c : Chip) (r t : Nat) : Chip :=
  let u := c.slu1 r
  if u.halting then c.onTh r t fun th => { th with st := 0 }
  else if u.held then c.onTh r t fun th => { th with stopped := true }
  else c

/-- A STOP ends once every thread is IDLE (R163). -/
def Chip.stopEnd (c : Chip) (r : Nat) : Chip :=
  if (c.slu1 r).halting && (c.slu1 r).threads.all (fun th => th.st == 0) then
    (c.onSlu r fun u => { u with halting := false }).setSlu r 1
  else c

/-- Handler entry with a return address (R158): `none` on a full return stack. -/
def Thread.enter (th : Thread) (ret handler : Nat) : Option Thread :=
  if 8 ≤ th.stack.length then none
  else some { th with stack := ret :: th.stack, saved := th.mask, inHandler := true, pc := handler, sincePoll := 0 }

/-- An interrupt is taken. -/
def sluInterrupt (cv : CV) (k : Clk) (r t ret : Nat) : CV :=
  let th := (cv.1.slu1 r).th t
  match th.enter ret (cv.1.rdF (Reg.sluice_THREAD_HANDLER r t) 13 0) with
  | none => sluAbort cv k r 4 t th.pc
  | some th1 => (cv.1.onTh r t fun _ => th1, cv.2)

/-- What stands beside the engine for a word of thread `t`. Device time is the CORE view of R528 (log 45). -/
def Chip.sctx (c : Chip) (k : Clk) (r t : Nat) (imm : Word) : SCtx :=
  { u := c.slu1 r, th := (c.slu1 r).th t, r, t, imm, tns := todNs (c.coreTod k), tsec := todSec (c.coreTod k) % 4294967296
    epoch := c.rdF Reg.epoch_EPOCH_STAT 15 0, cause := c.slCause r t }

/-- The writes of a word that neither stalls nor aborts. -/
def Chip.sluCommit (c : Chip) (x : SCtx) (w : BitVec 256) (a : SAcc) (pc : Nat) (stack : List Nat) (reti : Bool) : Chip :=
  let lr := x.hash c w a.lr
  let poll := mwSafe w = 1 ∨ mwSafe w = 2
  let ill := sluIllegals w
  let c1 := c.onSlu x.r fun u => Slu.issue { u with ds := a.ds, g := a.g, cyc := (u.cyc + wordClocks w) % 4294967296, last := x.t } (x.requests w)
  let back := reti && x.th.inHandler
  let c2 := c1.onTh x.r x.t fun th =>
    { th with lr, mask := if back then th.saved else a.mask, inHandler := th.inHandler && !back, pc, stack
              st := if mwSafe w = 3 then 0 else 3, sincePoll := if poll then 0 else th.sincePoll + 1 }
  let c3 := c2.count64 (Reg.sluice_WORD_CNT_LO x.r) (Reg.sluice_WORD_CNT_HI x.r) 1
  if ill = 0 then c3
  else ((c3.count (Reg.sluice_ILLEGAL_CNT x.r) ill).slEvent x.r 7).raise (Reg.pg_sluice x.r) 23

/-- Another thread is READY. -/
def Slu.othersReady (u : Slu) (t : Nat) : Bool := (List.range 4).any fun i => i != t && (u.th i).st == 1

/-- What follows a word: the poll point takes an interrupt or halts the thread, and a yield or an end gives the
engine away. -/
def sluAfter (cv : CV) (k : Clk) (r t : Nat) (w : BitVec 256) : CV :=
  let poll := mwSafe w = 1 ∨ mwSafe w = 2
  let (c1, v1) := if poll ∧ cv.1.interrupts r t then sluInterrupt cv k r t ((cv.1.slu1 r).th t).pc else cv
  if c1.sluState r ≠ 3 then (c1, v1)
  else
    let c2 := if poll then c1.haltAt r t else c1
    let c3 := if mwSafe w = 2 ∧ ((c2.slu1 r).th t).st = 3 then c2.onTh r t fun th => { th with st := 1 } else c2
    (c3.stopEnd r, v1)

/-- Thread `t` runs: its word executes, or it takes an interrupt while it waits at a poll point (R154, R158). A word
whose requests do not fit the free slots stalls (R151). -/
def sluRun (cv : CV) (k : Clk) (r t : Nat) : CV :=
  let th := (cv.1.slu1 r).th t
  match cv.1.sluEcc r 0 th.pc with
  | (true, c1) => sluAbort (c1, cv.2) k r 1 t th.pc
  | (false, c1) =>
    let w := mrd 0 (c1.slu1 r).cs th.pc
    let code := mwTim w
    if !(th.forced || c1.waitTrue r t code) then sluInterrupt (c1, cv.2) k r t th.pc
    else if 64 < (c1.slu1 r).reqs.length + ((c1.sctx k r t (mwImm w)).requests w).length then
      (c1.onTh r t fun th => { th with st := 3 }, cv.2)
    else
      let c2 := c1.consume r t code (th.forced && !c1.waitTrue r t code)
      let x := c2.sctx k r t (mwImm w)
      let reads := if c2.sluUpset r then ((List.range 32).map (x.laneReads c2 w)).flatten ++
        (if mwBr w = 8 ∨ mwBr w = 10 then [(2, 2080 + 8 * t + (x.th.stack.length - 1))] else []) else []
      match c2.sluCheck r reads with
      | (some cause, c3) => sluAbort (c3, cv.2) k r cause t th.pc
      | (none, c3) =>
        let a := x.result w
        match x.next w a.mask with
        | .abort cause => sluAbort (c3, cv.2) k r cause t th.pc
        | .next pc stack reti => sluAfter (c3.sluCommit x w a pc stack reti, cv.2) k r t w

/-- The word a thread stands at. -/
def Chip.sluAt (c : Chip) (r t : Nat) : BitVec 256 := mrd 0 (c.slu1 r).cs ((c.slu1 r).th t).pc

/-- A thread can run now: its wait is over, or it waits at a poll point with an interrupt to take. -/
def Chip.runnable (c : Chip) (r t : Nat) : Bool :=
  let th := (c.slu1 r).th t
  let w := c.sluAt r t
  th.forced || c.waitTrue r t (mwTim w) || ((mwSafe w == 1 || mwSafe w == 2) && c.interrupts r t)

/-- The threads in the order in which the engine looks at them: the running one, then ascending from the one after the
last to run (R157). -/
def Slu.order (u : Slu) : List Nat :=
  ((List.range 4).filter fun t => (u.th t).st == 3) ++
    (((List.range 4).map fun i => (u.last + 1 + i) % 4).filter fun t => (u.th t).st == 1 || (u.th t).st == 2)

/-- The first thread that can run; one found with a false condition is WAITING. -/
def Chip.sluPick (c : Chip) (r : Nat) : List Nat → Option Nat × Chip
  | [] => (none, c)
  | t :: ts =>
    let th := (c.slu1 r).th t
    if th.stopped ∨ 1024 ≤ th.sincePoll then c.sluPick r ts
    else if c.runnable r t then (some t, c)
    else ((c.onTh r t fun th => { th with st := 2 }).haltAt r t).sluPick r ts

/-- The EXT event follows the watched pages (R170). -/
def Chip.extLatch (c : Chip) (r : Nat) : Chip :=
  if !c.rdB (Reg.sluice_SL_EVENT r) 5 && c.extNow r then c.slEvent r 5 else c

/-- SLUICE_WORD. -/
def sluiceWord (cv : CV) (k : Clk) (r : Nat) : CV :=
  if cv.1.sluState r ≠ 3 ∨ cv.1.inReset (Reg.pg_sluice r) then cv
  else
    let c := cv.1.extLatch r
    match c.sluPick r (c.slu1 r).order with
    | (none, c1) => (c1.stopEnd r, cv.2)
    | (some t, c1) =>
      let c2 := c1.onSlu r fun u => { u with threads := (List.range 4).map fun i =>
        let th := u.th i
        if i = t then { th with st := 3 } else if th.st = 3 then { th with st := 1 } else th }
      sluRun (c2, cv.2) k r t

/-! ## Timed events (R155, R156, R160, R163) -/

/-- WAIT_TIMEOUT of a thread whose wait names a request condition. -/
def Chip.waitTimeout (c : Chip) (r t : Nat) : Chip :=
  let th := (c.slu1 r).th t
  let code := mwTim (c.sluAt r t)
  if c.sluState r ≠ 3 ∨ th.st ≠ 2 ∨ th.forced ∨ !c.waitTimed r t code ∨ c.waitTrue r t code then c
  else
    let c1 := c.onTh r t fun th => { th with forced := true, tmo := true }
    ((c1.count (Reg.sluice_WAIT_TMO_CNT r) 1).slEvent r 6).raise (Reg.pg_sluice r) 24

/-- TIMER_EXPIRY. -/
def Chip.timerExpiry (c : Chip) (r i : Nat) : Chip :=
  let w := c.rd (Reg.sluice_TIMER_CTL r i)
  if !bit w 0 then c
  else
    let per := (c.rd (Reg.sluice_TIMER_PER r i)).toNat * nsU
    let c1 := c.onSlu r fun u =>
      let u1 := if i = 0 then { u with t0 := true } else { u with t1 := true }
      { u1 with due := mput u1.due i (if bit w 1 then some (mrd 0 u1.due i + per) else none) }
    let c2 := if bit w 1 then c1 else c1.wrF (Reg.sluice_TIMER_CTL r i) 0 0 0
    c2.slEvent r (1 + i)

/-- A write of TIMER_CTL or TIMER_PER starts, restarts or stops the count (R156). -/
def Chip.timerSet (c : Chip) (k : Clk) (r i : Nat) : Chip :=
  let per := (c.rd (Reg.sluice_TIMER_PER r i)).toNat * nsU
  let d := if c.rdB (Reg.sluice_TIMER_CTL r i) 0 then some (k.tod + per) else none
  c.onSlu r fun u => { u with due := mput u.due i d }

/-- TICK: device time has crossed a whole second. -/
def Chip.sluTick (c : Chip) : Chip :=
  (List.range 16).foldl (fun c r => (c.onSlu r fun u => { u with tick := true }).slEvent r 3) c

/-- POLL_WATCHDOG (R160). -/
def pollWatchdog (cv : CV) (k : Clk) (r t : Nat) : CV :=
  let th := (cv.1.slu1 r).th t
  if cv.1.sluState r ≠ 3 ∨ th.st = 0 ∨ th.sincePoll < 1024 then cv else sluAbort cv k r 7 t th.pc

/-- HEARTBEAT_WATCHDOG (R160): thread and address are those of the last thread to run. -/
def heartbeatWatchdog (cv : CV) (k : Clk) (r : Nat) : CV :=
  let on := decide (r < 8) || cv.1.rdB (Reg.sluice_SL_CTL r) 4
  if cv.1.sluState r ≠ 3 ∨ !on then cv
  else sluAbort cv k r 8 (cv.1.slu1 r).last ((cv.1.slu1 r).th (cv.1.slu1 r).last).pc

/-- SLUICE_HALT_TIMEOUT: a thread of a STOP or of STANDBY entry is halted where it stands. -/
def Chip.haltTimeout (c : Chip) (r t : Nat) : Chip :=
  if c.sluState r ≠ 3 ∨ ((c.slu1 r).th t).st = 0 then c else (c.haltAt r t).stopEnd r

/-! ## Start and stop (R149, R163) -/

/-- A thread starts at its ENTRY. -/
def Thread.start (th : Thread) (entry : Nat) : Thread :=
  { th with mask := 0xFFFFFFFF, stack := [], inHandler := false, saved := 0, st := 1, pc := entry, ackSeen := false
            tmo := false, forced := false, sincePoll := 0 }

/-- Each thread with RUN starts. -/
def Chip.startThreads (c : Chip) (r : Nat) : Chip :=
  (List.range 4).foldl (fun c t =>
    let w := c.rd (Reg.sluice_THREAD_CTL r t)
    if bit w 31 then c.onTh r t fun th => th.start (fld w 13 0) else c.onTh r t fun th => { th with st := 0 }) c

/-- A write of SL_CTL: `false` when START or STOP is refused with an access error of kind 5 and the write ignored. -/
def Chip.slCtlWrite (c : Chip) (r : Nat) (v : Word) : Bool × Chip :=
  let st := c.sluState r
  let start := bit v 0
  let stop := bit v 1
  let c1 := c.wr (Reg.sluice_SL_CTL r) (v &&& 0x110)
  if !start && !stop then (true, c1)
  else if r < 8 ∨ (start ∧ st ≠ 1) ∨ (stop ∧ st ≠ 3) then (false, c)
  else if start then (true, (c1.startThreads r).setSlu r 3)
  else
    let c2 := c1.onSlu r fun u => { u with halting := true }
    let c3 := c2.onSlu r fun u => { u with threads := u.threads.map fun th => if th.st = 2 then { th with st := 0 } else th }
    (true, c3.stopEnd r)

/-! ## Restart (R147, R162) -/

/-- Data SRAM, lane and global registers zero: a load or a restart. -/
def Slu.zero (u : Slu) : Slu :=
  { u with ds := [], g := [], threads := [{}, {}, {}, {}], t0 := false, t1 := false, tick := false, reqs := [], last := 3 }

/-- The stores of a sluice are written anew: their upsets are gone, stuck bits stay. -/
def Chip.sluRewritten (c : Chip) (r : Nat) : Chip :=
  { c with upsets := c.upsets.filter fun kv => kv.2.stuck || kv.1 / 16777216 / 64 != Reg.pg_sluice r }

/-- SLUICE_RESTART of an aborted fixed sluice: while S0 is aborted no other restarts, and after three restarts within
60 s the sluice stays ABORTED and is reported to the host. The opcode of that notice is a free value (log 40). -/
def Chip.sluRestart (c : Chip) (k : Clk) (r : Nat) : Chip :=
  if 8 ≤ r ∨ c.sluState r ≠ 4 ∨ !c.rdB (Reg.sluice_SL_CTL r) 8 ∨ (r ≠ 0 ∧ !c.serves 0) then c
  else
    let recent := (c.slu1 r).restarts.filter fun t => decide (k.now < t + 60 * 1000000000 * rtNs)
    if 3 ≤ recent.length then
      let (w, c1) := c.free
      c1.emit (.notice 1 (w.toNat % 65536) [BitVec.ofNat 8 r])
    else
      let c1 := (c.onSlu r fun u => { u.zero with restarts := recent ++ [k.now] }).sluRewritten r
      let c2 : Chip := if r = 3 then { c1 with tbl := { c1.tbl with pfxRebuild := true } } else c1
      ((((c2.startThreads r).setSlu r 3).wrF (Reg.sluice_SL_STAT r) 11 8 0).count (Reg.sluice_RESTART_CNT r) 1).raiseM
        (Reg.pg_sluice r) 0x06000000

/-! ## Completion (R150, R151) -/

/-- REQUEST_COMPLETE: the oldest request that has been carried out writes RSTAT and its destination and frees its
slot. A DENIED one is counted and reported. -/
def Chip.requestComplete (c : Chip) (r : Nat) : Chip :=
  match (c.slu1 r).reqs.find? fun q => q.status.isSome with
  | none => c
  | some q =>
    let st := q.status.getD 0
    let c0 := c.onSlu r fun u =>
      { u with reqs := u.reqs.filter (fun p => p.serial != q.serial), ds := dsPut u.ds q.at_ q.bytes }
    let c1 := (dsWords q.at_ q.bytes.length).foldl (fun c mw => c.rewrite (Reg.pg_sluice r) mw.1 mw.2) c0
    let c2 := c1.onTh r q.thread fun th =>
      let lr := match q.val with | some v => mset 0 th.lr (16 * q.lane + q.dreg) v | none => th.lr
      { th with lr, rstat := mset 0 th.rstat q.lane st }
    if st = stDenied then ((c2.count (Reg.sluice_DENIED_CNT r) 1).slEvent r 8).raise (Reg.pg_sluice r) 22 else c2

end Sys2Proof.Machine
end

