-- ==== Sys2Proof/Machine/SluPage.lean ====
section
/-!
DEFINITION. Machine/SluPage.lean: signed images, the control-store and data-SRAM windows and the soft reset of a
sluice page (06_sluice_engines.md R163 to R167, R505).
-/
namespace Sys2Proof.Machine

/-! ## Signed images (R164, R165, R505) -/

/-- Fields of an image. -/
abbrev imgF (img : List Byte) (at_ n : Nat) : Nat := beNat (slice img at_ n)

/-- CODE_WORDS and DATA_BYTES. -/
abbrev imgWords (img : List Byte) : Nat := imgF img 0x10 4
abbrev imgData (img : List Byte) : Nat := imgF img 0x14 4

/-- The form of an image for sluice `r` (order 2). Firmware names one sluice of S0 to S7 and no customer one. -/
def imgForm (img : List Byte) (r len : Nat) : Bool :=
  let target := imgF img 0x06 2
  let w := imgWords img
  imgF img 0 4 == 0x4F4E534C && imgF img 4 2 == 1 && imgF img 0x0E 2 == 0 && imgF img 0x1C 4 == 0 &&
    allZero (slice img 0x40 64) && allZero (slice img 0xE1 31) &&
    (if r < 8 then target == 2 ^ r else target % 256 == 0 && target / 2 ^ r % 2 == 1) && imgF img 0x18 4 == 1 &&
    decide (1 ≤ w) && decide (w ≤ 16384) && decide (imgData img ≤ 65536) && imgData img % 64 == 0 &&
    ((List.range 4).all fun t => decide (imgF img (0x20 + 4 * t) 4 % 16384 < w) && decide (imgF img (0x30 + 4 * t) 4 < w)) &&
    len == 256 + 32 * w + imgData img + 96

/-- The key hash of an image is an unrevoked customer key, or the firmware key (order 3). -/
def Aux.imgKeyOk (a : Aux) (r : Nat) (img : List Byte) : Bool :=
  let h := Crypto.sha384 (slice img 0x80 97)
  if r < 8 then h == Config.fwKeyHash
  else a.otp.custKeys.any fun k => match k with | some (x, revoked) => !revoked && x == h | none => false

/-- SVN_FLOOR that covers sluice `r`. -/
def Aux.svnFloor (a : Aux) (r : Nat) : Nat := ((a.otp.svn[if r < 8 then 0 else r - 7]?).getD (0, 0)).1

/-- The checks of orders 2 to 5: the status of the first that fails, OK otherwise. -/
def Aux.imgCheck (a : Aux) (r len : Nat) (img : List Byte) : Nat :=
  if !imgForm img r len then stBadArg
  else if !a.imgKeyOk r img then stIntegrity
  else if imgF img 0x0C 2 < a.svnFloor r then stDenied
  else if !Crypto.verify (Crypto.sha384 (img.take (len - 96))) (slice img (len - 96) 96) (slice img 0x80 97) then stIntegrity
  else stOk

/-- Control-store words of an image, listed when they are not zero. -/
def imgCode (img : List Byte) : SMap (BitVec 256) :=
  (List.range (imgWords img)).foldr (fun i m =>
    let w := mwOfBytes (slice img (256 + 32 * i) 32)
    if w = 0 then m else (i, w) :: m) []

/-- Data section of an image, listed where it is not zero. -/
def imgDataMap (img : List Byte) : SMap Byte :=
  let bs := slice img (256 + 32 * imgWords img) (imgData img)
  ((List.zip (List.range bs.length) bs).filter fun ib => ib.2 != 0)

/-- An accepted image goes in (R165). -/
def Chip.imgLoad (c : Chip) (r : Nat) (img : List Byte) : Chip :=
  let c1 := (c.onSlu r fun u => { u.zero with cs := imgCode img, ds := imgDataMap img, dbgWritten := false }).sluRewritten r
  let c2 := (List.range 4).foldl (fun c t =>
    (c.wr (Reg.sluice_THREAD_CTL r t) (wd (imgF img (0x20 + 4 * t) 4) &&& 0x80003FFF)).wr (Reg.sluice_THREAD_HANDLER r t)
      (wd (imgF img (0x30 + 4 * t) 4) &&& 0x3FFF)) c1
  (c2.wr (Reg.sluice_IMG_VERSION r) (wd (imgF img 8 4))).wr (Reg.sluice_IMG_SVN r) (wd (imgF img 0x0C 2))

/-- A write of IMG_CMD: `false` when a GO is refused with an access error of kind 5. The arguments are sampled now
(R568). -/
def Chip.imgCmdWrite (c : Chip) (r : Nat) (v : Word) : Bool × Chip :=
  if !bit v 31 then (true, c.wr (Reg.sluice_IMG_CMD r) ((c.rd (Reg.sluice_IMG_CMD r) &&& 0x80000000) ||| (v &&& 1)))
  else if r < 8 then (false, c)
  else if c.sluState r = 2 ∨ c.sluState r = 3 then (true, c.wr (Reg.sluice_IMG_STATUS r) (wd stBusy))
  else
    let args := [fld v 0 0, (c.rd (Reg.sluice_IMG_ADDR_HI r)).toNat, (c.rd (Reg.sluice_IMG_ADDR_LO r)).toNat,
      (c.rd (Reg.sluice_IMG_LEN r)).toNat]
    (true, ((c.wr (Reg.sluice_IMG_CMD r) (v &&& 0x80000001)).onSlu r fun u => { u with img := args }).setSlu r 2)

/-- The source of an image may be read (R166). -/
def Chip.imgSourceOk (c : Chip) (r src lo len : Nat) : Bool :=
  if src = 0 then lo % 64 == 0
  else
    let a := lo % 2 ^ 30
    let last := a + (len + 63) / 64
    decide (imageUnits ≤ a) && decide (last ≤ c.flGib 0 * 16777216) &&
      decide ((c.rd (Reg.sluice_FLUMEWIN_BASE r)).toNat ≤ a) && decide (last ≤ (c.rd (Reg.sluice_FLUMEWIN_LIM r)).toNat)

/-- The bytes an image load reads: from host memory, as the command brings them, or from the Flume; `none` when they
cannot be read. -/
def Chip.imgRead (c : Chip) (src lo len : Nat) (host : Option (List Byte)) : Option (List Byte) × Chip :=
  if !c.flReady then (none, c)
  else if src = 0 then (host.map fun b => slice b 0 len, c)
  else
    match c.flUnits 3 (lo % 2 ^ 30) ((len + 63) / 64) with
    | (true, c1) => (none, c1)
    | (false, c1) => (some (c1.flRead (64 * (lo % 2 ^ 30)) len), c1)

/-- The load ends refused: the previous contents are kept. -/
def Chip.imgRefuse (c : Chip) (r st : Nat) : Chip := (c.setSlu r 1).wr (Reg.sluice_IMG_STATUS r) (wd st)

/-- IMG_LOAD_DONE: the source is read into the sluice's image area and checked (R165, R166). -/
def State.imgLoadDone (s : State) (r : Nat) (host : Option (List Byte)) : State :=
  if s.chip.sluState r ≠ 2 then s
  else
    match (s.chip.slu1 r).img with
    | [src, _, lo, len] =>
      let c := (s.chip.wrF (Reg.sluice_IMG_CMD r) 31 31 0).onSlu r fun u => { u with img := [] }
      if !c.imgSourceOk r src lo len then { s with chip := c.imgRefuse r stBadArg }
      else match c.imgRead src lo len host with
        | (none, c1) => { s with chip := c1.imgRefuse r stAborted }
        | (some img, c1) =>
          let c2 := c1.flStore (64 * 16384 * r) img
          let st := if !(([1, 2, 3] : List Nat).contains s.aux.lifecycle) then stDenied
            else
              let st := s.aux.imgCheck r len img
              if st = stOk ∧ s.vault.state ≠ 1 then stAborted else st
          if st ≠ stOk then { s with chip := c2.imgRefuse r st }
          else { s with chip := (((c2.imgLoad r img).setSlu r 1).wr (Reg.sluice_IMG_STATUS r) 0).raise (Reg.pg_sluice r) 25 }
    | _ => s

/-! ## Control-store window (R167, R171) -/

/-- A write of CS_CMD of a sluice page. -/
def State.sluCsCmd (s : State) (r : Nat) (v : Word) : State :=
  let c := s.chip
  let a := c.rd (Reg.sluice_CS_ADDR r)
  let word := fld a 13 0
  let done := fun (c : Chip) (st : Nat) => (c.wr (Reg.sluice_CS_STATUS r) (wd st)).raise (Reg.pg_sluice r) 0
  let step := fun (c : Chip) => if bit a 31 then c.wrF (Reg.sluice_CS_ADDR r) 13 0 (word + 1) else c
  let rdB := bit v 1
  let wrB := bit v 0
  if !rdB && !wrB then s
  else if rdB && wrB then { s with chip := done c stBadArg }
  else if wrB then
    if r < 8 ∨ s.aux.lifecycle ≠ 3 ∨ c.sluState r ≠ 1 then { s with chip := done c stDenied }
    else
      let w := mwOfWords ((List.range 8).map fun i => c.rd (Reg.sluice_CS_DATA r i))
      let c1 := (c.onSlu r fun u => { u with cs := mset 0 u.cs word w, dbgWritten := true }).rewrite (Reg.pg_sluice r) 0 word
      { s with chip := done (step c1) stOk }
  else if !s.facility 2 then { s with chip := done c stDenied }
  else
    let (_, c0) := c.ecc (Reg.pg_sluice r) 0 word
    let w := mrd 0 (c0.slu1 r).cs word
    let c1 := (List.range 8).foldl (fun c i => c.wr (Reg.sluice_CS_DATA r i) (mwWord w i)) c0
    { s with chip := done (step c1) stOk }

/-! ## Data-SRAM window (R167, R170) -/

/-- The window of a sluice is open: the matrix decides for S0 to S7. -/
def State.dsOpen (s : State) (r : Nat) : Bool := decide (8 ≤ r) || s.facility 2

/-- DS_ADDR after an access to DS_DATA. -/
def Chip.dsStep (c : Chip) (r : Nat) : Chip :=
  let a := c.rd (Reg.sluice_DS_ADDR r)
  if bit a 31 then c.wrF (Reg.sluice_DS_ADDR r) 15 2 (fld a 15 2 + 1) else c

/-- A read of DS_DATA: `false` when it is refused. -/
def State.dsRead (s : State) (r : Nat) : Bool × Word × State :=
  if !s.dsOpen r then (false, 0, s)
  else
    let a := 4 * fld (s.chip.rd (Reg.sluice_DS_ADDR r)) 15 2
    let (_, c1) := s.chip.sluEcc r 1 (a / 8)
    (true, wd (beNat ((c1.slu1 r).dsBytes a 4)), { s with chip := c1.dsStep r })

/-- A write of DS_DATA: `false` when it is refused. -/
def State.dsWrite (s : State) (r : Nat) (v : Word) : Bool × State :=
  if !s.dsOpen r then (false, s)
  else
    let a := 4 * fld (s.chip.rd (Reg.sluice_DS_ADDR r)) 15 2
    (true, { s with chip := (s.chip.onSlu r fun u => { u with ds := dsPut u.ds a (wordBytesBE v) }).dsStep r })

/-! ## Soft reset of the page (R42, R161, R163) -/

/-- The reset starts: a running engine aborts with cause 9, an image load is given up, and the registers return to
reset while SL_STAT keeps the state. -/
def sluSoftReset (cv : CV) (k : Clk) (r : Nat) (clear : Chip → Chip) : CV :=
  let st := cv.1.sluState r
  let (c1, v1) := if st = 3 then sluAbort cv k r 9 (cv.1.slu1 r).last ((cv.1.slu1 r).th (cv.1.slu1 r).last).pc else cv
  let st1 := if c1.sluState r = 2 then 1 else c1.sluState r
  let cause := c1.rdF (Reg.sluice_SL_STAT r) 11 8
  let c2 := (clear c1).wr (Reg.sluice_SL_STAT r) (wd (st1 * 65536 + cause * 256))
  (c2.onSlu r fun u => { u.zero with img := [], due := [], halting := false }, v1)

/-- The reset completes: a customer sluice is STOPPED with its stores zero. -/
def Chip.sluResetDone (c : Chip) (r : Nat) : Chip :=
  if r < 8 then c
  else ((c.onSlu r fun u => { u with cs := [], ds := [], dbgWritten := false }).sluRewritten r).wr (Reg.sluice_SL_STAT r) 0x10000

end Sys2Proof.Machine
end

