-- ==== Sys2Proof/Machine/Epoch.lean ====
section
/-!
DEFINITION. Machine/Epoch.lean: configuration epochs, retirement, rollback, the undo journal's replay, and the
configuration images of boot flash (18_configuration_epochs.md R436 to R454).
-/
namespace Sys2Proof.Machine

abbrev pgEpoch : Nat := 0x005

/-! ## The machine's registers (R438, R453) -/

/-- EPOCH_STAT.STATE: 0 IDLE, 1 COPYING, 2 STAGING, 3 RETIRING. -/
def Chip.epState (c : Chip) : Nat := c.rdF Reg.epoch_EPOCH_STAT 31 28

/-- CUR. -/
def Chip.epCur (c : Chip) : Nat := c.rdF Reg.epoch_EPOCH_STAT 15 0

/-- The machine moved to a state. -/
def Chip.epGo (c : Chip) (st : Nat) : Chip := c.wrF Reg.epoch_EPOCH_STAT 31 28 st

/-- A command of EPOCH_CMD completes with a status. -/
def Chip.epDone (c : Chip) (st : Nat) : Chip :=
  ((c.wrF Reg.epoch_EPOCH_CMD 31 31 0).wr Reg.epoch_EPOCH_STATUS (wd st)).raise pgEpoch 0

/-! ## The in-flight count (R442) -/

/-- A header on the ingress path, from the parser output to W9, recirculation included (DEDUCED, log 46). -/
def Frame.inFlight (f : Frame) : Bool :=
  match f.pos with
  | .queue | .weir _ | .recirc => true
  | _ => false

/-- A copy between point 6 and the output of W14 or the end of its hold. -/
def Copy.inFlight (cp : Copy) : Bool :=
  match cp.pos with
  | .linking | .queued | .egress _ | .hold => true
  | _ => false

/-- INFLIGHT_CNT: what bears another epoch than CUR while the machine retires it. -/
def Chip.epInflight (c : Chip) : Nat :=
  if c.epState ≠ 3 then 0
  else
    (c.frames.filter fun kf => kf.2.inFlight && cEpoch kf.2.carry != c.epCur).length +
      (c.sw.copies.filter fun kc => kc.2.inFlight && cEpoch kc.2.carry != c.epCur).length

/-! ## Banks (R436) -/

/-- A key of the register store holds an RWE register. -/
def rweKey (a : Nat) : Bool :=
  bankedPage (a % 0x10000000 / 65536) && (match Reg.rowAt (a % 0x10000000) with | some r => r.rwe != 0 | none => false)

/-- Entries of a store that lie in bank `b`, bank B `stride` above bank A, replaced by those of the other bank. -/
def copyBank {α : Type} (m : SMap α) (stride : Nat) (b : Bool) (banked : Nat → Bool) : SMap α :=
  let inB (a : Nat) : Bool := decide (stride ≤ a)
  let kept := m.filter fun kv => inB kv.1 != b || !banked kv.1
  (m.filter fun kv => inB kv.1 != b && banked kv.1).foldl
    (fun acc kv => mput acc (if b then kv.1 + stride else kv.1 - stride) (some kv.2)) kept

/-- The idle bank takes what the active one holds: RWE registers, weir control stores, gate lists. -/
def Chip.bankCopy (c : Chip) : Chip :=
  let b := !c.bankB
  { c with
    regs := copyBank c.regs 0x10000000 b rweKey
    weirs := { c.weirs with cs := copyBank c.weirs.cs 524288 b fun _ => true }
    sw := { c.sw with gates := copyBank c.sw.gates 131072 b fun _ => true } }

/-! ## EPOCH_CMD (R438, R439) -/

/-- OPEN taken in IDLE. -/
def Chip.epOpen (c : Chip) : Chip :=
  let c1 := ((c.wr Reg.epoch_EPOCH_PREV (c.rd Reg.epoch_EPOCH_PREV &&& 0xFFFF)).wrF Reg.epoch_JNL_STAT 31 31 0).epGo 1
  { c1 with ep := { c1.ep with journal := [], noRollback := false } }

/-- The first boundary at least `n` beats after now. -/
def Chip.boundaryAfter (c : Chip) (k : Clk) (n : Nat) : Nat := if k.now ≤ c.lastBeat then c.beat + n else c.beat + n + 1

/-- What fails a command of EPOCH_CMD, in the order of R439; OK when nothing does. -/
def Chip.epTest (c : Chip) (op epoch : Nat) : Nat :=
  let next := (c.epCur + 1) % 65536
  if op = 0 ∨ 4 < op then stBadArg
  else if epoch ≠ (if op = 2 ∨ op = 3 then next else c.epCur) then stEpochStale
  else if c.epState ≠ (if op = 2 ∨ op = 3 then 2 else 0) then stBusy
  else if op = 4 ∧ !c.serves 3 then stBusy
  else if op = 4 ∧ !c.rdB Reg.epoch_EPOCH_PREV 30 then stDenied
  else stOk

/-- A command that passed its tests. -/
def Chip.epRun (c : Chip) (k : Clk) (op : Nat) : Chip :=
  match op with
  | 1 => (c.wrF Reg.epoch_EPOCH_CMD 31 31 1).epOpen
  | 2 => (c.epGo 0).epDone stOk
  | 3 => { c.wrF Reg.epoch_EPOCH_CMD 31 31 1 with ep := { c.ep with commitIn := some (c.boundaryAfter k 8, false) } }
  | _ => { c.wrF Reg.epoch_EPOCH_CMD 31 31 1 with ep := { c.ep with commitIn := some (c.beat + 1, true) } }

/-- A write of EPOCH_CMD: `false` when it is ignored with an access error of kind 5. -/
def Chip.epCmdWrite (c : Chip) (k : Clk) (agent : Nat) (v : Word) : Bool × Chip :=
  if agent ≠ 1 ∧ agent ≠ 17 then (false, c)
  else if c.rdB Reg.epoch_EPOCH_CMD 31 then
    (true, if bit v 31 then c.wr Reg.epoch_EPOCH_STATUS (wd stBusy) else c)
  else
    let c1 := c.wr Reg.epoch_EPOCH_CMD (v &&& 0x0F00FFFF)
    if !bit v 31 then (true, c1)
    else
      let st := c1.epTest (fld v 27 24) (fld v 15 0)
      (true, if st = stOk then c1.epRun k (fld v 27 24) else c1.epDone st)

/-- EPOCH_COPY_DONE. -/
def Chip.epCopyDone (c : Chip) : Chip :=
  if c.epState ≠ 1 then c
  else ((c.bankCopy.wrF Reg.epoch_EPOCH_PREV 15 0 ((c.epCur + 1) % 65536)).epGo 2).epDone stOk

/-! ## The commit beat (R440, R441, R444) -/

/-- Every reach switches bank. -/
def Chip.epSwitch (c : Chip) (k : Clk) (rollback : Bool) : Chip :=
  let old := c.epCur
  let c1 := (c.wr Reg.epoch_EPOCH_STAT (wd (0x30000000 + (if c.bankB then 0 else 65536) + (old + 1) % 65536))).wrF
    Reg.epoch_EPOCH_PREV 15 0 old
  let c2 : Chip := { c1 with ep := { c1.ep with
    commitIn := none
    dropping := false
    noRollback := rollback
    asmEpoch := (List.range 16).map fun r => (r, old) } }
  let c3 : Chip := if rollback then
      let c4 := (c2.wrF Reg.epoch_EPOCH_PREV 30 30 0).wrF Reg.epoch_JNL_STAT 31 30 1
      { c4 with ep := { c4.ep with
        replay := (List.zip (List.range c4.ep.journal.length) c4.ep.journal).reverse
        journal := [] } }
    else c2.raise pgEpoch 27
  (c3.schedCommit k).epDone stOk

/-- COMMIT_BEAT: boundary B of the COMMIT or ROLLBACK in progress has come. -/
def Chip.commitBeat (c : Chip) (k : Clk) : Chip :=
  match c.ep.commitIn with
  | some (_, rb) => c.epSwitch k rb
  | none => c

/-- The commit or rollback whose boundary is the present one. -/
def Chip.commitDue (c : Chip) (k : Clk) : Chip :=
  match c.ep.commitIn with
  | some (b, rb) => if b ≤ c.beat then c.epSwitch k rb else c
  | none => c

/-! ## Retirement (R438, R442, R443) -/

/-- Retirement ends: the machine is IDLE and the other bank is the previous epoch's. -/
def Chip.retired (c : Chip) : Chip :=
  let ok := !c.ep.noRollback && !c.rdB Reg.epoch_JNL_STAT 31
  let c1 := ((c.epGo 0).wr Reg.epoch_EPOCH_PREV
    (wd (0x80000000 + (if ok then 0x40000000 else 0) + c.rdF Reg.epoch_EPOCH_PREV 15 0))).raise pgEpoch 26
  { c1 with ep := { c1.ep with dropping := false } }

/-- RETIRE_DONE: the in-flight count has reached 0. -/
def Chip.retireDone (c : Chip) : Chip :=
  if c.epState = 3 ∧ !c.ep.dropping ∧ c.epInflight = 0 then c.retired else c

/-- RETIRE_DROPS_DONE: the retirement drops are complete. -/
def Chip.retireDropsDone (c : Chip) : Chip :=
  if c.epState = 3 ∧ c.ep.dropping ∧ c.epInflight = 0 then c.retired else c

/-- A carry of an old epoch is marked with EPOCH_RETIRED where it holds no reason yet. -/
def markRetired (cur : Nat) (m : SMap Byte) : SMap Byte := if cEpoch m = cur then m else csetDrop m drEpoch

/-- Headers of old-epoch bundles in the weirs are marked, ingress and egress. -/
def Chip.markBundles (c : Chip) : Chip :=
  let cur := c.epCur
  { c with
    frames := c.frames.map fun kf => (kf.1, match kf.2.pos with
      | .weir _ => { kf.2 with carry := markRetired cur kf.2.carry }
      | _ => kf.2)
    sw := { c.sw with copies := c.sw.copies.map fun kc => (kc.1, match kc.2.pos with
      | .egress _ => { kc.2 with carry := markRetired cur kc.2.carry }
      | _ => kc.2) } }

/-- The retirement drops (R443): headers that wait, bundles, held level copies, and queued copies, spilled ones too. -/
def Chip.retireDrops (c : Chip) (k : Clk) : Chip :=
  let cur := c.epCur
  let hdrs := (c.frames.filter fun kf => (kf.2.pos == .queue || kf.2.pos == .recirc) && cEpoch kf.2.carry != cur).map (·.1)
  let c1 := hdrs.foldl (fun c fid =>
    let c' := c.dropFrame k fid drEpoch 0x7FF 82
    { c' with reaches := c'.reaches.map fun p => { p with hq := p.hq.filter (· != fid) } }) c
  let c2 := c1.markBundles
  let c3 := c2.killCopies k (fun cp => cp.pos == .hold && cEpoch cp.carry != cur) drEpoch false
  let c4 := c3.killCopies k (fun cp => (cp.pos == .queued || cp.pos == .linking) && cEpoch cp.carry != cur) drEpoch true
  let gone := fun cid => (mget c4.sw.copies cid).isSome
  { c4 with
    sw := { c4.sw with hold := c4.sw.hold.filter gone }
    ep := { c4.ep with dropping := true } }

/-- RETIRE_TIMEOUT: 50 µs after B with packets left. -/
def Chip.retireTimeout (c : Chip) (k : Clk) : Chip :=
  if c.epState = 3 ∧ !c.ep.dropping ∧ c.epInflight ≠ 0 then
    ((c.raise pgEpoch 25).count Reg.epoch_RETIRE_TMO_CNT 1).retireDrops k
  else c

/-- An uncorrectable error in the epoch state or the in-flight counters retires the old bank at once (R454). -/
def Chip.epochBad (c : Chip) (k : Clk) : Chip :=
  if c.epState = 3 ∧ !c.ep.dropping then c.retireDrops k else c

/-! ## Replay (R447) -/

/-- A restoring command carried out: its status and the device. -/
def Chip.undoEm (c : Chip) (k : Clk) (b : List Byte) : Nat × Chip :=
  let cmd : TblCmd := { agent := sluiceAgent 3, dma := false, blk := b, dest := .sluice 3 0 }
  match c.emAdmit cmd with
  | 0 =>
    match c.emDo k cmd with
    | (some r, c1) => (blkNat r 3 1, c1)
    | (none, c1) =>
      let c2 : Chip := { c1 with tbl := { c1.tbl with emPend := c.tbl.emPend } }
      let r := c2.emS3Insert k cmd (blkInst b)
      (blkNat r.1 3 1, r.2)
  | st => (st, c)

/-- A restoring prefix command. -/
def Chip.undoPfx (c : Chip) (k : Clk) (b : List Byte) : Nat × Chip :=
  let cmd : TblCmd := { agent := sluiceAgent 3, dma := false, blk := b, dest := .sluice 3 0 }
  match c.pfxAdmit cmd with
  | 0 =>
    let r := c.pfxDo k cmd
    (blkNat r.1 3 1, r.2)
  | st => (st, c)

/-- The BEFORE image of an exact-match record as a command block of an operation. -/
def undoEmBlk (b : List Byte) (op : Nat) : List Byte :=
  let b0 := blkPut (blkPut b 0 (beBytes 1 op)) 3 [0]
  let b1 := blkPut (blkPut b0 4 (List.replicate 4 0)) 44 (List.replicate 4 0)
  blkPut b1 56 (List.replicate 8 0)

/-- The BEFORE image of a prefix record as a command block of an operation. -/
def undoPfxBlk (b : List Byte) (op : Nat) : List Byte :=
  let b0 := blkPut (blkPut b 0 (beBytes 1 op)) 3 [0]
  blkPut b0 32 (List.replicate 32 0)

/-- A prefix restored as it stood: its data, then its pin. -/
def Chip.undoPrefix (c : Chip) (k : Clk) (j : JRec) : Nat × Chip :=
  let b := j.before
  let v6 := blkKind b == 3
  let key := pfxKey v6 (pfxVrf b) (pfxAddr v6 b) (pfxLen b)
  if !j.present then c.undoPfx k (undoPfxBlk b 2)
  else
    let (st, c1) := c.undoPfx k (undoPfxBlk b (if (mget c.tbl.pfx key).isSome then 4 else 1))
    let want := (BitVec.ofNat 64 (blkNat b 40 8)).getLsbD 61
    match mget c1.tbl.pfx key with
    | some r => if st ≠ stOk ∨ r.pinned = want then (st, c1) else c1.undoPfx k (undoPfxBlk b (if want then 12 else 13))
    | none => (st, c1)

/-- The word of a kind 5 or 6 record written back. -/
def Chip.undoWord (c : Chip) (j : JRec) : Chip :=
  let w := wd (blkNat j.before 0 4)
  let i := blkNat j.before 4 4
  match j.kind, j.op with
  | 5, 1 => { c with weirs := { c.weirs with indE := mset 0 c.weirs.indE i w } }
  | 5, _ => { c with weirs := { c.weirs with indG := mset 0 c.weirs.indG i w } }
  | _, 1 => { c with sw := { c.sw with groups := mset 0 c.sw.groups i w } }
  | _, _ => { c with sw := { c.sw with members := mset 0 c.sw.members i w } }

/-- One record undone: status and device. -/
def Chip.undo (c : Chip) (k : Clk) (j : JRec) : Nat × Chip :=
  match j.kind with
  | 1 =>
    let here := (c.emFind (blkInst j.before) (slice j.before 8 16)).isSome
    c.undoEm k (undoEmBlk j.before (if !j.present then 2 else if here then 4 else 1))
  | 2 | 3 => c.undoPrefix k j
  | 4 =>
    let r := c.cam4Do k { agent := sluiceAgent 3, dma := false, blk := blkPut (blkPut j.before 0 [9]) 3 [0], dest := .sluice 3 0 }
    (blkNat r.1 3 1, r.2)
  | _ => (stOk, c.undoWord j)

/-- A restore that did not end OK. -/
def Chip.undoFail (c : Chip) (seq : Nat) : Chip :=
  let c1 := (c.count Reg.epoch_JNL_UNDO_FAIL_CNT 1).raise pgEpoch 22
  if c1.rdB Reg.epoch_JNL_FAIL_SEQ 31 then c1 else c1.wr Reg.epoch_JNL_FAIL_SEQ (wd (0x80000000 + seq))

/-- JOURNAL_REPLAY: S3 restores the before-images, last record first. -/
def Chip.journalReplay (c : Chip) (k : Clk) : Chip :=
  if !c.rdB Reg.epoch_JNL_STAT 30 || !c.serves 3 then c
  else
    let c1 := c.ep.replay.foldl (fun c sj =>
      let (st, c') := c.undo k sj.2
      if st = stOk then c' else c'.undoFail sj.1) c
    ({ c1 with ep := { c1.ep with replay := [] } }.wrF Reg.epoch_JNL_STAT 30 30 0).raise pgEpoch 24

/-! ## Soft resets (R448) -/

/-- Soft reset of the EPOCH page: `clear` returns its other registers to reset. A command in progress ends ABORTED,
COPYING and STAGING end as for ABORT; CUR, the banks, the previous epoch's record, the journal and a retirement stay. -/
def Chip.epochReset (c : Chip) (clear : Chip → Chip) : Chip :=
  let busy := c.rdB Reg.epoch_EPOCH_CMD 31
  let st := c.rd Reg.epoch_EPOCH_STAT
  let prev := c.rd Reg.epoch_EPOCH_PREV
  let jnl := c.rd Reg.epoch_JNL_STAT
  let c1 := (((clear c).wr Reg.epoch_EPOCH_STAT st).wr Reg.epoch_EPOCH_PREV prev).wr Reg.epoch_JNL_STAT jnl
  let c2 := if c1.epState = 1 ∨ c1.epState = 2 then c1.epGo 0 else c1
  let c3 : Chip := { c2 with ep := { c2.ep with commitIn := none } }
  if busy then c3.wr Reg.epoch_EPOCH_STATUS (wd stAborted) else c3

/-- A page of R436 was soft-reset: the previous epoch is lost. -/
def Chip.bankLost (c : Chip) : Chip :=
  let c1 := c.wrF Reg.epoch_EPOCH_PREV 31 30 0
  if c1.epState = 3 then { c1 with ep := { c1.ep with noRollback := true } } else c1

/-! ## Configuration images (R449 to R452) -/

/-- The header of an image: MAGIC, FORMAT (16 bits and two zero bytes), GENERATION, LENGTH and digest (log 47). -/
def cfgHeader (gen : Nat) (body : List Byte) : List Byte :=
  beBytes 4 0x4F434647 ++ beBytes 2 1 ++ [0, 0] ++ beBytes 4 gen ++ beBytes 4 body.length ++ Crypto.sha384 body

/-- The body of an image. -/
def cfgBody (img : List Byte) : List Byte := (img.drop 64).take (beNat (slice img 12 4))

/-- Status of an image as stored: BAD_ARG for its form, INTEGRITY for its digest. -/
def cfgCheck (img : List Byte) : Nat :=
  if beNat (slice img 0 4) ≠ 0x4F434647 ∨ beNat (slice img 4 4) ≠ 0x10000 ∨ img.length < 64 + beNat (slice img 12 4) then stBadArg
  else if Crypto.sha384 (cfgBody img) ≠ slice img 16 48 then stIntegrity
  else stOk

/-- Images of a slot of the configuration area, newest first; slot 4 holds journal images. -/
def Chip.flashSlot (c : Chip) (slot : Nat) : List (Nat × List Byte) := (mget c.flash slot).getD []

/-- A body stored as the next generation of a slot. -/
def Chip.flashPut (c : Chip) (slot : Nat) (body : List Byte) : Chip :=
  let gen := match c.flashSlot slot with | (g, _) :: _ => g + 1 | [] => 1
  { c with flash := mput c.flash slot (some ((gen, cfgHeader gen body ++ body) :: c.flashSlot slot)) }

/-- S0 answers on mailbox 1. -/
def Chip.s0Reply (c : Chip) (op st : Nat) (body : List Byte) : Chip := c.emit (.reply 1 op st body)

/-- The bytes a request names: in the Flume, or what the host's memory returned. -/
def Chip.s0Source (c : Chip) (flume : Bool) (addr len : Nat) (host : List Byte) : Nat × List Byte × Chip :=
  if !flume then (stOk, host, c)
  else
    let u := addr / 64
    let n := if len = 0 then 0 else (addr + len - 1) / 64 + 1 - u
    if n ≠ 0 ∧ (!c.flMay 0 false u || !c.flMay 0 false (u + n - 1)) then (stDenied, [], c)
    else if !c.flReady then (stAborted, [], c)
    else
      let (bad, c1) := c.flUnits 3 u n
      (if bad then stIntegrity else stOk, c1.flRead addr len, c1)

/-- CFG_WRITE: the image is stored as the next generation of a slot. -/
def Chip.cfgWrite (c : Chip) (slot : Nat) (flume : Bool) (addr len : Nat) (host : List Byte) : Chip :=
  if !c.serves 0 then c
  else
    let (st, img, c1) := c.s0Source flume addr len host
    if st ≠ stOk then c1.s0Reply 0x0201 st []
    else
      let st2 := cfgCheck img
      if st2 ≠ stOk then c1.s0Reply 0x0201 st2 [] else (c1.flashPut slot (cfgBody img)).s0Reply 0x0201 stOk []

/-- CFG_READ: the newest image of a slot to host memory; BAD_ARG when it does not fit in the length given. -/
def Chip.cfgRead (c : Chip) (slot addr len : Nat) : Chip :=
  if !c.serves 0 then c
  else match c.flashSlot slot with
    | [] => c.s0Reply 0x0202 stNotFound []
    | (_, img) :: _ =>
      if len < img.length then c.s0Reply 0x0202 stBadArg [] else (c.emit (.host addr img)).s0Reply 0x0202 stOk []

/-- A record of a configuration image: type and length, then its data (log 47). -/
def cfgRecord (typ : Nat) (data : List Byte) : List Byte := beBytes 2 typ ++ beBytes 2 data.length ++ data

/-- Type 1: a register write. -/
def cfgReg (a : Nat) (v : Word) : List Byte := cfgRecord 1 (beBytes 4 a ++ wordBytesBE v)

/-- Type 2: a control-store word. -/
def cfgWord (r w word : Nat) (v : BitVec 256) : List Byte :=
  cfgRecord 2 (beBytes 1 r ++ beBytes 1 w ++ beBytes 2 word ++ beBytes 32 v.toNat)

/-- A gate-list entry as the writes of the GATE window that store it (R302). -/
def cfgGate (key : Nat) (g : Gate) : List Byte :=
  let r := key / 8192 % 16
  cfgReg (Reg.sched_GATE_ADDR r) (wd (key / 64 % 128 * 256 + key % 64)) ++ cfgReg (Reg.sched_GATE_DATA_OPEN r) (wd g.open_) ++
    cfgReg (Reg.sched_GATE_DATA_CLOSE r) (wd g.close) ++ cfgReg (Reg.sched_GATE_DATA_MASK r) g.ctl ++
    cfgReg (Reg.sched_GATE_CMD r) 1

/-- The active bank as records: every RWE register, control-store word and gate away from its reset value (log 47). -/
def Chip.cfgActive (c : Chip) : List Byte :=
  let b := c.bankB
  let inBank (stride a : Nat) : Bool := decide (stride ≤ a) == b
  let regs := (c.regs.filter fun kv => inBank 0x10000000 kv.1 && rweKey kv.1).map fun kv => cfgReg (kv.1 % 0x10000000) kv.2
  let words := (c.weirs.cs.filter fun kv => inBank 524288 kv.1).map fun kv =>
    cfgWord (kv.1 / 32768 % 16) (kv.1 / 2048 % 16) (kv.1 % 2048) kv.2
  let gates := (c.sw.gates.filter fun kv => inBank 131072 kv.1).map fun kv => cfgGate kv.1 kv.2
  regs.flatten ++ words.flatten ++ gates.flatten

/-- CFG_SAVE_ACTIVE. -/
def Chip.cfgSaveActive (c : Chip) (slot : Nat) : Chip :=
  if !c.serves 0 then c else (c.flashPut slot c.cfgActive).s0Reply 0x0203 stOk []

/-- JNL_SAVE: the current segment as a journal image. -/
def Chip.jnlSave (c : Chip) : Chip :=
  if !c.serves 0 then c
  else
    let body := ((List.zip (List.range c.ep.journal.length) c.ep.journal).map fun ij => ij.2.bytes ij.1).flatten
    (c.flashPut 4 body).s0Reply 0x0204 stOk []

/-- FLASH_ERASE: S0 erases the oldest freed generation of a slot. -/
def Chip.flashErase (c : Chip) (slot : Nat) : Chip :=
  match c.flashSlot slot with
  | x :: y :: l => if c.serves 0 then { c with flash := mput c.flash slot (some (x :: (y :: l).dropLast)) } else c
  | _ => c

end Sys2Proof.Machine
end

