-- ==== Sys2Proof/Machine/Power.lean ====
section
/-!
DEFINITION. Machine/Power.lean: the power cap, paces, droop, pace groups and thermal control
(19_power_and_thermal.md R455 to R479).
-/
namespace Sys2Proof.Machine

abbrev pgPwr : Nat := 0x002
abbrev pgTherm : Nat := 0x007

/-! ## Cap and budgets (R456)

Powers are compared in units of 0.1 W / 20,480, in which a budget and an estimate with M = 1 are whole. -/

/-- The effective cap C, in W. -/
def Chip.capC (c : Chip) : Nat :=
  let th := c.rdF Reg.therm_THERM_STAT 9 0
  if c.rdB Reg.pwr_CAP_CTL 31 then min (max 400 (min 820 (c.rdF Reg.pwr_CAP_CTL 9 0))) th else th

/-- Budget of domain `d`. -/
def Chip.budget (c : Chip) (d : Nat) : Nat := c.capC * (c.pwr.fracs[d]?.getD 0) * 1024

/-- G, in units of 2^-12. -/
def Chip.gain (c : Chip) : Nat := c.rdF Reg.pwr_CAL_STAT 13 0

/-- Σ G × raw, in units of 0.1 W / 4,096. -/
def Chip.rawTotal (c : Chip) : Nat := c.gain * c.pwr.raw.foldl (· + ·) 0

/-- The enforced estimate of domain `d` (R457): raw × G × M; M exceeds 1 only under divergence, and R459 leaves it out while
no valid window arrives. -/
def Chip.est (c : Chip) (d : Nat) : Nat :=
  let x := 5 * c.gain * (c.pwr.raw[d]?.getD 0)
  let meas := 4096 * c.rdF Reg.pwr_PMB_MEAS 15 0
  if c.rdB Reg.pwr_CAL_STAT 31 && decide (c.pwr.missing < 4) && decide (c.rawTotal < meas) && c.rawTotal != 0 then
    x * meas / c.rawTotal
  else x

/-- A power in 0.1 W, floored, as a 16-bit field. -/
def tenths (x : Nat) : Nat := min 65535 (x / 20480)

/-- ESTIMATE_TICK: the raw estimates of the last 100 µs; DOM_EST and TOT_EST follow. The estimate of LANE is watched for
the 1 ms of R460. -/
def Chip.estimateTick (c : Chip) (k : Clk) (raw : List Nat) : Chip :=
  let c1 : Chip := { c with pwr := { c.pwr with raw } }
  let c2 := (List.range 7).foldl (fun c d =>
    c.wr (Reg.pwr_DOM_EST d) (wd (tenths (c.budget d) * 65536 + tenths (c.est d)))) c1
  let sum := (List.range 7).foldl (fun n d => n + c2.est d) 0
  let c3 := c2.wr Reg.pwr_TOT_EST (wd (tenths (5 * c2.rawTotal) * 65536 + tenths sum))
  let low := decide (100 * c3.est 0 < 95 * c3.budget 0)
  { c3 with pwr := { c3.pwr with laneLow := if !low then none else match c3.pwr.laneLow with
    | some t => some t
    | none => some k.now } }

/-! ## Calibration (R457 to R459) -/

/-- FROZEN follows divergence, missing windows and FREEZE. -/
def Chip.calFrozen (c : Chip) : Chip :=
  c.wrF Reg.pwr_CAL_STAT 30 30 (c.rdB Reg.pwr_CAL_STAT 31 || c.pwr.pmbFrozen || c.rdB Reg.pwr_CAL_CTL 8).toNat

/-- Some PMB_DEV is enabled. -/
def Chip.pmbEnabled (c : Chip) : Bool := (List.range 8).any fun i => c.rdB (Reg.pwr_PMB_DEV i) 31

/-- A missing window. -/
def Chip.pmbMissing (c : Chip) : Chip :=
  let n := clampTo 4 (c.pwr.missing + 1)
  let c1 := ((c.count Reg.pwr_PMB_ERR_CNT 1).wrF Reg.pwr_PMB_MEAS 31 31 0).wrF Reg.pwr_CAL_STAT 18 16 0
  let c2 : Chip := { c1 with pwr := { c1.pwr with missing := n } }
  if n = 4 ∧ c.pwr.missing ≠ 4 then
    ({ c2 with pwr := { c2.pwr with pmbFrozen := true } }.raise pgPwr 25).calFrozen
  else c2

/-- The gain after a window that is not divergent: G + (meas / Σraw − G) / 8, clamped to 0.5 to 2.0. With Σraw = 0 the spec
states no quotient: a free value stands for it. -/
def Chip.gainStep (c : Chip) (meas mean : Nat) : Chip :=
  let g := c.gain
  let (q, c1) := if mean = 0 then (c.free.1.toNat, c.free.2) else (4096 * meas / mean, c)
  let v := if mean = 0 then (7 * g + q) / 8 else (7 * g * mean + 4096 * meas) / (8 * mean)
  c1.wrF Reg.pwr_CAL_STAT 13 0 (max 2048 (min 8192 v))

/-- A divergent window. -/
def Chip.pmbDivergent (c : Chip) (meas mean : Nat) : Chip :=
  let n := clampTo 4 (c.rdF Reg.pwr_CAL_STAT 18 16 + 1)
  let c1 := c.wrF Reg.pwr_CAL_STAT 18 16 n
  if n = 4 ∧ !c1.rdB Reg.pwr_CAL_STAT 31 then
    let c2 := ((c1.wrF Reg.pwr_CAL_STAT 31 31 1).raise pgPwr 26).calFrozen
    if c2.serves 6 then
      c2.emit (.notice 13 0x0102 (beBytes 4 (mean * c2.gain / 4096) ++ beBytes 4 meas ++ beBytes 4 c2.gain))
    else c2
  else c1

/-- PMBUS_WINDOW: the measured power of the window, `none` when an enabled regulator gave no valid reading, and the mean of
Σ raw over it, both in 0.1 W. -/
def Chip.pmbusWindow (c : Chip) (meas : Option Nat) (mean : Nat) : Chip :=
  if !c.pmbEnabled then c
  else match meas with
    | none => c.pmbMissing
    | some m0 =>
      let m := m0 % 65536
      let c1 : Chip := ({ c with pwr := { c.pwr with missing := 0, pmbFrozen := false } }.wr Reg.pwr_PMB_MEAS
        (wd (0x80000000 + m))).calFrozen
      let e := mean * c1.gain
      let diff := if 4096 * m ≤ e then e - 4096 * m else 4096 * m - e
      if 12 * 4096 * m < 100 * diff then c1.pmbDivergent m mean
      else
        let c2 := c1.wrF Reg.pwr_CAL_STAT 18 16 0
        if c2.rdB Reg.pwr_CAL_STAT 30 then c2 else c2.gainStep m mean

/-- A write of CAL_CTL: FREEZE is kept, and CLR ends a divergence and every freeze but FREEZE's. -/
def Chip.calCtlWrite (c : Chip) (v : Word) : Chip :=
  let c1 := c.wr Reg.pwr_CAL_CTL (v &&& 0x100)
  if bit v 0 then
    ({ c1 with pwr := { c1.pwr with pmbFrozen := false } }.wr Reg.pwr_CAL_STAT
      (c1.rd Reg.pwr_CAL_STAT &&& 0x3FFF)).calFrozen
  else c1.calFrozen

/-- An uncorrectable error in the coefficients or the gain (R477). -/
def Chip.pwrBad (c : Chip) : Chip := ((c.wrF Reg.pwr_CAL_STAT 13 0 4096).wrF Reg.pwr_CAL_STAT 31 31 1).calFrozen

/-- PWR_ALERT_N is asserted (R458, R460). -/
def Chip.pwrAlert (c : Chip) : Bool := c.rdB Reg.pwr_CAL_STAT 31 || c.rdB Reg.pwr_PACE_STAT 1

/-! ## APPLY (R456) -/

/-- The fractions as FRAC0 and FRAC1 hold them. -/
def Chip.fracRegs (c : Chip) : List Nat :=
  let a := c.rd Reg.pwr_FRAC0
  let b := c.rd Reg.pwr_FRAC1
  [fld a 31 24, fld a 23 16, fld a 15 8, fld a 7 0, fld b 23 16, fld b 15 8, fld b 7 0]

/-- FRAC_CMD.APPLY. -/
def Chip.fracApply (c : Chip) : Chip :=
  if c.fracRegs.foldl (· + ·) 0 = 200 then { c with pwr := { c.pwr with fracs := c.fracRegs } } else c.raise pgPwr 22

/-- CAP_CTL, FRAC0, FRAC1 and FRAC_CMD accept agents 1 and 23 only. -/
def capAgent (agent : Nat) : Bool := agent == 1 || agent == 23

/-! ## The enforcement decision (R460, R461) -/

/-- PM_REQ of a logical port written by S6. -/
def Chip.pmReq (c : Chip) (k : Clk) (lp : Nat) (on : Bool) : Chip :=
  c.pwrReqWrite k (sluiceAgent 6) (lp / 8) (lp % 8) (setFld (c.rd (Reg.port_PWR_REQ (lp / 8) (lp % 8))) 8 8 on.toNat)

/-- Logical ports a QUIET request is left for: UP, idle for QUIET_IDLE, PM_REQ still ACTIVE; highest number first. -/
def Chip.quietable (c : Chip) (idle : List Nat) : List Nat :=
  (List.range 1152).reverse.filter fun lp =>
    idle.contains lp && c.lpActive lp && c.linkSt lp == 7 && !c.rdB (Reg.port_PWR_REQ (lp / 8) (lp % 8)) 8

/-- The LANE lever: what it passes to the pace lever. Every eligible port goes QUIET, because the estimate follows only at
the next ticks; the excess is passed once none is left (DEDUCED, log 48). Above 125 °C every idle port goes QUIET too (R472). -/
def Chip.leverLane (c : Chip) (k : Clk) (idle : List Nat) : Nat × Chip :=
  if !c.serves 6 then (c.est 0 - c.budget 0, c)
  else
    let q := c.quietable idle
    let hot := c.rdB Reg.therm_THERM_STAT 31
    let above := decide (c.budget 0 < c.est 0)
    let rest := match c.pwr.laneLow with | some t => decide (1000000 * rtNs ≤ k.now - t) | none => false
    if above || hot then
      let c1 := q.foldl (fun c lp => c.pmReq k lp true) c
      (if q.isEmpty && above then c.est 0 - c.budget 0 else 0, { c1 with pwr := { c1.pwr with quiet := q.reverse ++ c1.pwr.quiet } })
    else if rest then
      let c1 := c.pwr.quiet.foldl (fun c lp => c.pmReq k lp false) c
      (0, { c1 with pwr := { c1.pwr with quiet := [] } })
    else (0, c)

/-- The FLUME lever: one step per decision, and what it passes at the deepest step. -/
def Chip.leverFlume (c : Chip) : Nat × Chip :=
  let e := c.est 5
  let b := c.budget 5
  let st := c.pwr.flStep
  if b < e then
    if st = 4 then (e - b, c) else (0, { c with pwr := { c.pwr with flStep := st + 1 } })
  else if 100 * e < 95 * b then (0, { c with pwr := { c.pwr with flStep := st - 1 } })
  else (0, c)

/-- S and B of the pace lever, given what the LANE and FLUME levers pass; PLAT passes all its excess. -/
def Chip.paceSB (c : Chip) (passed : Nat) : Nat × Nat :=
  let s := [1, 2, 3, 4].foldl (fun n d => n + c.est d) (passed + (c.est 6 - c.budget 6))
  let b := [1, 2, 3, 4].foldl (fun n d => n + c.budget d) 0
  (s, b)

/-- Whether one step faster would hold S within 0.97 B (R461). -/
def fasterOk (pace s b : Nat) : Bool := decide (0 < pace) && decide (100 * s * clockUnits pace ≤ 97 * b * clockUnits (pace - 1))

/-- The pace lever: the cap demand, and CAP_UNMET. -/
def Chip.leverPace (c : Chip) (s b : Nat) (deepest : Bool) : Chip :=
  let p := c.pace
  let run := if fasterOk p s b then clampTo 2 (c.pwr.fasterRun + 1) else 0
  let demand := if b < s then min 4 (p + 1) else if run = 2 then p - 1 else p
  let unmet := if b < s then (if p = 4 ∧ deepest then clampTo 10 (c.pwr.unmetRun + 1) else 0) else 0
  let c1 : Chip := { c.wrF Reg.pwr_PACE_STAT 14 12 demand with pwr := { c.pwr with fasterRun := run, unmetRun := unmet } }
  if s ≤ b then c1.wrF Reg.pwr_PACE_STAT 1 1 0
  else if unmet = 10 ∧ !c1.rdB Reg.pwr_PACE_STAT 1 then
    let c2 := (c1.wrF Reg.pwr_PACE_STAT 1 1 1).raise pgPwr 27
    if c2.serves 6 then c2.emit (.notice 13 0x0101 (beBytes 4 (tenths s) ++ beBytes 4 (tenths b) ++ beBytes 4 p)) else c2
  else c1

/-- The enforcement decision. While S6 does not run the hardware throttles the Flume at the last fractions, and the cap
demand and PM_REQ stay (R168, R475). -/
def Chip.decide_ (c : Chip) (k : Clk) (idle : List Nat) : Chip :=
  let (x, c1) := c.leverLane k idle
  let (y, c2) := c1.leverFlume
  if !c2.serves 6 then c2
  else
    let (s, b) := c2.paceSB (x + y)
    c2.leverPace s b ((c.quietable idle).isEmpty && c.pwr.flStep == 4)

/-! ## Target, groups, and the pace machine (R462 to R470) -/

/-- The device's own target pace. -/
def Chip.paceTarget (c : Chip) : Nat :=
  max (min 3 (c.rdF Reg.pwr_PACE_REQ 2 0)) (max (c.rdF Reg.pwr_PACE_STAT 14 12) (c.rdF Reg.therm_THERM_STAT 26 24))

/-- The device follows its group: it is in one, and not ALONE. -/
def Chip.inGroup (c : Chip) : Bool := c.rdB Reg.pwr_GRP_CTL 31 && !c.rdB Reg.pwr_GRP_STAT 31

/-- The pace the machine moves to: the target, or DECIDED in a group; a group that has decided nothing keeps the pace. -/
def Chip.paceWant (c : Chip) : Nat :=
  if !c.inGroup then c.paceTarget else if c.pwr.decidedValid then c.rdF Reg.pwr_PACE_STAT 6 4 else c.pace

/-- One step from `p` towards `t`. -/
def paceStep (p t : Nat) : Nat := if p < t then p + 1 else if t < p then p - 1 else p

/-- PACE_STAT.STATE: 0 STEADY, 1 ARMED, 2 DEFERRED. -/
def Chip.paceState (c : Chip) : Nat := c.rdF Reg.pwr_PACE_STAT 31 28

/-- The machine in ARMED, with the spare PLL on its way to the next pace. -/
def Chip.paceArm (c : Chip) : Chip :=
  let n := paceStep c.pace c.paceWant
  let spare := match c.pwr.spare with
    | some (q, l) => if q = n then some (q, l) else some (n, false)
    | none => some (n, false)
  { c.wrF Reg.pwr_PACE_STAT 31 28 1 with pwr := { c.pwr with spare } }

/-- The machine in STEADY, with the spare PLL released. -/
def Chip.paceSteady (c : Chip) : Chip := { c.wrF Reg.pwr_PACE_STAT 31 28 0 with pwr := { c.pwr with spare := none } }

/-- PACE_STAT shows the target and the thermal demand; an ARMED machine whose target is the present pace is STEADY. -/
def Chip.paceShow (c : Chip) : Chip :=
  let c1 := (c.wrF Reg.pwr_PACE_STAT 22 20 c.paceTarget).wrF Reg.pwr_PACE_STAT 10 8 (c.rdF Reg.therm_THERM_STAT 26 24)
  if c1.paceState = 1 ∧ c1.paceWant = c1.pace ∧ c1.pwr.switchTo.isNone then c1.paceSteady else c1

/-- PACE_PERIOD in units of 100 µs (R463). -/
def Chip.pacePeriod (c : Chip) : Nat :=
  let n := c.rdF Reg.pwr_PACE_CFG 6 0
  if [1, 2, 4, 5, 10, 20, 25, 50, 100].contains n then n else 1

/-- The next pace instant at the present rate, in real time. -/
def Chip.nextInstant (c : Chip) (k : Clk) : Nat :=
  let p := c.pacePeriod * 100000 * nsU
  let d := (k.tod / p + 1) * p - k.tod
  let rate := (256000000000 + k.freq).toNat
  k.now + (d + rate - 1) / rate

/-- A pace change at a beat boundary. -/
def Chip.paceSwitch (c : Chip) (k : Clk) (n : Nat) : Chip :=
  let c1 := ((c.wrF Reg.pwr_PACE_STAT 26 24 n).raise pgPwr 24).count Reg.pwr_PACE_CNT 1
  { c1 with pwr := { c1.pwr with switchTo := none, lastChange := some k.now, spare := none } }

/-- DROOP has been clear for at least 1 µs. -/
def Chip.droopCalm (c : Chip) (k : Clk) : Bool :=
  !c.droop && (match c.pwr.droopClear with | some t => decide (1000 * rtNs ≤ k.now - t) | none => true)

/-- The pace machine at an instant (R464). A switch waits for the first beat boundary at or after it. -/
def Chip.paceMachine (c : Chip) (k : Clk) : Chip :=
  match c.paceState with
  | 0 => if c.paceWant = c.pace then c else c.paceArm
  | 1 =>
    let n := paceStep c.pace c.paceWant
    if c.paceWant = c.pace then c.paceSteady
    else if !c.droopCalm k then
      ((c.wrF Reg.pwr_PACE_STAT 31 28 2).raise pgPwr 23).count Reg.pwr_DEFER_CNT 1
    else
      let due : Bool := match c.pwr.lastChange with | some t => decide (100000 * nsU ≤ k.span (k.now - t)) | none => true
      if c.pwr.spare = some (n, true) ∧ due then
        let c1 := c.wrF Reg.pwr_PACE_STAT 31 28 0
        if k.now ≤ c.lastBeat then c1.paceSwitch k n else { c1 with pwr := { c1.pwr with switchTo := some n } }
      else c.paceArm
  | _ => c

/-- The switch that waits for the present boundary. -/
def Chip.paceDue (c : Chip) (k : Clk) : Chip :=
  match c.pwr.switchTo with
  | some n => c.paceSwitch k n
  | none => c

/-- The clocks of the beats that ran stretched are counted (R466). -/
def Chip.droopClocks (c : Chip) (beats : Nat) : Chip := if c.droop then c.count Reg.pwr_DROOP_CLK_CNT (8 * beats) else c

/-- A boundary of the core's beats: the first one after the last that is not before the present time (R16). The pace
change and the commit that wait for it take effect, then every reach advances (R440, R463). -/
def State.beatBoundary (s : State) : State :=
  if !s.coreOn then s
  else
    let u := s.chip.beatUnits
    let n := max 1 ((s.clk.now - s.chip.lastBeat + u - 1) / u)
    let at_ := s.chip.lastBeat + n * u
    let k := s.clk.advance at_
    let c : Chip := { s.chip.droopClocks n with lastBeat := at_, beat := s.chip.beat + n }
    { s with clk := k, chip := ((c.paceDue k).commitDue k).beatAll k }

/-- CRC-5 of a pace-group frame over bits [27:5], MSB first (R468). -/
def crc5 (w : Word) : Nat :=
  (List.range 23).foldl (fun crc i =>
    let fb := (bit w (27 - i)) != crc.testBit 4
    ((2 * crc) % 32) ^^^ (if fb then 5 else 0)) 31

/-- A pace-group frame with its CRC. -/
def paceFrame (id seq demand decided : Nat) (dvalid : Bool) : Word :=
  let w := wd (0xA0000000 + id % 256 * 0x100000 + seq % 256 * 0x1000 + demand % 8 * 512 + decided % 8 * 64 + dvalid.toNat * 32)
  setFld w 4 0 (crc5 w)

/-- DECIDED is armed (R469). -/
def Chip.decidedArm (c : Chip) (d : Nat) : Chip :=
  let c1 : Chip := { c.wrF Reg.pwr_PACE_STAT 6 4 d with pwr := { c.pwr with decidedValid := true } }
  if c1.paceState = 0 ∧ c1.paceWant ≠ c1.pace then c1.paceArm else c1.paceShow

/-- The leader's frame at a pace instant. The group's present pace is the DECIDED it sent last. -/
def Chip.leaderSend (c : Chip) : Chip :=
  if !c.rdB Reg.pwr_GRP_CTL 31 || !c.rdB Reg.pwr_GRP_CTL 30 then c
  else
    let grp := if c.pwr.decidedValid then c.rdF Reg.pwr_PACE_STAT 6 4 else c.pace
    let d := match c.pwr.demandBack with | some x => paceStep grp x | none => grp
    let f := paceFrame (c.rdF Reg.pwr_GRP_CTL 7 0) c.pwr.seq c.paceTarget d c.pwr.demandBack.isSome
    let c1 := c.emit (.paceOut f)
    let c2 : Chip := { c1 with pwr := { c1.pwr with seq := (c1.pwr.seq + 1) % 256 } }
    if c.pwr.demandBack.isSome then c2.decidedArm d else c2

/-- A GROUP_CFG request takes effect (R475). -/
def Chip.groupApply (c : Chip) : Chip :=
  match c.pwr.grpNext with
  | some (g, p) => { (c.wr Reg.pwr_GRP_CTL g).wr Reg.pwr_PACE_CFG p with pwr := { c.pwr with grpNext := none } }
  | none => c

/-- PACE_INSTANT: device time reaches the next instant. The decision is taken, then the machine acts, then the leader sends. -/
def State.paceInstant (s : State) (idle : List Nat) : State :=
  if !s.coreOn then s
  else
    let k := s.clk.advance (s.chip.nextInstant s.clk)
    let c := ((s.chip.decide_ k idle).paceShow.paceMachine k).groupApply.leaderSend
    { s with clk := k, chip := c.paceShow }

/-- PACE_PLL_LOCK. -/
def Chip.pacePllLock (c : Chip) : Chip :=
  { c with pwr := { c.pwr with spare := c.pwr.spare.map fun x => (x.1, true) } }

/-- DROOP_START. -/
def Chip.droopStart (c : Chip) : Chip :=
  if c.droop then c else ((c.wrF Reg.pwr_PACE_STAT 0 0 1).count Reg.pwr_DROOP_CNT 1).raise pgPwr 19

/-- DROOP_END. -/
def Chip.droopEnd (c : Chip) (k : Clk) : Chip :=
  if c.droop then { c.wrF Reg.pwr_PACE_STAT 0 0 0 with pwr := { c.pwr with droopClear := some k.now } } else c

/-- PACE_DEFER_RESUME: DROOP has been clear for 1 µs. -/
def Chip.paceDeferResume (c : Chip) : Chip :=
  if c.paceState ≠ 2 ∨ c.droop then c
  else
    let c1 : Chip := { c with pwr := { c.pwr with droopClear := none } }
    if c1.paceWant = c1.pace then c1.paceSteady else c1.paceArm

/-- GROUP_FRAME_RECEIVE. -/
def Chip.groupFrame (c : Chip) (f : Word) : Chip :=
  if !c.rdB Reg.pwr_GRP_CTL 31 ∨ fld f 31 28 ≠ 10 then c
  else
    let lead := c.rdB Reg.pwr_GRP_CTL 30
    if fld f 4 0 ≠ crc5 f ∨ fld f 27 20 ≠ c.rdF Reg.pwr_GRP_CTL 7 0 then
      { (if lead then c else c.emit (.paceOut (f ^^^ 0x1F))) with pwr := { c.pwr with validRun := 0 } }
    else
      let run := clampTo 3 (c.pwr.validRun + 1)
      let c1 : Chip := { c.wrF Reg.pwr_GRP_STAT 15 8 (fld f 19 12) with pwr := { c.pwr with validRun := run } }
      let back := run = 3 ∧ (!c.pwr.exited ∨ c.rdF Reg.therm_THERM_STAT 26 24 ≤ fld f 8 6)
      let c2 : Chip := if back then { c1.wrF Reg.pwr_GRP_STAT 31 31 0 with pwr := { c1.pwr with exited := false } } else c1
      if lead then
        { c2.wrF Reg.pwr_GRP_STAT 2 0 (fld f 11 9) with pwr := { c2.pwr with demandBack := some (fld f 11 9) } }
      else
        let out := paceFrame (fld f 27 20) (fld f 19 12) (max (fld f 11 9) c2.paceTarget) (fld f 8 6) (bit f 5)
        let c3 := c2.emit (.paceOut out)
        if bit f 5 then c3.decidedArm (fld f 8 6) else c3

/-- A member is ALONE. -/
def Chip.groupAlone (c : Chip) (ev : Nat) (exited : Bool) : Chip :=
  let c1 := ((c.wrF Reg.pwr_GRP_STAT 31 31 1).count Reg.pwr_GRP_LOSS_CNT 1).raise pgPwr ev
  { c1 with pwr := { c1.pwr with validRun := 0, exited } }.paceShow

/-- GROUP_LOSS: no valid frame in three consecutive pace periods. -/
def Chip.groupLoss (c : Chip) : Chip := if c.inGroup then c.groupAlone 21 false else c

/-- GROUP_EXIT: the thermal demand has been slower than the applied pace for 2 ms. -/
def Chip.groupExit (c : Chip) : Chip :=
  if c.inGroup && decide (c.pace < c.rdF Reg.therm_THERM_STAT 26 24) then c.groupAlone 20 true else c

/-- A write of GRP_CTL: a device that is in no group holds no group state. -/
def Chip.grpCtlWrite (c : Chip) (v : Word) : Chip :=
  let c1 := c.wr Reg.pwr_GRP_CTL (v &&& 0xC00000FF)
  if bit v 31 then c1
  else
    ({ (c1.wrF Reg.pwr_GRP_STAT 31 31 0).wrF Reg.pwr_PACE_STAT 6 4 0 with
      pwr := { c1.pwr with decidedValid := false, demandBack := none, exited := false, validRun := 0 } }).paceShow

/-! ## S6 (R475) -/

/-- S6 answers on mailbox 13. -/
def Chip.s6Reply (c : Chip) (op st : Nat) (body : List Byte) : Chip := c.emit (.reply 13 op st body)

/-- CAP_SET. -/
def Chip.capSet (c : Chip) (en : Bool) (capW : Nat) (fr : List Nat) : Chip :=
  if !c.serves 6 then c
  else if fr.foldl (· + ·) 0 ≠ 200 then c.s6Reply 1 stBadArg []
  else
    let f (i : Nat) : Nat := fr[i]?.getD 0
    let c1 := c.wr Reg.pwr_CAP_CTL (wd (en.toNat * 0x80000000 + capW % 1024))
    let c2 := c1.wr Reg.pwr_FRAC0 (wd (f 0 * 0x1000000 + f 1 * 65536 + f 2 * 256 + f 3))
    ((c2.wr Reg.pwr_FRAC1 (wd (f 4 * 65536 + f 5 * 256 + f 6))).fracApply).s6Reply 1 stOk []

/-- GET_STATUS. -/
def Chip.pwrGetStatus (c : Chip) : Chip :=
  if !c.serves 6 then c
  else
    let per := ((List.range 7).map fun d => beBytes 4 (tenths (c.budget d)) ++ beBytes 4 (tenths (c.est d))).flatten
    let f (hi lo : Nat) : List Byte := beBytes 4 (c.rdF Reg.pwr_PACE_STAT hi lo)
    c.s6Reply 2 stOk (beBytes 4 c.capC ++ per ++ beBytes 4 (c.rdF Reg.pwr_PMB_MEAS 15 0) ++ beBytes 4 c.gain ++
      f 26 24 ++ beBytes 4 (min 3 (c.rdF Reg.pwr_PACE_REQ 2 0)) ++ f 14 12 ++ f 10 8 ++ beBytes 4 (c.rdF Reg.therm_TJ_MAX 15 0))

/-- GROUP_CFG: GRP_CTL and PACE_CFG are written at the next instant. -/
def Chip.groupCfg (c : Chip) (en lead : Bool) (id period : Nat) : Chip :=
  if !c.serves 6 then c
  else
    let g := wd (en.toNat * 0x80000000 + lead.toNat * 0x40000000 + id % 256)
    ({ c with pwr := { c.pwr with grpNext := some (g, wd (period % 128)) } }).s6Reply 3 stOk []

/-! ## Thermal control (R471 to R474) -/

/-- A reading is valid: in range, and not stuck while a neighbour moves (R471), which the sample tells. -/
def tempOk (stuck : List Nat) (s : Nat) (t : Int) : Bool := decide (-1120 ≤ t) && decide (t ≤ 2400) && !stuck.contains s

/-- Tj and its sensor: the largest valid reading of sensors 0 to 23; 125 °C when none of 0 to 15 is valid. -/
def junction (stuck : List Nat) (t : List Int) : Nat × Int :=
  let at_ (s : Nat) : Int := t[s]?.getD 0
  let ok := (List.range 24).filter fun s => tempOk stuck s (at_ s)
  if (ok.filter (· < 16)).isEmpty then (0, 2000)
  else match ok with
    | s :: l => (l.foldl (fun b x => if at_ b < at_ x then x else b) s, at_ (l.foldl (fun b x => if at_ b < at_ x then x else b) s))
    | [] => (0, 2000)

/-- The limits that stand: thresholds 105, 110, 115 and 120 °C set a demand, above 125 °C is OVERTEMP; each clears 3 °C
below its threshold. -/
def limitsAfter (old : List Nat) (tj : Int) : List Nat :=
  (List.range 5).filter fun i =>
    let th : Int := 1680 + 80 * (i : Nat)
    let set_ := if i = 4 then decide (th < tj) else decide (th ≤ tj)
    set_ || (old.contains i && decide (th - 48 < tj))

/-- The thermal cap in W. -/
def thermCap (limits : List Nat) (tj : Int) : Nat :=
  if !limits.contains 0 then 820
  else (max 520 (min 820 ((13120 - 15 * (tj - 1680)) / 16))).toNat

/-- A temperature as a 16-bit field. -/
def temp16 (t : Int) : Nat := (t % 65536).toNat

/-- A Flume stack's temperature in °C, and what it does there (R320, R474). -/
def Chip.flumeTemp (c : Chip) (stuck : List Nat) (t : List Int) : Chip :=
  let at_ (i : Nat) : Int := t[24 + i]?.getD 0
  let ok (i : Nat) : Bool := tempOk stuck (24 + i) (at_ i)
  let old := c.rd Reg.flume_FL_TEMP
  let x2 (i : Nat) : Bool := ok i && decide (1360 < at_ i)
  let begins := (List.range 2).any fun i => x2 i && !bit old (24 + i)
  let w := (List.range 2).foldl (fun w i =>
    setFld (setFld w (24 + i) (24 + i) (if ok i then (x2 i).toNat else (bit old (24 + i)).toNat))
      (8 * i + 7) (8 * i) (if ok i then (at_ i / 16 % 256).toNat else fld old (8 * i + 7) (8 * i))) (0 : Word)
  let c1 := c.wr Reg.flume_FL_TEMP w
  let c2 := if begins then c1.raise 0x240 26 else c1
  let hot := (List.range 2).any fun i => ok i && decide (1520 ≤ at_ i)
  let cool := (List.range 2).all fun i => !ok i || decide (at_ i < 1472)
  if hot && !c2.pwr.flumeHot then { c2 with pwr := { c2.pwr with flumeHot := true } }.raise pgTherm 24
  else if cool then { c2 with pwr := { c2.pwr with flumeHot := false } }
  else c2

/-- THERMAL_SAMPLE: the 26 readings in 1/16 °C, and the sensors found stuck. -/
def Chip.thermalSample (c : Chip) (t : List Int) (stuck : List Nat) : Chip :=
  let at_ (s : Nat) : Int := t[s]?.getD 0
  let c1 := (List.range 26).foldl (fun c s =>
    c.wr (Reg.therm_TSENS s) (wd ((if tempOk stuck s (at_ s) then 0x80000000 else 0) + temp16 (at_ s)))) c
  let c2 := if (List.range 26).all fun s => tempOk stuck s (at_ s) then c1 else c1.raise pgTherm 23
  let (sn, tj) := junction stuck t
  let prev := signed 16 (c2.rdF Reg.therm_TJ_MAX 15 0)
  let c3 := c2.wr Reg.therm_TJ_MAX (wd (sn * 0x1000000 + temp16 tj))
  let c4 : Chip := { c3 with pwr := { c3.pwr with peak := some (match c3.pwr.peak with | some p => max p tj | none => tj) } }
  let warn : Int := 16 * (c4.rdF Reg.therm_THERM_WARN_TH 7 0 : Nat)
  let c5 := if warn ≤ tj ∧ prev < warn then c4.raise pgTherm 27 else c4
  let limits := limitsAfter c5.pwr.limits tj
  let dem := (limits.filter (· < 4)).length
  let c6 := if c5.rdF Reg.therm_THERM_STAT 26 24 < dem then c5.raise pgTherm 26 else c5
  let c7 := if limits.contains 4 && !c5.pwr.limits.contains 4 then c6.raise pgTherm 25 else c6
  let c8 : Chip := { c7.wr Reg.therm_THERM_STAT (wd ((limits.contains 4).toNat * 0x80000000 + dem * 0x1000000 + thermCap limits tj))
    with pwr := { c7.pwr with limits } }
  (c8.flumeTemp stuck t).paceShow

/-- THERMTRIP: an AUX comparator reaches 130 °C (R473). -/
def State.thermtripNow (s : State) : State :=
  if s.auxOn then { s with aux := { s.aux with thermtrip := true, trip := true } } else s

/-- A write of THERM_CLR. -/
def Aux.thermClr (a : Aux) (v : Word) : Aux := if bit v 30 then { a with trip := false } else a

/-! ## Soft resets (R477, R479) -/

/-- Soft reset of the PWR page: `clear` returns its registers to reset; the pace and the droop stay. -/
def Chip.pwrReset (c : Chip) (clear : Chip → Chip) : Chip :=
  let keep := c.rd Reg.pwr_PACE_STAT &&& 0x07000001
  let p : PwrSt := { raw := c.pwr.raw, lastChange := c.pwr.lastChange, droopClear := c.pwr.droopClear, quiet := c.pwr.quiet,
                     flStep := c.pwr.flStep, limits := c.pwr.limits, flumeHot := c.pwr.flumeHot, peak := c.pwr.peak }
  ({ (clear c).wr Reg.pwr_PACE_STAT keep with pwr := p }).paceShow

/-- Soft reset of the THERM page: the limits clear and follow the next sample. -/
def Chip.thermReset (c : Chip) (clear : Chip → Chip) : Chip :=
  let c1 := clear c
  ({ c1 with pwr := { c1.pwr with limits := [], flumeHot := false, peak := none } }).paceShow

end Sys2Proof.Machine
end

