-- ==== Sys2Proof/Machine/Dma.lean ====
section
/-!
DEFINITION. Machine/Dma.lean: the host DMA rings (23_host_interface_dma.md R531 to R549).
-/
namespace Sys2Proof.Machine

abbrev pgDma : Nat := 0x260

/-! ## Rings (R534, R535) -/

abbrev ringCfg (g : Nat) : Nat := Reg.ringblk_RING_CFG (g / 8) (g % 8)
abbrev ringHead (g : Nat) : Nat := Reg.ringblk_RING_HEAD (g / 8) (g % 8)
abbrev ringTail (g : Nat) : Nat := Reg.ringblk_RING_TAIL (g / 8) (g % 8)
abbrev ringStat (g : Nat) : Nat := Reg.ringblk_RING_STAT (g / 8) (g % 8)

/-- A ring of a kind runs: enabled, not STOPPED, and the DMA block works. -/
def Chip.ringRuns (c : Chip) (g kind : Nat) : Bool :=
  c.rdB (ringCfg g) 31 && c.rdF (ringCfg g) 1 0 == kind && c.rdF (ringStat g) 1 0 == 1 && !c.faulted pgDma && !c.inReset pgDma

/-- RING_BASE. -/
def Chip.ringBase (c : Chip) (g : Nat) : Nat := c.rd64 (Reg.ringblk_RING_BASE_LO (g / 8) (g % 8)) (Reg.ringblk_RING_BASE_HI (g / 8) (g % 8))

/-- Agent number of the owner of a ring. -/
def Chip.ringAgent (c : Chip) (g : Nat) : Nat := 1 + c.blockOwner (g / 8)

/-- The change from `c` to `c'` touched a ring's completions: a message goes out when its vector goes from not pending
to pending (R54, R543). -/
def Chip.ringSettle (c c' : Chip) (g : Nat) : Chip :=
  if c'.ringAsserts g && !c.ringAsserts g && !c.vecPending (c'.ringVector g) then c'.message (c'.ringVector g) else c'

/-- A descriptor is completed: bytes 8 to 31 are written back, and RING_HEAD advances (R535, R536). -/
def Chip.ringComplete (c : Chip) (g : Nat) (desc : List Byte) : Chip :=
  let h := c.rdF (ringHead g) 15 0 % c.ringSize g
  let c1 := c.emit (.host (c.ringBase g + 32 * h + 8) (slice desc 8 24))
  let c2 := c1.wr (ringHead g) (wd ((h + 1) % c.ringSize g))
  let c3 := c2.count64 (Reg.ringblk_RING_DESC_CNT_LO (g / 8) (g % 8)) (Reg.ringblk_RING_DESC_CNT_HI (g / 8) (g % 8)) 1
  c1.ringSettle c3 g

/-- Bytes of a descriptor replaced. -/
def descPut (d : List Byte) (i : Nat) (bs : List Byte) : List Byte := d.take i ++ bs ++ d.drop (i + bs.length)

/-- DONE set in the FLAGS byte at `i`. -/
def descDone (d : List Byte) (i : Nat) : List Byte := descPut d i [(slice d i 1).headD 0 ||| 0x80]

/-! ## TX (R537, R538) -/

/-- A TX descriptor as completed with a status. -/
def txEnd (d : List Byte) (st : Nat) : List Byte := descDone (descPut d 11 (beBytes 1 st)) 10

/-- The frame a TX descriptor sends: META if it has one, the frame and the FCS the device appends. -/
def txFrame (d frame : List Byte) : List Byte :=
  let body := (if (slice d 10 1).headD 0 &&& 1 = 1 then slice d 12 16 else []) ++ slice frame 0 (leNat (slice d 8 2))
  body ++ fcsOf body

/-- TX_DESCRIPTOR: the descriptor at the head of a TX ring and what its buffer holds. -/
def Chip.txDescriptor (c : Chip) (k : Clk) (g : Nat) (d frame : List Byte) : Chip :=
  let b := txFrame d frame
  let pool := c.poolFor b.length
  if !c.ringRuns g 1 || c.ringOffered g == 0 || c.fbOn pool 1 then c
  else if leNat (slice d 8 2) < 60 ∨ 16363 < leNat (slice d 8 2) then c.ringComplete g (txEnd d stBadArg)
  else
    let f : Frame := { inLp := 1152, reach := 0, bytes := b, arrived := b.length, ended := true, stored := b.length,
                       carry := trace0 0 1152, stampNow := k.now }
    ((c.addFrame f).bufferAlloc k c.nextFrame).ringComplete g (txEnd d stOk)

/-! ## RX (R539, R540) -/

/-- The copies of host queue `h` past W14, in order of selection. -/
def Chip.hostOut (c : Chip) (h : Nat) : Option (Nat × Copy) :=
  (c.sw.copies.filter fun kc => kc.2.lp == 1152 && kc.2.q == 23040 + h && kc.2.pos == .ready).foldl (fun o kc =>
    match o with
    | none => some kc
    | some x => if kc.2.dep < x.2.dep then some kc else some x) none

/-- Bytes 8 to 31 of an RX descriptor. -/
def rxFields (cp : Copy) (f : Frame) (h len : Nat) (sop eop : Bool) : List Byte :=
  let m := cp.carry
  leBytes 2 len ++ leBytes 1 (0x80 + eop.toNat * 0x40 + sop.toNat * 0x20 + f.tsErr.toNat * 0x10 + cp.trap.toNat * 8) ++
    leBytes 1 h ++ leBytes 2 f.inLp ++ leBytes 1 (cfld m 0x019 1) ++ leBytes 1 (cClass m % 8) ++
    leBytes 6 (todSec f.tIn % 2 ^ 48) ++ leBytes 4 (todQ f.tIn) ++ leBytes 2 (cEpoch m) ++
    leBytes 2 (if eop then cp.out.length else 0) ++ [0, 0]

/-- A copy laid into buffers of `size` bytes at the addresses its descriptors give. -/
def Chip.rxFill (c : Chip) (g h size : Nat) (cp : Copy) (f : Frame) : Bool → List Byte → List Nat → Chip
  | _, _, [] => c
  | sop, bs, a :: as =>
    let part := bs.take size
    let rest := bs.drop size
    let c1 := (c.emit (.host a part)).ringComplete g (List.replicate 8 0 ++ rxFields cp f h part.length sop rest.isEmpty)
    if rest.isEmpty then c1 else c1.rxFill g h size cp f false rest as

/-- RX_DESCRIPTOR: the next copy of a host queue is written to the buffers its ring offers, whose addresses the
descriptors hold. A copy whose ring has stopped since it was selected is dropped (R540; log 51). -/
def Chip.rxDescriptor (c : Chip) (k : Clk) (h : Nat) (addrs : List Nat) : Chip :=
  match c.hostOut h with
  | none => c
  | some (cid, cp) =>
    match c.hqRing h, mget c.frames cp.fid with
    | _, none => c
    | none, _ => (c.count Reg.dma_HQ_DROP_CNT 1).dropCopy k cid drPortDown false
    | some g, some f =>
      let size := c.ringBuf g
      let need := (cp.out.length + size - 1) / size
      if c.faulted pgDma ∨ c.inReset pgDma ∨ addrs.length < need ∨ c.ringOffered g < need then c
      else ((c.rxFill g h size cp f true cp.out addrs).settleCopy k cp cp.out.length).endCopy k cid 0

/-! ## TABLE (R541) -/

/-- A list's descriptor as completed. -/
def listEnd (l : DList) : List Byte := descDone (descPut (descPut l.desc 16 (leBytes 4 l.count)) 13 (beBytes 1 l.status)) 12

/-- A list ends: its descriptor is written back. -/
def Chip.listDone (c : Chip) (g : Nat) (l : DList) : Chip :=
  { c with dma := { c.dma with lists := merase c.dma.lists g } }.ringComplete g (listEnd l)

/-- A list goes on once its block has been answered, block by block, while the answers come at once. -/
def Chip.listRun (c : Chip) (k : Clk) (g : Nat) : Nat → Chip
  | 0 => c
  | n + 1 =>
    match mget c.dma.lists g with
    | none => c
    | some l =>
      match l.answer with
      | none => c
      | some st =>
        let l1 : DList := { l with count := l.count + 1, status := if l.status = 0 then st else l.status }
        if l1.count = leNat (slice l.desc 8 4) ∨ (st ≠ 0 ∧ (slice l.desc 12 1).headD 0 &&& 1 = 1) then c.listDone g l1
        else
          let l2 : DList := { l1 with answer := none, blocks := l1.blocks.drop 1 }
          let c1 : Chip := { c with dma := { c.dma with lists := mput c.dma.lists g (some l2) } }
          (c1.tblSubmit k { agent := c.ringAgent g, dma := true, blk := slice (l1.blocks.headD []) 0 64
                            dest := .host (leNat (slice l.desc 0 8) + 64 * l2.count) }).listRun k g n

/-- Every list whose block has been answered goes on. -/
def Chip.listsAdvance (c : Chip) (k : Clk) : Chip :=
  ((c.dma.lists.filter fun gl => gl.2.answer.isSome).map (·.1)).foldl (fun c g => c.listRun k g 4097) c

/-- TABLE_DESCRIPTOR: the descriptor at the head of a TABLE ring, and the blocks its list holds. The spec states no result
for a COUNT outside 1 to 4,096: BAD_ARG (log 51). -/
def Chip.tableDescriptor (c : Chip) (k : Clk) (g : Nat) (d : List Byte) (blocks : List (List Byte)) : Chip :=
  if !c.ringRuns g 3 || c.ringOffered g == 0 || (mget c.dma.lists g).isSome then c
  else
    let n := leNat (slice d 8 4)
    let l : DList := { desc := d, blocks := blocks.drop 1, count := 0, status := 0, answer := none }
    if n = 0 ∨ 4096 < n then c.listDone g { l with status := stBadArg }
    else
      let c1 : Chip := { c with dma := { c.dma with lists := mput c.dma.lists g (some l) } }
      (c1.tblSubmit k { agent := c.ringAgent g, dma := true, blk := slice (blocks.headD []) 0 64
                        dest := .host (leNat (slice d 0 8)) }).listRun k g 4097

/-! ## Errors (R545) -/

/-- A ring stops: DMA_ERR captures the first error. -/
def Chip.ringStop (c : Chip) (g kind addr : Nat) : Chip :=
  let c1 := (c.wr (ringStat g) 2).raise (Reg.pg_ringblk (g / 8)) (g % 8)
  let c2 := c1.raise pgDma 27
  if c2.rdB Reg.dma_DMA_ERR 31 then c2
  else (c2.wr Reg.dma_DMA_ERR (wd (0x80000000 + kind * 0x1000000 + g))).wr64 Reg.dma_DMA_ERR_ADDR_LO Reg.dma_DMA_ERR_ADDR_HI addr

/-- A read of a ring failed with a DMA_ERR kind: its descriptor ends with a status, and the ring stops. -/
def Chip.readFailed (c : Chip) (g kind st : Nat) (d : List Byte) (addr : Nat) : Chip :=
  if !(c.ringRuns g 1 || c.ringRuns g 2 || c.ringRuns g 3) || c.ringOffered g == 0 then c
  else
    let c1 := match c.rdF (ringCfg g) 1 0 with
      | 1 => c.ringComplete g (txEnd d st)
      | 3 => (match mget c.dma.lists g with
        | some l => c.listDone g { l with status := if l.status = 0 then st else l.status }
        | none => c.listDone g { desc := d, blocks := [], count := 0, status := st, answer := none })
      | _ => c
    c1.ringStop g kind addr

/-- An uncorrectable error in a prefetch buffer or a ring's state (R549). -/
def Chip.dmaBad (c : Chip) (g : Nat) : Chip := if c.rdB (ringCfg g) 31 then c.ringStop g 1 0 else c

/-! ## Coalescing and configuration (R543, R545, R548) -/

/-- COAL_TIME: the oldest completion beyond RING_ACK has waited. -/
def Chip.coalTime (c : Chip) (g : Nat) : Chip :=
  if c.rdF (Reg.ringblk_RING_COAL (g / 8) (g % 8)) 31 16 = 0 ∨ c.ringBeyond g = 0 ∨ c.dma.coalDue.contains g then c
  else c.ringSettle { c with dma := { c.dma with coalDue := c.dma.coalDue ++ [g] } } g

/-- A write of RING_ACK: the wait starts again for what is left. -/
def Chip.ringAck (c : Chip) (g : Nat) (v : Word) : Chip :=
  let c1 := c.wr (Reg.ringblk_RING_ACK (g / 8) (g % 8)) (v &&& 0xFFFF)
  c.ringSettle { c1 with dma := { c1.dma with coalDue := c1.dma.coalDue.filter (· != g) } } g

/-- A write of RING_COAL. -/
def Chip.ringCoal (c : Chip) (g : Nat) (v : Word) : Chip := c.ringSettle (c.wr (Reg.ringblk_RING_COAL (g / 8) (g % 8)) v) g

/-- A ring is disabled; its list ends ABORTED at the block in progress (R546). -/
def Chip.ringOff (c : Chip) (g : Nat) : Chip :=
  let c1 := match mget c.dma.lists g with
    | some l => c.listDone g { l with status := if l.status = 0 then stAborted else l.status }
    | none => c
  ((c1.wrF (ringCfg g) 31 31 0).wr (ringStat g) 0)

/-- A write of RING_CFG: `false` when it names other values for the fields that EN locks, which are discarded with an
access error of kind 5. Enabling starts the ring empty, at its tail. -/
def Chip.ringCfgWrite (c : Chip) (g : Nat) (v : Word) : Bool × Chip :=
  let old := c.rd (ringCfg g)
  if bit old 31 then
    let same := (v &&& 0x1F1F0003) == (old &&& 0x1F1F0003)
    (same, if bit v 31 then c else c.ringOff g)
  else
    let c1 := c.wr (ringCfg g) (v &&& 0x9F1F0003)
    if !bit v 31 then (true, c1)
    else
      let c2 := c1.wr (ringHead g) (wd (c1.rdF (ringTail g) 15 0 % c1.ringSize g))
      (true, c2.wr (ringStat g) (if fld v 1 0 = 0 then 0 else 1))

/-- A write of RING_BASE_LO or _HI: `false` while EN is 1. -/
def Chip.ringBaseWrite (c : Chip) (g : Nat) (hi : Bool) (v : Word) : Bool × Chip :=
  if c.rdB (ringCfg g) 31 then (false, c)
  else (true, if hi then c.wr (Reg.ringblk_RING_BASE_HI (g / 8) (g % 8)) v
    else c.wr (Reg.ringblk_RING_BASE_LO (g / 8) (g % 8)) (v &&& 0xFFFFFFC0))

/-! ## Function resets (R546, R549) -/

/-- The rings of a block are disabled. -/
def Chip.blockOff (c : Chip) (b : Nat) : Chip := (List.range 8).foldl (fun c i => c.ringOff (8 * b + i)) c

/-- The locks of an agent are released: bucket locks and lock registers. -/
def Chip.agentReset (c : Chip) (agent : Nat) : Chip := (c.emDropAgent agent).lockReleaseAll agent

/-- FLR of a function. -/
def Chip.flr (c : Chip) (f : Nat) : Chip :=
  ((List.range 8).foldl (fun c b => if c.blockOwner b = f then c.blockOff b else c) c).agentReset (f + 1)

/-- Owner of block `b` under VF Enable and NumVFs (R534). -/
def vfOwner (en : Bool) (num b : Nat) : Nat := if en && decide (1 ≤ b) && decide (b ≤ num) then b else 0

/-- VF_ENABLE_CHANGE: each block that moves has its rings disabled and its function's locks released. -/
def Chip.vfEnable (c : Chip) (en : Bool) (num : Nat) : Chip :=
  (List.range 8).foldl (fun c b =>
    if c.blockOwner b = vfOwner en num b then c
    else ((c.blockOff b).agentReset (b + 1)).wrF Reg.dma_BLOCK_OWNER (3 * b + 2) (3 * b) (vfOwner en num b)) c

/-- A fatal fault, or a soft reset of the common page: every list ends ABORTED; no descriptor completes meanwhile. -/
def Chip.dmaAbort (c : Chip) : Chip :=
  c.dma.lists.foldl (fun c gl => c.listDone gl.1 { gl.2 with status := if gl.2.status = 0 then stAborted else gl.2.status }) c

end Sys2Proof.Machine
end

