-- ==== Sys2Proof/Machine/Fault.lean ====
section
/-!
DEFINITION. Machine/Fault.lean: storage upsets and scrub, fatal faults and their containment, die links
(chapter 20).
-/
namespace Sys2Proof.Machine

/-! ## Storage upsets (R480) -/

/-- STORAGE_UPSET: a word takes an upset or a stuck bit. A word of the Flume stacks (the controller page, memory 2,
by 64-byte unit) holds its error in the stacks themselves (R318). A second upset of a word leaves an uncorrectable one. -/
def Chip.storageUpset (c : Chip) (pg mem word : Nat) (u : Upset) : Chip :=
  if pg = 0x240 ∧ mem = 2 then
    let old := mrd 0 c.flm.errs word
    { c with flm := { c.flm with errs := mput c.flm.errs word (some (if u.unc ∨ old ≠ 0 then 2 else 1)) } }
  else
    let w : Upset := match mget c.upsets (upKey pg mem word) with
      | none => u
      | some v => { u with unc := v.unc || u.unc || v.bitpos != u.bitpos, stuck := v.stuck || u.stuck }
    { c with upsets := mput c.upsets (upKey pg mem word) (some w) }

/-! ## Fatal faults (R491) -/

/-- Every bucket lock is released to its lock-time image (R188). -/
def Chip.emDropLocks (c : Chip) : Chip :=
  c.tbl.locks.foldl (fun c kv => c.emDropLock (kv.1 / 262144) (kv.1 % 262144) kv.2) c

/-- A table page's lookup path fails: its lookups write the miss result (R491). -/
def Chip.lookupLost (c : Chip) (pg : Nat) (lookup : Bool) : Chip :=
  if lookup && !c.tbl.lookupFault.contains pg then { c with tbl := { c.tbl with lookupFault := c.tbl.lookupFault ++ [pg] } }
  else c

/-- What a fatal fault does beyond its block's own page (R491, R492). A weir has none (R131); a sluice's is an abort, whose
cause code the table of R161 does not give: it is a free value. -/
def State.fatalFault (s : State) (pg : Nat) (lookup : Bool) : State :=
  let c := s.chip
  let k := s.clk
  let hit := c.fatal k.tod pg
  if !s.live ∨ c.faulted pg then s
  else match Reg.kindOf pg with
    | none | some .weir => s
    | some .sluice =>
      let r := (pg - 0x120) / 16
      if c.sluState r = 3 then
        let (w, c1) := c.free
        let (c2, v) := sluAbort (c1, s.vault) k r (w.toNat % 16) (c.slu1 r).last ((c.slu1 r).th (c.slu1 r).last).pc
        { s with chip := c2, vault := v }
      else { s with chip := hit }
    | some .time => { s with chip := hit, clk := { k with todFault := true } }
    | some .em => { s with chip := ((hit.emEndPending k stAborted).emDropLocks).lookupLost pg lookup }
    | some .pfx => { s with chip := (hit.pfxEndPending k stAborted).lookupLost pg lookup }
    | some .lb | some .mcast => { s with chip := hit.lookupLost pg lookup }
    | some .flume => { s with chip := (hit.flAbortAll).dropSpilled k }
    | some .vault =>
      let (c1, v) := vaultError (hit, s.vault)
      { s with chip := c1, vault := v }
    | some .dma => { s with chip := hit.dmaAbort }
    | _ => { s with chip := hit }

/-! ## Die links (R321, R493) -/

/-- Bit `d` of DLINK_STAT.FAIL sets or clears; UP is its complement. -/
def Chip.dlinkBit (c : Chip) (d : Nat) (fail : Bool) : Chip :=
  (c.wrF Reg.fault_DLINK_STAT d d fail.toNat).wrF Reg.fault_DLINK_STAT (16 + d) (16 + d) (!fail).toNat

/-- The logical ports of lane die `d`. -/
def diePorts (d : Nat) : List Nat := (List.range 144).map (144 * d + ·)

/-- DIE_LINK_FAIL: link `d`, 0 to 7, is not restored within 10 µs (R493). -/
def Chip.dieLinkFail (c : Chip) (k : Clk) (d : Nat) : Chip :=
  if c.links.dieFail.contains d then c
  else
    let c1 := (c.dlinkBit d true).raise 0x008 26
    let c2 := (((c1.wrF (Reg.PAGE_STAT 0x008) 2 2 1).raise 0x008 31).count Reg.fault_FATAL_CNT 1).firstFatal k.tod 0x008
    let c3 := (diePorts d).foldl (fun c lp => c.lossCondition lp 0 2) c2
    { c3 with links := { c3.links with dieFail := c3.links.dieFail ++ [d] } }

/-- FLUME_LINK_FAIL: link D8 or D9 cannot be restored; the Flume block takes a fatal fault (R321). -/
def Chip.flumeLinkLost (c : Chip) (k : Clk) (d : Nat) : Chip :=
  (((c.dlinkBit (8 + d) true).raise 0x008 26).fatal k.tod 0x240).flumeLinkFail k

/-! ## The class A guarantee (R484) -/

/-- Pages that hold storage of the class A table of R482 (DEDUCED, log 50). -/
def classAPages : List Nat :=
  [0x220, 0x221, 0x222, 0x231, 0x232, 0x23C, 0x251] ++
    ((List.range 16).map fun r => [Reg.pg_parser r, Reg.pg_weir r, Reg.pg_sluice r, Reg.pg_level r]).flatten

/-- CLASSA_STAT.HOLDS. -/
def Chip.classAHolds (c : Chip) : Bool :=
  c.rdB Reg.flume_PATROL_CTL 31 && classAPages.all fun pg => c.rdB (Reg.SCRUB_CTL pg) 0

/-! ## Scrub (R47, R489, R490) -/

/-- The shapers of wheel `r` that meet a test conform again (R305). -/
def Chip.shapersBad (c : Chip) (r : Nat) (f : WEntry → Bool) : Chip :=
  let es := (c.sw.wheel ++ c.sw.released).filter fun e => e.reach == r && f e
  es.foldl (fun c e => { c.offWheel r e.idx e.port with sw := { (c.offWheel r e.idx e.port).sw with
    tat := merase (c.offWheel r e.idx e.port).sw.tat (shpKey r e.idx e.port) } }) c

/-- A port SA whose key or state cannot be read is not in use, its key is gone, and a transmit SA is exhausted (R421). -/
def saBad (cv : CV) (p word : Nat) : CV :=
  let key := 512 * p + word % 512
  match mget cv.2.sas key with
  | none => cv
  | some _ =>
    let v := { cv.2 with sas := merase cv.2.sas key }
    if word / 32 % 2 = 0 then (cv.1.mscPend (8 * p + word / 64 % 8) (16 + word / 64 % 8), v) else (cv.1, v)

/-- What the block does when scrub finds an uncorrectable error, where its chapter says so. -/
def State.scrubBad (s : State) (pg mem word : Nat) : State :=
  let c := s.chip
  let r := (pg - 0x120) / 16
  match Reg.kindOf pg with
  | some .epoch => { s with chip := c.epochBad s.clk }
  | some .pwr => { s with chip := c.pwrBad }
  | some .mbx => { s with chip := c.mbxBad mem word }
  | some .dma => { s with chip := c.dmaBad (word % 64) }
  | some .ringblk => { s with chip := c.dmaBad (8 * (pg - 0x261) + word % 8) }
  | some .vault =>
    if mem = 1 then
      let (c1, v) := vaultError (c, s.vault)
      { s with chip := c1, vault := v }
    else s
  | some .upage => { s with vault := s.vault.putSlot (pg - 0x020) (word % 16) none }
  | some .port =>
    if mem = 8 ∨ mem = 9 then
      let (c1, v) := saBad (c, s.vault) (pg - 0x090) word
      { s with chip := c1, vault := v }
    else s
  | some .em =>
    if mem = 2 ∧ word < c.tbl.learnQ.length then
      let c1 := { c with tbl := { c.tbl with learnQ := c.tbl.learnQ.eraseIdx word } }
      { s with chip := (c1.count Reg.em_LEARN_DROP_CNT 1).raise 0x231 26 }
    else s
  | some .switch => if mem = 0 then
      (match c.frames.find? fun kf => kf.2.hasDesc && kf.1 % 1048576 == word with
        | some kf => { s with chip := c.failFrame s.clk kf.1 drData }
        | none => s)
    else s
  | some .bufmgr =>
    if mem = 1 then
      match mget c.buf.bufs word with
      | some b => { s with chip := { c with buf := { c.buf with bufs := mput c.buf.bufs word (some { b with tag := 0xFFF }) } } }
      | none => s
    else if mem = 2 ∧ !c.buf.rebuilding.contains (64 * word) then
      { s with chip := { c with buf := { c.buf with rebuilding := 64 * word :: c.buf.rebuilding } } }
    else s
  | some .sched =>
    if mem = 2 then
      if word < 1456 then { s with chip := c.wr (Reg.sched_DEFICIT r word) 0 }
      else { s with chip := { c with sw := { c.sw with cur := merase c.sw.cur (lpAt r (word - 2048)) } } }
    else if mem < 2 then { s with chip := c.raise pg 24 }
    else s
  | some .wheel =>
    if mem = 0 then { s with chip := c.shapersBad r fun e => e.coarse.toNat * 1024 + (if e.coarse then e.tick / 1024 else e.tick) % 1024 == word }
    else if mem = 1 then
      let key := if word < 2048 then shpKey r word false else shpKey r (word - 2048) true
      let c1 := c.offWheel r (word % 2048) (decide (2048 ≤ word))
      { s with chip := { c1 with sw := { c1.sw with tat := merase c1.sw.tat key } } }
    else s
  | some .level =>
    if mem = 0 then
      match c.sw.hold[word]? with
      | some cid => { s with chip := c.dropCopy s.clk cid drData false }
      | none => s
    else s
  | some .telemetry =>
    if mem = 1 then
      match c.tel.capFifo with
      | [] => s
      | _ :: l => { s with chip := ({ c with tel := { c.tel with capFifo := l } }).captureLost }
    else if mem = 2 then
      match c.tel.smpFifo with
      | [] => s
      | _ :: l => { s with chip := ({ c with tel := { c.tel with smpFifo := l } }).sampleDrop }
    else s
  | some .ledger => { s with chip := (c.ldgDiscard.ldgGap s.clk 3).ldgShow }
  | _ => s

/-- Words the block itself writes anew when their error is found, because it resets or gives up what they held. -/
def selfMends (pg mem : Nat) : Bool :=
  match Reg.kindOf pg with
  | some .upage | some .epoch | some .pwr | some .vault | some .ledger => true
  | some .port => mem == 8 || mem == 9
  | some .em => mem == 2
  | some .switch | some .level => mem == 0
  | some .bufmgr => mem == 1
  | some .sched => mem == 2
  | some .wheel => mem < 2
  | some .telemetry => mem == 1 || mem == 2
  | _ => false

/-- SCRUB_SLOT: one word is read and checked; a corrected value is written back in the same slot; a CAM entry is compared
with its shadow, which mends it whatever the size of the upset (R216). The TIME page's own checks act on its FIFO entries
(R352). The last word of the pass ends it. -/
def State.scrubSlot (s : State) (pg mem word : Nat) (last : Bool) : State :=
  let c := s.chip
  match Reg.kindOf pg with
  | none => s
  | some kind =>
    if !s.live ∨ noSram kind ∨ !c.rdB (Reg.SCRUB_CTL pg) 0 ∨ c.inReset pg then s
    else
      let cam := pg == 0x232 && mem == 5
      let s1 : State := match mget c.upsets (upKey pg mem word) with
        | none => s
        | some u =>
          if pg = 0x003 ∧ mem = 1 ∧ u.unc then
            ({ s with chip := (c.uncorrectable pg mem word u).rewrite pg mem word }).glideWith true
          else if pg = 0x003 ∧ mem = 0 ∧ u.unc then (if word = 2048 then s.ppsCheck else s.txtsCheck word)
          else if u.unc && !cam then
            let s1 := ({ s with chip := c.uncorrectable pg mem word u }).scrubBad pg mem word
            if selfMends pg mem then { s1 with chip := s1.chip.rewrite pg mem word } else s1
          else { s with chip := (c.correctable pg mem word u).rewrite pg mem word }
      let c1 := s1.chip
      let c2 := c1.wrF (Reg.SCRUB_STAT pg) 0 0 (!last).toNat
      if last then
        { s1 with chip := (c2.wrF (Reg.SCRUB_STAT pg) 15 8 (c2.rdF (Reg.SCRUB_STAT pg) 15 8 + 1)).wrF (Reg.SCRUB_STAT pg) 1 1 1 }
      else { s1 with chip := c2 }

/-- SCRUB_NOW: the pass restarts from word 0. -/
def Chip.scrubNow (c : Chip) (pg : Nat) : Chip := c.wrF (Reg.SCRUB_STAT pg) 0 0 1

end Sys2Proof.Machine
end

