-- ==== Sys2Proof/Machine/SoftReset.lean ====
section
/-!
DEFINITION. Machine/SoftReset.lean: the soft reset of each page (R42 and the block chapters), and DLINK_CMD.
-/
namespace Sys2Proof.Machine

/-! ## The registers of a page (R41, R42) -/

/-- Whether a key of the register store lies in a page. -/
def inPage (pg key : Nat) : Bool := key % 0x10000000 / 65536 == pg

/-- Every register of a page returns to its reset value, both banks, but PAGE_CTL.EN and FRZ_TRIG_EN; SOFT_RST reads 1. -/
def Chip.clearPage (c : Chip) (pg : Nat) : Chip :=
  let keep := c.rd (Reg.PAGE_CTL pg) &&& 5
  ({ c with regs := c.regs.filter fun kv => !inPage pg kv.1 }).wr (Reg.PAGE_CTL pg) (keep ||| 2)

/-- A page cleared, but for some registers, which keep their values. -/
def Chip.clearBut (c : Chip) (pg : Nat) (keep : List Nat) : Chip :=
  (keep.map fun a => (a, c.rd a)).foldl (fun x av => x.wr av.1 av.2) (c.clearPage pg)

/-! ## Switching and buffers (R251, R276) -/

/-- Soft reset of the switch core: every copy ends PORT_DOWN, then descriptors, entries, STORMED slots, registers and the
queue store are as after reset (R276). -/
def Chip.switchReset (c : Chip) (k : Clk) : Chip :=
  let c1 := c.killCopies k (fun _ => true) drPortDown true
  let c2 := c1.clearPage 0x220
  { c2 with sw := { c2.sw with queues := [], sending := [], heads := [], hold := [] } }

/-- A spilled copy whose return was under way starts it again (R251). -/
def Copy.unreturn (cp : Copy) : Copy :=
  match cp.spill with
  | .returning rs => { cp with spill := .written rs }
  | _ => cp

/-- A copy holds its frame in the Flume. -/
def Copy.spilled (cp : Copy) : Bool := cp.spill.isWritten || cp.spill.isReturning

/-- Soft reset of the buffer manager: every frame in the packet buffer is discarded with reason DATA_ERROR, spilled copies are
kept, CARVE is as after reset and the free stores are built anew (R251). -/
def Chip.bufReset (c : Chip) (k : Clk) : Chip :=
  let c1 := c.killCopies k (fun cp => !cp.spilled) drData true
  let c2 := ((c1.frames.filter fun kf => kf.2.pos != .done && !kf.2.bufs.isEmpty).map (·.1)).foldl
    (fun c fid => c.dropFrame k fid drData 0x7FF 80) c1
  let c3 := c2.clearPage 0x221
  let c4 : Chip := { c3 with
    frames := c3.frames.map fun kf => (kf.1, { kf.2 with bufs := [] })
    sw := { c3.sw with copies := c3.sw.copies.map fun kc => (kc.1, kc.2.unreturn) }
    flm := { c3.flm with returning := [] }
    buf := { bufs := [], levels := [], waiting := [], building := true, rebuilding := [] } }
  if c4.enabled 0x221 then c4.bmEnable.2 else c4

/-! ## Reach pages (R142, R305, R366, R393) -/

/-- Local ports of a reach as logical ports. -/
def reachLps (r : Nat) : List Nat := (List.range (reachPorts r)).map (lpAt r)

/-- Scheduler page: gate lists of both banks, gate configurations, ring positions and turns are gone; queued copies stay. -/
def Chip.schedReset (c : Chip) (r : Nat) : Chip :=
  let lps := reachLps r
  let c1 := c.clearPage (Reg.pg_sched r)
  { c1 with
    sw := { c1.sw with
      gates := mclear (mclear c1.sw.gates (r * 8192) ((r + 1) * 8192)) (131072 + r * 8192) (131072 + (r + 1) * 8192)
      oldGates := c1.sw.oldGates.filter fun kv => !lps.contains kv.1
      cur := c1.sw.cur.filter fun kv => !lps.contains kv.1
      turn := c1.sw.turn.filter fun kv => !lps.contains (kv.1 / 4) }
    reaches := modAt c1.reaches r fun x => { x with rot := 0 } }

/-- Shaper wheel page: TATs and wheel entries are gone. -/
def Chip.wheelReset (c : Chip) (r : Nat) : Chip :=
  let c1 := c.clearPage (Reg.pg_wheel r)
  { c1 with sw := { c1.sw with
    tat := mclear (mclear c1.sw.tat (r * 2048) ((r + 1) * 2048)) (1048576 + r * 128) (1048576 + (r + 1) * 128)
    wheel := c1.sw.wheel.filter fun e => e.reach != r
    released := c1.sw.released.filter fun e => e.reach != r
    relCount := merase c1.sw.relCount r } }

/-- Level release page: every held copy of the reach is dropped. -/
def Chip.levelReset (c : Chip) (k : Clk) (r : Nat) : Chip :=
  (c.killCopies k (fun cp => cp.pos == .hold && reachOf cp.lp == r) drLevel false).clearPage (Reg.pg_level r)

/-- Trace and gauge page: bins and sampler state are gone. -/
def Chip.traceReset (c : Chip) (r : Nat) : Chip :=
  { c.clearPage (Reg.pg_trace r) with reaches := modAt (c.clearPage (Reg.pg_trace r)).reaches r fun x => { x with smpLfsr := 1 } }

/-- Queue gauge page: the gauges, TH_PEND and the ECN generator are as after reset. -/
def Chip.gaugeReset (c : Chip) (r : Nat) : Chip :=
  { c.clearPage (Reg.pg_gauge r) with reaches := modAt (c.clearPage (Reg.pg_gauge r)).reaches r fun x => { x with ecnLfsr := 1 } }

/-! ## Tables (R203, R227) -/

/-- A table page's lookup path works again. -/
def Chip.lookupBack (c : Chip) (pg : Nat) : Chip :=
  { c with tbl := { c.tbl with lookupFault := c.tbl.lookupFault.filter (· != pg) } }

/-- Exact-match page: commands end ABORTED, locks are released, the learn queue is discarded, the bucket SRAM stays. -/
def Chip.emPageReset (c : Chip) (k : Clk) : Chip :=
  let busy := c.rdB Reg.em_TBL_CMD 31
  let c1 := ((c.emSoftReset k).clearPage 0x231).lookupBack 0x231
  if busy then c1.wr Reg.em_TBL_STATUS (wd stAborted) else c1

/-- Prefix page: the command in progress ends ABORTED; the stores, the CAM and the CAM_BLK of used blocks stay. -/
def Chip.pfxPageReset (c : Chip) (k : Clk) : Chip :=
  let busy := c.rdB Reg.pfx_PFX_CMD 31
  let kept := c.camBlkKept
  let c1 := ((c.pfxEndPending k stAborted).clearPage 0x232).lookupBack 0x232
  let c2 : Chip := { c1 with tbl := { c1.tbl with pfxClearing := [] } }
  let c3 := kept.foldl (fun c bv => c.wr (Reg.pfx_CAM_BLK bv.1) bv.2) c2
  if busy then c3.wr Reg.pfx_PFX_STATUS (wd stAborted) else c3

/-! ## Flume (R325, R491) -/

/-- Either Flume page: every spilled copy is dropped and every request ends ABORTED; the controller page also retrains D8 and
D9. -/
def Chip.flumeReset (c : Chip) (k : Clk) (pg : Nat) : Chip :=
  let c1 := ((c.dropSpilled k).flAbortAll).clearPage pg
  if pg = 0x240 then
    let c2 : Chip := { c1 with flm := { c1.flm with linkFail := false, patrol := 0 } }
    (c2.dlinkBit 8 false).dlinkBit 9 false
  else { c1 with flm := { c1.flm with full := [], returning := [] } }

/-! ## Lanes (R68, R75, R76) -/

/-- A lane block page: the settings and work of its lanes are as after reset; what LB_STAT and LN_STAT show of the PLLs and the
receivers stays (DEDUCED, log 52). A port whose lanes leave raw mode follows R77. -/
def Chip.laneReset (c : Chip) (k : Clk) (b : Nat) : Chip :=
  let c1 := (blockLanes b).foldl (fun c l => c.lnCfgWrite k l 0) c
  let c2 := c1.clearBut (Reg.pg_lane b) (Reg.lane_LB_STAT b :: (List.range 16).map (Reg.lane_LN_STAT b))
  let mine (l : Nat) : Bool := l / 16 == b
  { c2 with links := { c2.links with
    dfe := c2.links.dfe.filter fun kv => !mine kv.1
    boundary := c2.links.boundary.filter fun kv => !mine kv.1
    cleanRun := c2.links.cleanRun.filter fun kv => !mine kv.1
    badRun := c2.links.badRun.filter fun kv => !mine kv.1
    trainLimit := c2.links.trainLimit.filter fun kv => !mine kv.1 } }

/-! ## The soft reset of a page -/

/-- What a soft reset does to the chip, for the pages that hold no state outside it. -/
def Chip.pageReset (c : Chip) (k : Clk) (pg : Nat) : Chip :=
  let r := (pg - 0x120) / 16
  let c1 := match Reg.kindOf pg with
    | some .rstclk => c.clearBut pg [Reg.rstclk_REFCLK_STAT]
    | some .pwr => c.pwrReset (·.clearPage pg)
    | some .epoch => c.epochReset (·.clearPage pg)
    | some .mbx => c.mbxReset (·.clearPage pg)
    | some .therm => c.thermReset (·.clearPage pg)
    | some .fault => c.clearBut pg [Reg.fault_DLINK_STAT]
    | some .lane => c.laneReset k (pg - 0x040)
    | some .sched => c.schedReset r
    | some .wheel => c.wheelReset r
    | some .gauge => c.gaugeReset r
    | some .level => c.levelReset k r
    | some .trace => c.traceReset r
    | some .switch => c.switchReset k
    | some .bufmgr => c.bufReset k
    | some .em => c.emPageReset k
    | some .pfx => c.pfxPageReset k
    | some .lb | some .mcast => (c.clearPage pg).lookupBack pg
    | some .flume | some .spill => c.flumeReset k pg
    | some .telemetry => (c.clearPage pg).telReset
    | some .ledger => (c.clearPage pg).ldgReset k
    | some .dma => ((List.range 8).foldl Chip.blockOff c.dmaAbort).clearBut pg [Reg.dma_BLOCK_OWNER]
    | some .ringblk => (c.blockOff (pg - 0x261)).clearPage pg
    | _ => c.clearPage pg
  if bankedPage pg then c1.bankLost else c1

/-- The soft reset of a page starts: registers return to reset and the work in flight is discarded (R42). -/
def State.softReset (s : State) (pg : Nat) : State :=
  let c := s.chip
  let k := s.clk
  match Reg.kindOf pg with
  | none => s
  | some .time =>
    let present := c.rdF Reg.time_TIME_CLK_STAT 1 1
    let c1 := c.clearPage pg
    let s1 := ({ s with chip := c1.wrF Reg.time_TIME_CLK_STAT 1 1 present }).timeReset
    { s1 with clk := { s1.clk with todFault := false } }
  | some .life => ({ s with chip := c.clearPage pg }).lifeReset
  | some .vault =>
    let (c1, v) := vaultReset (c, s.vault)
    { s with chip := c1.clearPage pg, vault := v }
  | some .upage =>
    let u := pg - 0x020
    let (c1, v) := userPageReset (c, s.vault) u
    { s with chip := c1.clearPage pg, vault := v }
  | some .port =>
    let p := pg - 0x090
    let s1 := ({ s with chip := c.portReset k p 8 }).txtsClear p
    { s1 with chip := s1.chip.clearPage pg, vault := s1.vault.retirePort p }
  | some .sluice =>
    let (c1, v) := sluSoftReset (c, s.vault) k ((pg - 0x120) / 16) (·.clearPage pg)
    { s with chip := c1, vault := v }
  | some _ => { s with chip := c.pageReset k pg }

/-- SOFT_RESET_DONE: the reset of a page completes, and FAULT of a fault taken meanwhile clears (R42, R491). -/
def Chip.softResetDone (c : Chip) (pg : Nat) : Chip :=
  if !c.inReset pg then c
  else
    let c1 := (c.wrF (Reg.PAGE_CTL pg) 1 1 0).wrF (Reg.PAGE_STAT pg) 2 2 0
    if Reg.kindOf pg = some .sluice then c1.sluResetDone ((pg - 0x120) / 16) else c1

/-! ## DLINK_CMD (R496) -/

/-- A write of DLINK_CMD with GO: `false` for an access error of kind 5. `trained`: the link trains. The command ends
within the write (log 53). -/
def State.dlinkCmd (s : State) (agent : Nat) (v : Word) (trained : Bool) : Bool × State :=
  let st (s : State) (n : Nat) : State :=
    { s with chip := (s.chip.wr Reg.fault_DLINK_STATUS (wd n)).raise 0x008 0 }
  let d := fld v 3 0
  if agent ≠ 1 then (false, if bit v 31 then { s with chip := s.chip.wr Reg.fault_DLINK_STATUS (wd stDenied) } else s)
  else
    let s1 : State := { s with chip := s.chip.wr Reg.fault_DLINK_CMD (v &&& 0xF) }
    if !bit v 31 then (true, s1)
    else if 7 < d then (true, st s1 stBadArg)
    else if !trained then (true, st s1 stTimeout)
    else
      let c1 := s1.chip.dlinkBit d false
      let c2 : Chip := { c1 with links := { c1.links with dieFail := c1.links.dieFail.filter (· != d) } }
      let s2 := (List.range 18).foldl (fun s i =>
        let s' := s.softReset (0x090 + 18 * d + i)
        { s' with chip := s'.chip.softResetDone (0x090 + 18 * d + i) }) { s1 with chip := c2 }
      (true, st s2 stOk)

end Sys2Proof.Machine
end

