-- ==== Sys2Proof/Machine/BusRead.lean ====
section
/-!
DEFINITION. Machine/BusRead.lean: BAR0 as an agent reads it: which pages an agent reaches, access errors, what a
register reads as, and the effects of a read (02_register_space.md R33 to R57 and the register table of each chapter).
-/
namespace Sys2Proof.Machine

/-! ## Who reaches a page (R151, R422, R506, R509, R525, R527, R533) -/

/-- An agent reaches a page. Ring blocks, the MBX page, TIME for reading and owned Vault user pages are what a virtual
function reaches; a customer sluice does not reach the pages R151 names; the host DMA common page is PF0's (R547), and
the debug access port's by the matrix. -/
def State.mayReach (s : State) (agent pg : Nat) (write : Bool) : Bool :=
  let owned := s.chip.upOwner (pg - 0x020) == agent
  let up := decide (0x020 ≤ pg) && decide (pg < 0x040)
  if agent = 34 then
    s.dapMay pg write && (!up || owned || (!write && s.facility 3))
  else if up && !owned then false
  else if agent = 1 then !s.aux.lifeOnly || pg == 0x000 || pg == 0x004
  else if agent ≤ 8 then
    !s.aux.lifeOnly && (pg == 0x006 || pg == 0x261 + (agent - 1) || (pg == 0x003 && !write) || up)
  else if 25 ≤ agent ∧ agent ≤ 32 then
    !(pg == 0x001 || pg == 0x002 || pg == 0x004 || pg == 0x008 || pg == 0x010 ||
      (decide (0x120 ≤ pg) && decide (pg < 0x1A0) && pg % 16 == 3) || pg == 0x260)
  else if agent = 33 then pg != 0x260
  else pg != 0x260

/-- Pages that BAR0 serves in STANDBY (R527). -/
def standbyPage (pg : Nat) : Bool := pg == 0x000 || auxPage pg

/-- Pages that BAR0 serves before READY (R524 step 3). -/
def bootPage (pg : Nat) : Bool := pg == 0x000 || pg == 0x001 || pg == 0x004

/-- A page is not yet initialised, or stands in STANDBY (R525, R527). -/
def State.pageAsleep (s : State) (pg : Nat) : Bool :=
  (s.aux.phase != 6 && !bootPage pg) || (s.aux.pstate == 2 && !standbyPage pg)

/-- The registers at 0x100 and above read zero (R42, R525). -/
def State.readsZero (s : State) (pg off : Nat) : Bool :=
  decide (0x100 ≤ off) && (s.pageAsleep pg || s.chip.inReset pg)

/-! ## Access errors (R49) -/

/-- An access error: ACC_EV in the page, or in the CHIP page when the page is reserved, and the capture. -/
def Chip.accErr (c : Chip) (agent a kind : Nat) : Chip :=
  let pg := a / 65536
  let c1 := c.raise (if (Reg.kindOf pg).isSome then pg else 0) 28
  if c1.rdB Reg.chip_ACC_INFO 31 then c1
  else (c1.wr Reg.chip_ACC_ADDR (wd a)).wr Reg.chip_ACC_INFO (wd (0x80000000 + agent * 65536 + kind))

/-- The same of the state. -/
def State.accErr (s : State) (agent a kind : Nat) : State := { s with chip := s.chip.accErr agent a kind }

/-! ## The page header (R39, R40, R43) -/

/-- PAGE_ID.TYPE. -/
def typeOf : Reg.Kind → Nat
  | .chip => 0x01
  | .rstclk => 0x02
  | .pwr => 0x03
  | .time => 0x04
  | .life => 0x05
  | .epoch => 0x06
  | .mbx => 0x07
  | .therm => 0x08
  | .fault => 0x09
  | .vault => 0x10
  | .upage => 0x11
  | .lane => 0x20
  | .port => 0x21
  | .reachCommon => 0x30
  | .parser => 0x31
  | .weir => 0x32
  | .sluice => 0x33
  | .sched => 0x34
  | .wheel => 0x35
  | .gauge => 0x36
  | .level => 0x37
  | .trace => 0x38
  | .switch | .bufmgr | .mcast => 0x40
  | .em | .pfx | .lb => 0x41
  | .flume | .spill => 0x42
  | .telemetry | .ledger => 0x43
  | .dma | .ringblk => 0x44

/-- PAGE_ID.INSTANCE: k for LBk, p for port p, u for UPu, r for reach pages, 0 otherwise. -/
def instOf (k : Reg.Kind) (pg : Nat) : Nat :=
  match k with
  | .upage => pg - 0x020
  | .lane => pg - 0x040
  | .port => pg - 0x090
  | .reachCommon | .parser | .weir | .sluice | .sched | .wheel | .gauge | .level | .trace => (pg - 0x120) / 16
  | _ => 0

/-- PAGE_INST.DIE: 0 for the core tile, d + 1 for lane die d. -/
def pageDie (k : Reg.Kind) (pg : Nat) : Nat :=
  match k with
  | .lane => (pg - 0x040) / 9 + 1
  | .port => (pg - 0x090) / 18 + 1
  | _ => 0

/-- PAGE_INST.PAGE_IDX: 0 for single pages (log 54). -/
def pageIdx (k : Reg.Kind) (pg : Nat) : Nat :=
  match k with
  | .chip | .rstclk | .pwr | .time | .life | .epoch | .mbx | .therm | .fault | .vault | .upage | .lane | .port => 0
  | _ => pg % 16

/-- GO or BUSY of a register that starts a command reads 1 (R43 BUSY; log 54). -/
def State.pageBusy (s : State) (k : Reg.Kind) (pg : Nat) : Bool :=
  let c := s.chip
  match k with
  | .rstclk => c.rdB Reg.rstclk_PWR_CMD 31
  | .time => s.clk.step.isSome
  | .life => c.rdB Reg.life_RECOV_CMD 31
  | .epoch => c.rdB Reg.epoch_EPOCH_CMD 31
  | .upage => s.vault.jobBusy (pg - 0x020)
  | .sluice => c.sluState ((pg - 0x120) / 16) == 2
  | .em => c.rdB Reg.em_TBL_CMD 31
  | .pfx => c.rdB Reg.pfx_PFX_CMD 31
  | _ => false

/-- PAGE_STAT. -/
def State.pageStat (s : State) (k : Reg.Kind) (pg : Nat) : Word :=
  let c := s.chip
  let ready := !c.inReset pg && !s.pageAsleep pg &&
    (match k with | .bufmgr => c.enabled 0x221 && !c.buf.building | _ => true)
  wd ((bankedPage pg && c.staging).toNat * 8 + (c.faulted pg).toNat * 4 + (s.pageBusy k pg).toNat * 2 + ready.toNat)

/-! ## Registers that show a state (the RO registers of each table) -/

/-- Bits of a list of tests, the first lowest. -/
def bitsWhere (n : Nat) (f : Nat → Bool) : Word :=
  wd ((List.range n).foldl (fun a j => a + (f j).toNat * 2 ^ j) 0)

/-- Half of a 64-bit value. -/
def half (n : Nat) (hi : Bool) : Word := wd (if hi then n / 4294967296 % 4294967296 else n % 4294967296)

/-- RSTCLK (R529). -/
def State.viewRst (s : State) (off : Nat) : Option Word :=
  match off with
  | 0x100 => some (wd s.aux.rstCause)
  | 0x104 => some (wd s.aux.nextSlot)
  | 0x108 => some (wd s.aux.phase)
  | 0x114 => some (wd s.aux.pstate)
  | _ => none

/-- TIME (R351): the device time of TOD is the live one here; an agent's shadow stands before it. -/
def State.viewTime (s : State) (off : Nat) : Option Word :=
  let t := s.clk.tod
  match off with
  | 0x100 => some (half (todSec t) false)
  | 0x104 => some (half (todSec t) true)
  | 0x108 => some (wd (todNs t))
  | 0x10C => some (wd (todFrac t))
  | 0x11C => some (intW s.clk.freq)
  | 0x150 => some (wd (s.clk.servo * 0x10000000 + s.clk.stepSeq * 65536 + s.clk.count))
  | 0x154 => some (intW s.clk.integ)
  | 0x190 => some (setBit (s.chip.rd Reg.time_STEP_CMD) 31 s.clk.step.isSome)
  | _ => none

/-- Word `n` of a byte string. -/
def wordAt (b : List Byte) (n : Nat) : Word := wd (beNat (slice b (4 * n) 4))

/-- LIFE (R515; log 44). -/
def State.viewLife (s : State) (off : Nat) : Option Word :=
  let o := s.aux.otp
  if off = 0x100 then some s.aux.lcStat
  else if off = 0x10C then some (wd s.sessionLeft)
  else if 0x120 ≤ off ∧ off < 0x130 then some (Config.deviceId ((off - 0x120) / 4))
  else if 0x400 ≤ off ∧ off < 0x410 then
    some (match (o.custKeys[(off - 0x400) / 4]?).join with
      | none => 0
      | some (_, rev) => wd (0x80000000 + rev.toNat * 0x40000000))
  else if 0x440 ≤ off ∧ off < 0x540 then
    some (match (o.custKeys[(off - 0x440) / 64]?).join with
      | none => 0
      | some (h, _) => wordAt h ((off - 0x440) % 64 / 4))
  else if 0x540 ≤ off ∧ off < 0x564 then
    some (match o.svn[(off - 0x540) / 4]? with | none => 0 | some (fl, left) => wd (left * 65536 + fl))
  else if off = 0x580 then
    some (wd ((decide (s.aux.phase = 6)).toNat * 0x80000000 + s.aux.fail0 * 0x1000000 + s.aux.fail1 * 0x100000 +
      s.aux.bootSlot * 65536))
  else if 0x600 ≤ off ∧ off < 0x664 then some (wordAt o.attPub ((off - 0x600) / 4))
  else if off = 0x704 then some s.aux.frzStat
  else if off = 0x708 then some (wd s.aux.frzSec)
  else if off = 0x70C then some (wd s.aux.frzNs)
  else none

/-- Vault common and user pages (R434, R435). -/
def State.viewVault (s : State) (k : Reg.Kind) (pg off : Nat) : Option Word :=
  let v := s.vault
  let u := pg - 0x020
  match k with
  | .vault =>
    if off = 0x104 then
      some (wd ((s.chip.rdB Reg.vault_VLT_CFG 31 && v.state == 1).toNat * 0x80000000 + v.state))
    else none
  | _ =>
    if off = 0x100 then some (wd ((v.jobBusy u).toNat * 0x80000000))
    else if 0x200 ≤ off ∧ off < 0x240 then
      some (match v.slot u ((off - 0x200) / 4) with
        | none => 0
        | some x => if x.half.isSome then 0
          else wd (0x80000000 + x.typ * 0x1000000 + x.exportable.toNat * 0x800000 + x.fixed % 65536))
    else if 0x240 ≤ off ∧ off < 0x2C0 then
      some (match v.slot u ((off - 0x240) / 8) with
        | none => 0
        | some x => half x.ctr (off % 8 == 4))
    else none

/-- Lane blocks and ports (R84, R253, R420). -/
def State.viewPort (s : State) (k : Reg.Kind) (pg off : Nat) : Option Word :=
  match k with
  | .lane =>
    let l := 16 * (pg - 0x040) + (off - 0x1000) / 256
    if off < 0x1000 then none
    else if off % 256 = 0x40 then some (wd (Config.laneRxDelay l).toNat)
    else if off % 256 = 0x44 then some (wd (Config.laneTxDelay l).toNat)
    else none
  | _ =>
    let p := pg - 0x090
    if 0x900 ≤ off ∧ off < 0x980 then some (wd (s.chip.hdrmUse (8 * p + (off - 0x900) / 16) (off % 16 / 4)))
    else if 0x1600 ≤ off ∧ off < 0x1620 then some (wd (s.vault.saInUse (8 * p + (off - 0x1600) / 4)))
    else none

/-- Reach pages (R170, R301, R303, R365, R392). -/
def State.viewReach (s : State) (k : Reg.Kind) (pg off : Nat) : Option Word :=
  let c := s.chip
  let r := (pg - 0x120) / 16
  match k with
  | .sluice =>
    let u := c.slu1 r
    if off = 0x104 then
      some ((c.rd (Reg.sluice_SL_STAT r) &&& 0x000F0F00) ||| bitsWhere 4 fun t => (u.th t).st != 0)
    else if off = 0x114 then
      some (setBit (c.rd (Reg.sluice_IMG_CMD r)) 31 (c.sluState r == 2))
    else if off = 0x120 then
      some ((c.rd (Reg.sluice_IMG_SVN r) &&& 0xFFFF) ||| wd (s.aux.svnFloor r * 65536))
    else if 0x200 ≤ off ∧ off < 0x240 ∧ off % 16 = 8 then
      let t := u.th ((off - 0x200) / 16)
      some (wd (t.st * 65536 + t.pc))
    else if off = 0x260 then
      some (setBit (c.rd (Reg.sluice_SL_EVENT r)) 5 (c.rdB (Reg.sluice_SL_EVENT r) 5 || c.extNow r))
    else none
  | .sched =>
    if off = 0x100 then
      some (wd ((c.sw.oldGates.any fun g => reachOf g.1 == r).toNat * 0x80000000 + c.epCur))
    else none
  | .wheel =>
    if off = 0x100 then
      some (wd (s.clk.tod / (1024 * fineU) % 1024 * 65536 + s.clk.tod / fineU % 1024))
    else none
  | .level =>
    if off = 0x104 then
      some (wd (c.sw.hold.filter fun cid =>
        match mget c.sw.copies cid with | some cp => reachOf cp.lp == r | none => false).length)
    else none
  | .trace => if off = 0x104 then some (wd (c.beat % 4096)) else none
  | _ => none

/-- Switch core, buffer manager, tables, Flume (R251, R274, R201, R226, R323, R324). -/
def State.viewCore (s : State) (k : Reg.Kind) (off : Nat) : Option Word :=
  let c := s.chip
  match k with
  | .switch =>
    if off = 0x104 then some (wd c.descFree)
    else if off = 0x108 then some (wd c.qentFree)
    else if 0x4000 ≤ off ∧ off < 0x5204 then
      let lp := (off - 0x4000) / 4
      some (setBit (c.rd (Reg.switch_PSTAT lp)) 0 (c.fwdUp lp))
    else none
  | .bufmgr =>
    if 0x120 ≤ off ∧ off < 0x12C then some (wd (c.poolFree ((off - 0x120) / 4)))
    else if 0x130 ≤ off ∧ off < 0x13C then
      let p := (off - 0x130) / 4
      some (wd (c.fbLevels p * 0x10000000 + c.poolShared p))
    else if 0x140 ≤ off ∧ off < 0x14C then some (wd (c.poolHr ((off - 0x140) / 4)))
    else if 0x400 ≤ off ∧ off < 0x480 then
      let g := (off - 0x400) / 4
      some (wd (c.fbLevels (4 + g) * 0x10000000 + c.groupShared g))
    else none
  | .em =>
    if 0x400 ≤ off ∧ off < 0x440 then some (wd (c.emCount ((off - 0x400) / 4)))
    else if off = 0x458 then some (wd c.tbl.learnQ.length)
    else none
  | .pfx =>
    match off with
    | 0x400 => some (wd (c.pfxCount false false))
    | 0x404 => some (wd (c.pfxCount true false))
    | 0x408 => some (wd c.pfxSlots4)
    | 0x40C => some (wd (c.pfxCount true true * 65536 + c.pfxCount false true))
    | _ => none
  | .spill =>
    match off with
    | 0x104 => some (wd c.spillCtxs)
    | 0x108 => some (wd c.flm.pages.length)
    | _ => none
  | _ => none

/-- A register that shows a state, and no other value; `none` for one that holds its value. -/
def State.viewReg (s : State) (k : Reg.Kind) (a : Nat) : Option Word :=
  let c := s.chip
  let pg := a / 65536
  let off := a % 65536
  if off < 0x100 then
    match off with
    | 0x00 => some (wd (typeOf k * 65536 + instOf k pg % 256 * 256 + 0xB0))
    | 0x04 => some (wd (pageDie k pg * 0x1000000 + pageIdx k pg * 0x100000 + instOf k pg))
    | 0x0C => some (s.pageStat k pg)
    | 0x10 => some (c.cause pg)
    | _ => none
  else
    match k with
    | .chip =>
      if 0x800 ≤ off ∧ off < 0x850 then some (bitsWhere 32 fun j => c.asserts (8 * (off - 0x800) + j)) else none
    | .rstclk => s.viewRst off
    | .time => s.viewTime off
    | .life => s.viewLife off
    | .epoch =>
      match off with
      | 0x110 => some (wd c.epInflight)
      | 0x120 => some ((c.rd Reg.epoch_JNL_STAT &&& 0xC0000000) ||| wd (c.ep.journal.length % 524288))
      | _ => none
    | .mbx =>
      if 0x900 ≤ off ∧ off < 0xA00 then some (wd (c.lockOwner ((off - 0x900) / 4))) else none
    | .therm =>
      match off with
      | 0x184 => some (wd (match c.pwr.peak with | some t => temp16 t | none => 0))
      | 0x194 => some (setBit (c.rd Reg.therm_THERM_STAT) 30 s.aux.trip)
      | _ => none
    | .fault =>
      if 0x100 ≤ off ∧ off < 0x150 then some (bitsWhere 32 fun j => c.faulted (8 * (off - 0x100) + j))
      else if off = 0x1A0 then
        some (wd (c.classAHolds.toNat * 0x80000000 + (!c.rdB Reg.flume_PATROL_CTL 31).toNat))
      else none
    | .vault | .upage => s.viewVault k pg off
    | .lane | .port => s.viewPort k pg off
    | .sluice | .sched | .wheel | .level | .trace => s.viewReach k pg off
    | _ => s.viewCore k off

/-- The bank that a read of an RWE register takes (R48). -/
def Chip.readBank (c : Chip) (pg : Nat) : Bool :=
  if c.rdB (Reg.PAGE_CTL pg) 4 && c.staging then !c.bankB else c.bankB

/-- What a register holds for a reader: the state it shows, the bank of an RWE register, and nothing in bits that are
written only. -/
def State.peek (s : State) (k : Reg.Kind) (row : Reg.Row) (a : Nat) : Word :=
  match s.viewReg k a with
  | some v => v
  | none =>
    if row.rwe ≠ 0 then s.chip.rdE (s.chip.readBank (a / 65536)) a
    else s.chip.rd a &&& ~~~ wd row.wo

/-! ## Reads with effects of their own -/

/-- Shadow key of an agent's half-read pair or device time. -/
def shadowKey (agent a : Nat) : Nat := agent * 0x10000000 + a

/-- A read of one of the TOD registers (R328). -/
def State.todRead (s : State) (agent off : Nat) : Word × State :=
  if off = 0x100 then
    (half (todSec s.clk.tod) false, { s with clk := { s.clk with todShadow := mput s.clk.todShadow agent (some s.clk.tod) } })
  else
    let t := (mget s.clk.todShadow agent).getD s.clk.tod
    (if off = 0x104 then half (todSec t) true else if off = 0x108 then wd (todNs t) else wd (todFrac t), s)

/-- What a read gives: the kind of its access error, 0 for none, the value, and the state. -/
structure ReadRes where
  kind : Nat
  val : Word
  st : State

/-- A read without an access error. -/
def readOk (r : Word × State) : ReadRes := { kind := 0, val := r.1, st := r.2 }

/-- An access that the page refuses: zero, and an access error of kind 5. -/
def State.refusedRead (s : State) (agent a : Nat) : ReadRes := { kind := 5, val := 0, st := s.accErr agent a 5 }

/-- A read that ends in a Chip. -/
def State.chipRead (s : State) (r : Word × Chip) : Word × State := (r.1, { s with chip := r.2 })

/-- Bandwidth in use is not in the model's reach: a free value of the field's width (R323; log 54). -/
def State.bwRead (s : State) : Word × State :=
  let (v, c) := s.chip.free
  (v &&& 0xFFF, { s with chip := c })

/-- The rest: the value, the RC fields cleared, and the shadow of a 64-bit pair (R6, R35, R36). -/
def State.plainRead (s : State) (agent : Nat) (k : Reg.Kind) (row : Reg.Row) (a : Nat) : Word × State :=
  let c := s.chip
  let v := s.peek k row a
  if row.half = 1 then
    let c1 : Chip := { c with shadow := mput c.shadow (shadowKey agent a) (some (c.rd (a + 4))) }
    (v, { s with chip := if row.rc ≠ 0 then (c1.wr a 0).wr (a + 4) 0 else c1 })
  else if row.half = 2 then ((mget c.shadow (shadowKey agent (a - 4))).getD v, s)
  else if row.rc ≠ 0 then (v, { s with chip := c.wr a (c.rd a &&& ~~~ wd row.rc) })
  else (v, s)

/-- A read that reaches its register. -/
def State.readReg (s : State) (agent : Nat) (k : Reg.Kind) (row : Reg.Row) (a : Nat) : ReadRes :=
  let pg := a / 65536
  let off := a % 65536
  match k with
  | .time =>
    if 0x100 ≤ off ∧ off ≤ 0x10C then readOk (s.todRead agent off)
    else if off = 0x1D4 then readOk s.ppsRead
    else readOk (s.plainRead agent k row a)
  | .mbx =>
    if 0x100 ≤ off ∧ off < 0x500 ∧ off % 32 < 16 then
      match s.chip.ptrRead agent ((off - 0x100) / 32) (off % 16 / 4) with
      | (true, v, c) => readOk (v, { s with chip := c })
      | (false, _, c) => ({ s with chip := c } : State).refusedRead agent a
    else if 0x600 ≤ off ∧ off < 0x610 then readOk (s.chip.staged agent ((off - 0x600) / 4), s)
    else if off = 0x614 then readOk (wd (mrd 0 s.chip.mbx.res agent), s)
    else if 0x800 ≤ off ∧ off < 0x900 then readOk (s.chipRead (s.chip.lockRead agent ((off - 0x800) / 4)))
    else readOk (s.plainRead agent k row a)
  | .therm =>
    if off = 0x184 then readOk (s.peek k row a, { s with chip := { s.chip with pwr := { s.chip.pwr with peak := none } } })
    else readOk (s.plainRead agent k row a)
  | .port =>
    if 0x2040 ≤ off ∧ off < 0x20C0 ∧ off % 16 = 0 then readOk (s.txtsRead (8 * (pg - 0x090) + (off - 0x2040) / 16))
    else readOk (s.plainRead agent k row a)
  | .sluice =>
    if off = 0x304 then
      match s.dsRead ((pg - 0x120) / 16) with
      | (true, v, s1) => readOk (v, s1)
      | (false, _, s1) => s1.refusedRead agent a
    else readOk (s.plainRead agent k row a)
  | .flume => if 0x110 ≤ off ∧ off < 0x124 then readOk s.bwRead else readOk (s.plainRead agent k row a)
  | _ => readOk (s.plainRead agent k row a)

/-- A register read by an agent (R6, R34 to R36, R48, R49). A reserved page or offset reads zero without an error,
except to an agent that may not reach the page: that access is one of kind 3 (log 54). -/
def State.readAt (s : State) (agent a : Nat) : ReadRes :=
  if !s.live then readOk (0, s)
  else
    let pg := a / 65536
    match Reg.kindOf pg, Reg.rowAt a with
    | some k, some row =>
      if !s.mayReach agent pg false then s.refusedRead agent a
      else if s.readsZero pg (a % 65536) then readOk (0, s)
      else s.readReg agent k row a
    | _, _ =>
      if s.mayReach agent pg false then readOk (0, s) else { kind := 3, val := 0, st := s.accErr agent a 3 }

/-- The same: the value returned and the state. -/
def State.busRead (s : State) (agent a : Nat) : Word × State := ((s.readAt agent a).val, (s.readAt agent a).st)

end Sys2Proof.Machine
end

