-- ==== Sys2Proof/Machine/PowerState.lean ====
section
/-!
DEFINITION. Machine/PowerState.lean: reference clocks, the power states and the PCIe fundamental reset
(22_reset_boot_clocks.md R519, R521, R526, R527).
-/
namespace Sys2Proof.Machine

/-! ## Reference clocks (R521) -/

/-- REFCLKn is present. -/
def Chip.refPresent (c : Chip) (n : Nat) : Bool := c.rdB Reg.rstclk_REFCLK_STAT n

/-- Logical ports of a lane die. -/
def refPorts (d : Nat) : List Nat := (List.range 144).map (144 * d + ·)

/-- A lane die moves to or from the spare: its PLLs lose lock until they relock, its ports take a loss condition
meanwhile, and SPARE_SW_EV sets. -/
def Chip.spareSwitch (c : Chip) (d : Nat) (on : Bool) : Chip :=
  let c1 := c.wrF Reg.rstclk_REFCLK_STAT (16 + d) (16 + d) on.toNat
  let c2 := (List.range 9).foldl (fun c i => (c.pllUnlock (9 * d + i) true).pllUnlock (9 * d + i) false) c1
  let c3 := (refPorts d).foldl (fun c lp =>
    if c.lpActive lp && (c.linkSt lp == 7 || c.linkSt lp == 8) then c.lossBegin lp else c) c2
  c3.raise 0x001 26

/-- A reference shows no edge for 1 µs. -/
def Chip.refclkLoss (c : Chip) (n : Nat) : Chip :=
  if 8 < n ∨ !c.refPresent n then c
  else
    let c1 := (c.wrF Reg.rstclk_REFCLK_STAT n n 0).raise 0x001 27
    if n < 8 ∧ c1.rdB Reg.rstclk_REFCLK_CTL 8 ∧ c1.refPresent 8 ∧ !c1.rdB Reg.rstclk_REFCLK_CTL n then
      (c1.wrF Reg.rstclk_REFCLK_CTL n n 1).spareSwitch n true
    else c1

/-- A lost reference toggles again. -/
def Chip.refclkReturn (c : Chip) (n : Nat) : Chip := if 8 < n then c else c.wrF Reg.rstclk_REFCLK_STAT n n 1

/-- A write of REFCLK_CTL: each die whose USE_SPARE bit changes is switched. -/
def Chip.refclkCtl (c : Chip) (v : Word) : Chip :=
  (List.range 8).foldl (fun x d => if c.rdB Reg.rstclk_REFCLK_CTL d == bit v d then x else x.spareSwitch d (bit v d))
    (c.wr Reg.rstclk_REFCLK_CTL (v &&& 0x1FF))

/-! ## PWR_CMD (R526, R527) -/

/-- A transition runs: GO reads 1. -/
def Chip.pwrBusy (c : Chip) : Bool := c.rdB Reg.rstclk_PWR_CMD 31

/-- A command ends with a status. -/
def Chip.pwrEnd (c : Chip) (st : Nat) : Chip :=
  (c.wrF Reg.rstclk_PWR_CMD 31 31 0).wr Reg.rstclk_PWR_STATUS (wd st)

/-- A transition has completed: PWR_DONE_EV. -/
def Chip.pwrDone (c : Chip) : Chip := (c.pwrEnd stOk).raise 0x001 24

/-- XOFF of every slot follows the quiesce, or the freeboard levels again. -/
def Chip.quiesceFc (c : Chip) (k : Clk) (on : Bool) : Chip :=
  (List.range 1152).foldl (fun c lp =>
    if c.rd (Reg.port_FC_CTL (lp / 8) (lp % 8)) = 0 then c
    else (List.range 3).foldl (fun c j => c.xoffChange k lp j on) c) c

/-- QUIESCE begins: arriving frames are discarded and XOFF goes out; the transition ends once the queued copies have
drained. -/
def State.quiesce (s : State) : State :=
  let c := (s.chip.wrF Reg.rstclk_PWR_CMD 31 31 1).quiesceFc s.clk true
  { s with aux := { s.aux with pstate := 1 }, chip := c }

/-- ACTIVE from QUIESCE. -/
def State.activate (s : State) : State :=
  { s with aux := { s.aux with pstate := 0 }, chip := (s.chip.quiesceFc s.clk false).pwrDone }

/-- STANDBY entry begins: the sluices are held and the Flume drains. -/
def Chip.standbyBegin (c : Chip) : Chip :=
  let c1 : Chip := { c with slu := { c.slu with s := c.slu.s.map fun u => { u with held := true } } }
  c1.flDrain

/-- Every thread of a running sluice stands still or waits, or is idle. -/
def Chip.sluicesHeld (c : Chip) : Bool :=
  (List.range 16).all fun r => c.sluState r != 3 || (c.slu1 r).threads.all fun th => th.st == 0 || th.st == 2 || th.stopped

/-- A logical port's lanes go to OFF whatever its requests. -/
def Chip.laneOff (c : Chip) (k : Clk) (lp : Nat) : Chip :=
  if !c.lpActive lp || c.lpPower lp == 3 then c
  else
    let ls := c.lanesOf lp
    let c1 := (c.linkDeep k lp).lanesF 17 16 3 ls
    c1.lanesF 3 0 0 ls

/-- STANDBY is entered: lanes off, PLLs stopped, core clock gated. -/
def State.standbyEnter (s : State) : State :=
  let c1 := (List.range 1152).foldl (fun c lp => c.laneOff s.clk lp) s.chip
  let c2 := (List.range 72).foldl (fun c b => c.wr (Reg.lane_LB_STAT b) 0) { c1 with links := { c1.links with
    moving := [], pllStopping := [] } }
  { s with aux := { s.aux with pstate := 2 }, chip := c2.pwrDone }

/-- STANDBY is left for QUIESCE: the core clock restarts, sluices resume, the Flume wakes and lanes come up cold. -/
def State.standbyLeave (s : State) : State :=
  let c := s.chip
  let c1 : Chip := { c with
    lastBeat := s.clk.now
    slu := { c.slu with s := c.slu.s.map fun u =>
      { u with held := false, threads := u.threads.map fun th => { th with stopped := false } } } }
  let c2 := (List.range 144).foldl (fun c p => c.pwrActAll s.clk p 8) c1.flWake
  { s with aux := { s.aux with pstate := 1 }, chip := c2.pwrDone }

/-- A PWR_CMD that may run: the transition of R526 for the present state and the target. A request for the state the
device is in changes nothing (log 55). -/
def State.pwrRun (s : State) (t : Nat) : State :=
  match s.aux.pstate, t with
  | 0, 1 => s.quiesce
  | 0, 2 => { s with chip := s.chip.pwrEnd stBadArg }
  | 1, 0 => s.activate
  | 1, 2 =>
    let s1 : State := { s with chip := s.chip.wrF Reg.rstclk_PWR_CMD 31 31 1 }
    if s.chip.epState = 3 then { s1 with aux := { s1.aux with standbyWait := true } }
    else { s1 with chip := s1.chip.standbyBegin }
  | 2, 1 => s.standbyLeave
  | 2, 0 => s.standbyLeave.activate
  | _, _ => { s with chip := s.chip.pwrEnd stOk }

/-- A write of PWR_CMD: agents 1 and 34 only, `false` otherwise. -/
def State.pwrCmd (s : State) (agent : Nat) (v : Word) : Bool × State :=
  if agent ≠ 1 ∧ agent ≠ 34 then (false, s)
  else if !bit v 31 then (true, { s with chip := s.chip.wrF Reg.rstclk_PWR_CMD 1 0 (fld v 1 0) })
  else if s.aux.phase ≠ 6 ∨ s.chip.pwrBusy then (true, { s with chip := s.chip.wr Reg.rstclk_PWR_STATUS (wd stBusy) })
  else
    let s1 : State := { s with chip := s.chip.wrF Reg.rstclk_PWR_CMD 1 0 (fld v 1 0) }
    if fld v 1 0 = 3 then (true, { s1 with chip := s1.chip.pwrEnd stBadArg }) else (true, s1.pwrRun (fld v 1 0))

/-- Every copy and every frame has left the device. -/
def Chip.drained (c : Chip) : Bool := c.sw.copies.isEmpty && c.frames.isEmpty

/-- What a transition in progress waits for has come: the drain of QUIESCE, the retirement before STANDBY, or the held
sluices and the Flume of STANDBY entry. -/
def State.powerSettle (s : State) : State :=
  if s.aux.rail ≠ .run ∨ s.aux.frozen ∨ s.aux.pstate ≠ 1 ∨ !s.chip.pwrBusy then s
  else if s.chip.rdF Reg.rstclk_PWR_CMD 1 0 = 2 then
    if s.aux.standbyWait then
      if s.chip.epState = 3 then s
      else { s with aux := { s.aux with standbyWait := false }, chip := s.chip.standbyBegin }
    else if s.chip.sluicesHeld && s.chip.flm.pstate == 2 then s.standbyEnter else s
  else if s.chip.drained then { s with chip := s.chip.pwrDone } else s

/-- DRAIN_TMO expires in QUIESCE: the copies left are flushed with PORT_DOWN. -/
def State.drainTmo (s : State) : State :=
  if !s.coreOn ∨ s.aux.pstate ≠ 1 then s
  else
    let c := s.chip.killCopies s.clk (fun _ => true) drPortDown true
    { s with chip := if c.pwrBusy && c.rdF Reg.rstclk_PWR_CMD 1 0 == 1 then c.pwrDone else c }

/-- A frame arrives at a receive MAC in QUIESCE: it is discarded and counted. -/
def Chip.quiesceDrop (c : Chip) : Chip := c.count Reg.rstclk_QUIESCE_DROP_CNT 1

/-! ## PERST_N (R519, R546) -/

/-- The PCIe fundamental reset: every ring block as at FLR, VF Enable off, the pages of host DMA at reset. It has no effect
while the device is held in reset (R520). -/
def State.perst (s : State) : State :=
  if s.aux.rail ≠ .run then s
  else
    let c1 := (List.range 8).foldl (fun c f => c.flr f) s.chip
    let c2 := (c1.vfEnable false 0)
    let c3 : Chip := { c2 with regs := c2.regs.filter fun kv => !(decide (0x2600000 ≤ kv.1) && decide (kv.1 < 0x2690000)) }
    { s with
      aux := { s.aux with rstCause := s.aux.rstCause ||| 16 }
      chip := { c3 with dma := { c3.dma with lists := [], coalDue := [], masked := [] } } }

end Sys2Proof.Machine
end

