-- ==== Sys2Proof/Machine/BusWrite.lean ====
section
/-!
DEFINITION. Machine/BusWrite.lean: BAR0 as an agent writes it: what a write of each register does, and access errors
(02_register_space.md R33 to R57 and the register table of each chapter).
-/
namespace Sys2Proof.Machine

/-- What the outside decides about a write of a command register: whether a die link trains (R496), and whether the
read-back of a zeroisation finds zero (R432). Where a command gives neither, both are taken as they should be (log 54). -/
structure BusEnv where
  trained : Bool := true
  readBack : Bool := true
  deriving DecidableEq, Repr

/-! ## The ordinary write (R6, R48) -/

/-- RW bits take the value, W1C bits written 1 clear, and RWE bits go to the staging bank. -/
def Chip.store (c : Chip) (row : Reg.Row) (a : Nat) (v : Word) : Chip :=
  if row.rwe ≠ 0 then
    let key := bankKey (!c.bankB) a
    if c.staging then c.wr key ((c.rd key &&& ~~~ wd row.rwe) ||| (v &&& wd row.rwe)) else c
  else
    let old := c.rd a
    let v1 := (old &&& ~~~ wd row.rw) ||| (v &&& wd row.rw)
    c.wr a (v1 &&& ~~~ (v &&& wd row.w1c))

/-- The ordinary write, and what it changes in the conditions INT_CAUSE follows. -/
def Chip.plainWrite (c : Chip) (row : Reg.Row) (a : Nat) (v : Word) : Chip :=
  let pg := a / 65536
  (c.edge (c.store row a v) pg).firstSettle pg

/-! ## The page header (R41, R44 to R47, R484) -/

/-- A write that makes one of the two conditions of the class A guarantee false sets CLASSA_LAPSE_EV. -/
def Chip.lapse (c c1 : Chip) : Chip :=
  let scrub (x : Chip) : Bool := classAPages.all fun pg => x.rdB (Reg.SCRUB_CTL pg) 0
  let patrol (x : Chip) : Bool := x.rdB Reg.flume_PATROL_CTL 31
  if (scrub c && !scrub c1) || (patrol c && !patrol c1) then c1.raise 0x008 25 else c1

/-- PAGE_CTL: EN of the buffer manager starts the build, and SOFT_RST a soft reset. -/
def State.pageCtl (s : State) (pg : Nat) (v : Word) : State :=
  let old := s.chip.rd (Reg.PAGE_CTL pg)
  let c := s.chip.wr (Reg.PAGE_CTL pg) ((old &&& 2) ||| (v &&& 0x15))
  let c1 :=
    if pg = 0x221 ∧ bit v 0 ∧ !bit old 0 then
      (match c.bmEnable with
       | (true, x) => x
       | (false, x) => x.wrF (Reg.PAGE_CTL pg) 0 0 0)
    else c
  let s1 : State := { s with chip := c1 }
  if bit v 1 && !bit old 1 then s1.softReset pg else s1

/-- A write of the header. -/
def State.headerWrite (s : State) (k : Reg.Kind) (row : Reg.Row) (a : Nat) (v : Word) : State :=
  let c := s.chip
  let pg := a / 65536
  match a % 65536 with
  | 0x08 => s.pageCtl pg v
  | 0x10 => { s with chip := (c.wr a (c.rd a &&& ~~~ v)).firstSettle pg }
  | 0x14 => { s with chip := c.settle (c.wr a v) pg }
  | 0x18 => { s with chip := c.raiseM pg (v &&& wd (0xF0000000 + Reg.evMask k)) }
  | 0x30 =>
    if noSram k then s
    else
      let c1 := c.lapse (c.store row a v)
      { s with chip := if bit v 1 then c1.scrubNow pg else c1 }
  | 0x34 => if noSram k then s else { s with chip := c.store row a v }
  | _ => { s with chip := c.store row a v }

/-! ## Writes with effects of their own, by page -/

/-- Accepted, with the device as it is then. -/
def State.okChip (s : State) (c : Chip) : Bool × State := (true, { s with chip := c })

/-- Accepted or refused as a family's operation says. -/
def State.chipRes (s : State) (r : Bool × Chip) : Bool × State := (r.1, { s with chip := r.2 })

/-- The same of an operation on device and Vault. -/
def State.cvRes (s : State) (r : Bool × CV) : Bool × State := (r.1, { s with chip := r.2.1, vault := r.2.2 })

/-- VEC_REARM (R54). -/
def Chip.vecRearm (c : Chip) (v : Word) : Chip :=
  let fv := (fld v 18 16, fld v 6 0)
  if c.vecPending fv then c.message fv else c

/-- INT_ROUTE of a page: a vector that becomes pending so sends its message (R54). -/
def Chip.routeWrite (c : Chip) (row : Reg.Row) (a : Nat) (v : Word) : Chip :=
  let pg := (a - 0x1000) / 4
  let c1 := c.store row a v
  match c1.route pg with
  | some fv => if c1.asserts pg && !c.vecPending fv then c1.message fv else c1
  | none => c1

/-- CHIP, RSTCLK (R50, R54, R529). SW_RST itself is carried out by the command that writes it (`State.regWrite`). -/
def State.writeRst (s : State) (agent : Nat) (row : Reg.Row) (a : Nat) (v : Word) : Bool × State :=
  match a with
  | 0x00000900 => s.okChip (s.chip.vecRearm v)
  | 0x00010100 => (true, { s with aux := { s.aux with rstCause := s.aux.rstCause &&& (0x1F ^^^ fld v 4 0) } })
  | 0x00010104 =>
    if bit v 8 ∧ agent ≠ 1 then (false, s)
    else (true, { s with aux := { s.aux with nextSlot := fld v 1 0 } })
  | 0x00010110 => s.pwrCmd agent v
  | 0x00010134 => s.okChip (s.chip.refclkCtl v)
  | _ =>
    if 0x1000 ≤ a ∧ a < 0x19C0 then s.okChip (s.chip.routeWrite row a v) else s.okChip (s.chip.plainWrite row a v)

/-- PWR (R476). -/
def State.writePwr (s : State) (agent : Nat) (row : Reg.Row) (a : Nat) (v : Word) : Bool × State :=
  let c := s.chip
  match a % 65536 with
  | 0x100 | 0x104 | 0x108 => if capAgent agent then s.okChip (c.store row a v) else (false, s)
  | 0x10C => if capAgent agent then s.okChip (if bit v 0 then c.fracApply else c) else (false, s)
  | 0x110 => s.okChip (c.store row a v).paceShow
  | 0x15C => s.okChip (c.calCtlWrite v)
  | 0x1C0 => s.okChip (c.grpCtlWrite v)
  | _ => s.okChip (c.plainWrite row a v)

/-- TIME (R351). -/
def State.writeTime (s : State) (agent : Nat) (row : Reg.Row) (a : Nat) (v : Word) : Bool × State :=
  let c := s.chip
  match a % 65536 with
  | 0x110 => s.okChip (c.refSel v)
  | 0x118 | 0x120 => (true, ({ s with chip := c.store row a v } : State).freqWritten)
  | 0x130 => (true, s.servoCtl v)
  | 0x14C => s.sampleHi agent v
  | 0x190 => s.stepCmd agent v false
  | _ => s.okChip (c.plainWrite row a v)

/-- LIFE (R515). RECOV_CMD is carried out by the command that writes it (`State.regWrite`). -/
def State.writeLife (s : State) (agent : Nat) (row : Reg.Row) (a : Nat) (v : Word) : Bool × State :=
  let off := a % 65536
  if off = 0x104 then s.lcWrite agent v
  else if 0x200 ≤ off ∧ off < 0x400 then (true, { s with aux := s.aux.tokenWrite ((off - 0x200) / 4) v })
  else if off = 0x590 then (agent == 1, s)
  else if off = 0x700 then
    let s1 : State := { s with chip := s.chip.store row a v }
    (true, if bit v 31 then s1.frzNow agent else s1)
  else if off = 0x710 then (true, { s with aux := s.aux.frzClr v })
  else s.okChip (s.chip.plainWrite row a v)

/-- MBX (R410). -/
def State.writeMbx (s : State) (agent : Nat) (row : Reg.Row) (a : Nat) (v : Word) : Bool × State :=
  let c := s.chip
  let off := a % 65536
  if 0x100 ≤ off ∧ off < 0x500 ∧ off % 32 = 0x14 then s.chipRes (c.ackWrite agent ((off - 0x114) / 32) (fld v 7 0))
  else if 0x600 ≤ off ∧ off < 0x610 then s.okChip (c.stageW agent ((off - 0x600) / 4) v)
  else if off = 0x610 then s.chipRes (c.postCmd agent (fld v 4 0))
  else if 0x800 ≤ off ∧ off < 0x900 then s.okChip (c.lockWrite agent ((off - 0x800) / 4) v)
  else if off = 0xA00 then s.chipRes (c.lockBreak agent v)
  else s.okChip (c.plainWrite row a v)

/-- Vault common and user pages (R434, R435). -/
def State.writeVault (s : State) (env : BusEnv) (agent : Nat) (row : Reg.Row) (a : Nat) (v : Word) : Bool × State :=
  let pg := a / 65536
  let off := a % 65536
  let vaultAgent := agent == 1 || agent == 17
  if pg = 0x010 then
    if off = 0x100 then (if vaultAgent then s.okChip (s.chip.store row a v) else (false, s))
    else if off = 0x108 then
      if !vaultAgent then (false, s)
      else if bit v 31 then s.cvRes (true, zeroizeAll (s.chip, s.vault) env.readBack)
      else (true, s)
    else if 0x200 ≤ off then s.cvRes (upOwnerWrite (s.chip, s.vault) agent ((off - 0x200) / 4) v)
    else s.okChip (s.chip.plainWrite row a v)
  else if off = 0x100 then
    (if bit v 31 then s.cvRes (true, jobSubmit (s.chip, s.vault) (pg - 0x020)) else (true, s))
  else s.okChip (s.chip.plainWrite row a v)

/-- Lane blocks (R84). -/
def State.writeLane (s : State) (row : Reg.Row) (a : Nat) (v : Word) : Bool × State :=
  let c := s.chip
  let off := a % 65536
  let l := 16 * (a / 65536 - 0x040) + (off - 0x1000) / 256
  match off % 256 with
  | 0x00 => s.okChip (c.lnCfgWrite s.clk l v)
  | 0x08 => s.okChip (c.txEqWrite l v)
  | 0x10 => s.okChip (c.rxAdaptWrite l v)
  | 0x18 => s.okChip (c.slipWrite l v)
  | 0x48 => s.okChip (c.brdWrite l false v)
  | 0x4C => s.okChip (c.brdWrite l true v)
  | _ => s.okChip (c.plainWrite row a v)

/-- Ports (R86, R253, R420, R353). -/
def State.writePort (s : State) (agent : Nat) (row : Reg.Row) (a : Nat) (v : Word) : Bool × State :=
  let c := s.chip
  let off := a % 65536
  let p := a / 65536 - 0x090
  if off = 0x100 then s.okChip (c.portModeWrite s.clk p v)
  else if off = 0x104 then s.okChip ((c.store row a v).adminAct s.clk p 8)
  else if off = 0x108 then s.okChip (c.portAnWrite p v)
  else if 0x130 ≤ off ∧ off < 0x150 then s.okChip (c.pwrReqWrite s.clk agent p ((off - 0x130) / 4) v)
  else if 0x800 ≤ off ∧ off < 0x820 then s.okChip (c.fcCtlWrite s.clk p ((off - 0x800) / 4) v)
  else if off = 0x1100 then s.cvRes (true, saCmd (c, s.vault) agent p v)
  else if 0x1200 ≤ off ∧ off < 0x1400 then
    let c1 := c.plainWrite row a v
    if c1.rxScClash p ((off - 0x1200) / 64) then (false, s) else s.okChip c1
  else if 0x1140 ≤ off ∧ off < 0x1180 then s.okChip (c.wr a v)
  else s.okChip (c.plainWrite row a v)

/-- Sluice pages (R170). HOSTWIN and FLUMEWIN take writes of agents 1 and 17 only. -/
def State.writeSluice (s : State) (agent : Nat) (row : Reg.Row) (a : Nat) (v : Word) : Bool × State :=
  let c := s.chip
  let off := a % 65536
  let r := (a / 65536 - 0x120) / 16
  if off = 0x100 then s.chipRes (c.slCtlWrite r v)
  else if off = 0x114 then s.chipRes (c.imgCmdWrite r v)
  else if 0x150 ≤ off ∧ off < 0x168 then
    s.okChip (if agent = 1 ∨ agent = 17 then c.store row a v else c)
  else if off = 0x240 ∨ off = 0x244 then s.okChip ((c.store row a v).timerSet s.clk r 0)
  else if off = 0x248 ∨ off = 0x24C then s.okChip ((c.store row a v).timerSet s.clk r 1)
  else if off = 0x304 then s.dsWrite r v
  else if off = 0x314 then (true, s.sluCsCmd r v)
  else s.okChip (c.plainWrite row a v)

/-- The other reach pages (R144, R301, R304, R392). -/
def State.writeReach (s : State) (k : Reg.Kind) (row : Reg.Row) (a : Nat) (v : Word) : Bool × State :=
  let c := s.chip
  let off := a % 65536
  let r := (a / 65536 - 0x120) / 16
  match k with
  | .weir =>
    match off with
    | 0x104 => s.chipRes (c.csCmd r v)
    | 0x1800 => s.okChip (c.mtrCmd s.clk r v)
    | 0x1900 => s.okChip (c.cntCmd r v)
    | _ => s.okChip (c.plainWrite row a v)
  | .sched => if off = 0x124 then s.chipRes (c.gateCmd r v) else s.okChip (c.plainWrite row a v)
  | .gauge =>
    let c1 := c.plainWrite row a v
    s.okChip (if off = 0x104 then c1.onReach r fun x => { x with ecnLfsr := if v = 0 then 1 else v.toNat } else c1)
  | .trace =>
    if 0x200 ≤ off ∧ off < 0x240 then s.okChip (c.histCfg r ((off - 0x200) / 4) v) else s.okChip (c.plainWrite row a v)
  | _ => s.okChip (c.plainWrite row a v)

/-- Switch core and buffer manager (R251, R274, R277). -/
def State.writeSwitch (s : State) (k : Reg.Kind) (agent : Nat) (row : Reg.Row) (a : Nat) (v : Word) : Bool × State :=
  let c := s.chip
  let off := a % 65536
  match k with
  | .switch =>
    match off with
    | 0x128 => s.okChip (c.wdClr v)
    | 0x140 => s.okChip (c.qCmd v)
    | _ => s.okChip (c.plainWrite row a v)
  | .bufmgr =>
    if off = 0x100 then s.okChip (c.carveWrite v)
    else if off = 0x1B0 then s.okChip (c.bufCmd agent v)
    else if 0x200 ≤ off ∧ off < 0x260 then s.okChip ((c.store row a v).fbPool ((off - 0x200) / 32))
    else if 0x1000 ≤ off ∧ off < 0x1400 then s.okChip ((c.store row a v).fbGroupUpd ((off - 0x1000) / 32))
    else s.okChip (c.plainWrite row a v)
  | _ => if off = 0x100 then s.okChip (c.mcCmd s.clk agent v) else s.okChip (c.plainWrite row a v)

/-- The tables (R108, R201, R226). Hash seeds are locked while their instance or family is enabled (R175, R207). -/
def State.writeTable (s : State) (k : Reg.Kind) (agent : Nat) (row : Reg.Row) (a : Nat) (v : Word) : Bool × State :=
  let c := s.chip
  let off := a % 65536
  match k with
  | .em =>
    let i := (off - 0x200) / 32
    if off = 0x100 then s.okChip (c.emCmdWrite s.clk agent v)
    else if 0x200 ≤ off ∧ off < 0x400 ∧ off % 32 = 0 then s.chipRes (c.emGeomWrite i v)
    else if 0x200 ≤ off ∧ off < 0x400 ∧ (off % 32 = 4 ∨ off % 32 = 8) ∧ c.emEn i then (false, s)
    else s.okChip (c.plainWrite row a v)
  | .pfx =>
    if off = 0x100 then s.okChip (c.pfxCmdWrite s.clk agent v)
    else if off = 0x200 then s.okChip (c.pfxCfgWrite false v)
    else if off = 0x204 then s.okChip (c.pfxCfgWrite true v)
    else if 0x210 ≤ off ∧ off < 0x230 then
      let v6 := off == 0x214 || decide (0x220 ≤ off)
      if c.rdB (pfxCfg v6) 31 then (false, s) else s.okChip (c.store row a v)
    else if 0x280 ≤ off ∧ off < 0x380 then s.chipRes (c.camBlkWrite ((off - 0x280) / 4) v)
    else s.okChip (c.plainWrite row a v)
  | _ => if off = 0x100 then s.okChip (c.indCmd s.clk agent v) else s.okChip (c.plainWrite row a v)

/-- Flume and ledger (R323, R391). -/
def State.writeStore (s : State) (k : Reg.Kind) (agent : Nat) (row : Reg.Row) (a : Nat) (v : Word) : Bool × State :=
  let c := s.chip
  let off := a % 65536
  match k with
  | .flume =>
    if off = 0x104 then s.okChip (c.partWrite v)
    else if off = 0x140 then s.okChip (c.lapse (c.store row a v))
    else s.okChip (c.plainWrite row a v)
  | .ledger =>
    if off = 0x100 then s.chipRes (c.ldgCtl s.vault s.clk agent v) else s.okChip (c.plainWrite row a v)
  | _ => s.okChip (c.plainWrite row a v)

/-- Ring blocks (R548). -/
def State.writeRing (s : State) (row : Reg.Row) (a : Nat) (v : Word) : Bool × State :=
  let c := s.chip
  let off := a % 65536
  let g := 8 * (a / 65536 - 0x261) + (off - 0x100) / 64
  match off % 64 with
  | 0x00 => s.chipRes (c.ringBaseWrite g false v)
  | 0x04 => s.chipRes (c.ringBaseWrite g true v)
  | 0x08 => s.chipRes (c.ringCfgWrite g v)
  | 0x14 => s.okChip (c.ringAck g v)
  | 0x18 => s.okChip (c.ringCoal g v)
  | _ => s.okChip (c.plainWrite row a v)

/-- A write of a register that its agent may reach: `false` when the register's own rule refuses it (kind 5). -/
def State.writeReg (env : BusEnv) (s : State) (agent : Nat) (k : Reg.Kind) (row : Reg.Row) (a : Nat) (v : Word) :
    Bool × State :=
  if a % 65536 < 0x100 then (true, s.headerWrite k row a v)
  else
    match k with
    | .chip | .rstclk => s.writeRst agent row a v
    | .pwr => s.writePwr agent row a v
    | .time => s.writeTime agent row a v
    | .life => s.writeLife agent row a v
    | .epoch =>
      if a % 65536 = 0x100 then s.chipRes (s.chip.epCmdWrite s.clk agent v) else s.okChip (s.chip.plainWrite row a v)
    | .mbx => s.writeMbx agent row a v
    | .therm =>
      if a % 65536 = 0x198 then (true, { s with aux := s.aux.thermClr v }) else s.okChip (s.chip.plainWrite row a v)
    | .fault =>
      if a % 65536 = 0x198 then s.dlinkCmd agent v env.trained else s.okChip (s.chip.plainWrite row a v)
    | .vault | .upage => s.writeVault env agent row a v
    | .lane => s.writeLane row a v
    | .port => s.writePort agent row a v
    | .sluice => s.writeSluice agent row a v
    | .reachCommon | .parser | .weir | .sched | .wheel | .gauge | .level | .trace => s.writeReach k row a v
    | .switch | .bufmgr | .mcast => s.writeSwitch k agent row a v
    | .em | .pfx | .lb => s.writeTable k agent row a v
    | .flume | .spill | .telemetry | .ledger | .dma => s.writeStore k agent row a v
    | .ringblk => s.writeRing row a v

/-! ## The access (R34, R35, R42, R48 to R50) -/

/-- Bits of a register that are not RSV. -/
def allowedBits (k : Reg.Kind) (row : Reg.Row) (off : Nat) : Word :=
  if off = 0x10 ∨ off = 0x14 ∨ off = 0x18 then wd (0xF0000000 + Reg.evMask k + Reg.levelMask k)
  else wd (row.rw ||| row.ro ||| row.wo ||| row.w1c ||| row.w1s ||| row.rc ||| row.rwe)

/-- The kind of the access error when a register's own rule refuses a write: a control-store or gate-list WRITE outside
staging is of kind 1 (R139, R302), any other of kind 5. -/
def refusalKind (k : Reg.Kind) (off : Nat) : Nat :=
  match k with
  | .weir => if off = 0x104 then 1 else 5
  | .sched => if off = 0x124 then 1 else 5
  | _ => 5

/-- Writes are discarded with kind 6 (R42, R525). -/
def State.notReady (s : State) (pg off : Nat) : Bool :=
  s.pageAsleep pg || (s.chip.inReset pg && decide (0x100 ≤ off))

/-- A discarded write: the kind of its access error, and the state. -/
def State.refusedWrite (s : State) (agent a kind : Nat) : Nat × State := (kind, s.accErr agent a kind)

/-- A register write by an agent, with its byte enables: one access error of the first kind that applies, in the order
3, 5, 6, 2, 1, 4, and the write where none of the first five does (R49, R50). The kind is 0 where there is none. -/
def State.writeAt (env : BusEnv) (s : State) (agent a be : Nat) (v : Word) : Nat × State :=
  if !s.live then (0, s)
  else
    let pg := a / 65536
    let off := a % 65536
    match Reg.kindOf pg, Reg.rowAt a with
    | some k, some row =>
      if !s.mayReach agent pg true then s.refusedWrite agent a 5
      else
        let m := allowedBits k row off
        match s.writeReg env agent k row a (v &&& m) with
        | (false, s1) =>
          let kind := refusalKind k off
          if kind = 5 then (if s.notReady pg off || be != 15 then s else s1).refusedWrite agent a 5
          else if s.notReady pg off then s.refusedWrite agent a 6
          else if be ≠ 15 then s.refusedWrite agent a 2
          else s1.refusedWrite agent a kind
        | (true, s1) =>
          if s.notReady pg off then s.refusedWrite agent a 6
          else if be ≠ 15 then s.refusedWrite agent a 2
          else if row.rwe ≠ 0 ∧ !s.chip.staging then s.refusedWrite agent a 1
          else if (v &&& ~~~ m) ≠ 0 then s1.refusedWrite agent a 4
          else (0, s1)
    | _, _ => s.refusedWrite agent a 3

/-- The same: the state after a write of a whole word by an agent. -/
def State.busWrite (env : BusEnv) (s : State) (agent a : Nat) (v : Word) : State := (s.writeAt env agent a 15 v).2

end Sys2Proof.Machine
end

