-- ==== Sys2Proof/Machine/SluReq.lean ====
section
/-!
DEFINITION. Machine/SluReq.lean: the requests of a sluice carried out: registers, Flume, host memory, tables, Vault jobs,
locks, mailboxes, learn events and injection (06_sluice_engines.md R150 to R152).
-/
namespace Sys2Proof.Machine

/-! ## Finding and answering a request -/

/-- Requests that go through the register port keep their issue order (R37, R151). -/
def regOp (op : Nat) : Bool := op == 1 || op == 2 || op == 9 || op == 10

/-- A request waits to be carried out: not answered, and not handed to another unit (`at_` is 0 until then). -/
def SluReq.waits (q : SluReq) : Bool := q.status.isNone && q.at_ == 0

/-- The oldest waiting request of an OP; a register request stands behind the older waiting register requests. -/
def Chip.reqOf (c : Chip) (r op : Nat) : Option SluReq :=
  if regOp op then
    match (c.slu1 r).reqs.find? fun q => q.waits && regOp q.op with
    | some q => if q.op = op then some q else none
    | none => none
  else (c.slu1 r).reqs.find? fun q => q.waits && q.op == op

/-- A request changed where it stands. -/
def Chip.onReq (c : Chip) (r serial : Nat) (f : SluReq → SluReq) : Chip :=
  c.onSlu r fun u => { u with reqs := u.reqs.map fun q => if q.serial = serial then f q else q }

/-- A request carried out: its status, its value and bytes for data SRAM. -/
def State.answer (s : State) (r : Nat) (q : SluReq) (st : Nat) (val : Option Word) (bytes : List Byte) (at_ : Nat) : State :=
  { s with chip := s.chip.onReq r q.serial fun q => { q with status := some st, val, bytes, at_ } }

/-- A request carried out with a status and nothing else. -/
def State.answerSt (s : State) (r : Nat) (q : SluReq) (st : Nat) : State := s.answer r q st none [] 0

/-- A request handed to another unit, which will answer it. -/
def State.handed (s : State) (r : Nat) (q : SluReq) (mark : Nat) : State :=
  { s with chip := s.chip.onReq r q.serial fun q => { q with at_ := mark } }

/-- Requests run while the sluice is RUNNING or its STOP lets them complete (R163). -/
def State.withReq (s : State) (r op : Nat) (f : SluReq → State) : State :=
  if !s.coreOn then s
  else match s.chip.reqOf r op with
    | none => s
    | some q => f q

/-- Data SRAM read for a request: an uncorrectable error aborts the sluice with cause 2 (R161). -/
def State.dsFetch (s : State) (r : Nat) (q : SluReq) (a n : Nat) (f : List Byte → State → State) : State :=
  match s.chip.sluCheck r (dsWords a n) with
  | (some cause, c1) =>
    let (c2, v) := sluAbort (c1, s.vault) s.clk r cause q.thread ((c1.slu1 r).th q.thread).pc
    { s with chip := c2, vault := v }
  | (none, c1) => f ((c1.slu1 r).dsBytes a n) { s with chip := c1 }

/-! ## Registers and locks -/

/-- Status of a register request from the kind of its access error: DENIED for kind 5 (R151, R510). -/
def regStatus (kind : Nat) : Nat := if kind = 5 then stDenied else stOk

/-- REG_RD. -/
def State.sluRegRd (s : State) (r : Nat) : State :=
  s.withReq r 1 fun q =>
    let x := s.readAt (sluiceAgent r) q.x.toNat
    x.st.answer r q (regStatus x.kind) (some x.val) [] 0

/-- REG_WR. -/
def State.sluRegWr (env : BusEnv) (s : State) (r : Nat) : State :=
  s.withReq r 2 fun q =>
    let (kind, s1) := s.writeAt env (sluiceAgent r) q.x.toNat 15 q.y
    s1.answerSt r q (regStatus kind)

/-- The lock register of a request. -/
def SluReq.lock (q : SluReq) : Nat := Reg.mbx_LOCK (q.x.toNat % 64)

/-- LOCK_TRY. -/
def State.sluLockTry (s : State) (r : Nat) : State :=
  s.withReq r 9 fun q =>
    let x := s.readAt (sluiceAgent r) q.lock
    x.st.answer r q (regStatus x.kind) (some x.val) [] 0

/-- LOCK_ACQ: read once, and again after every release (`Chip.lockFree`). -/
def State.sluLockAcq (s : State) (r : Nat) : State :=
  s.withReq r 10 fun q =>
    let x := s.readAt (sluiceAgent r) q.lock
    if x.kind = 5 then x.st.answerSt r q stDenied
    else if x.val = 0 then x.st.answerSt r q stOk
    else x.st.handed r q 1

/-! ## Flume and host memory (R151, R306, R309, R322) -/

/-- Bytes of a copy request. -/
def SluReq.len (q : SluReq) : Nat := 64 * (q.n + 1)

/-- The data SRAM address LR(D)[15:6] × 64. -/
def SluReq.dsAt (q : SluReq) : Nat := q.y.toNat % 65536 / 64 * 64

/-- A data SRAM range passes 0xFFFF. -/
def dsPast (a n : Nat) : Bool := decide (65536 < a + n)

/-- Why a Flume request is refused, or OK. -/
def Chip.flumeTest (c : Chip) (r : Nat) (q : SluReq) (write : Bool) : Nat :=
  let u := q.x.toNat
  let n := q.n + 1
  if dsPast q.dsAt q.len || decide (0x30000000 < u + n) then stBadArg
  else if 8 ≤ r ∧ (u < (c.rd (Reg.sluice_FLUMEWIN_BASE r)).toNat ∨ (c.rd (Reg.sluice_FLUMEWIN_LIM r)).toNat < u + n) then stDenied
  else if !(List.range n).all fun i => c.flMay r write (u + i) then stDenied
  else if !c.flReady then stAborted
  else stOk

/-- FLUME_RD. -/
def State.sluFlumeRd (s : State) (r : Nat) : State :=
  s.withReq r 3 fun q =>
    let st := s.chip.flumeTest r q false
    if st ≠ stOk then s.answerSt r q st
    else match s.chip.flUnits 3 q.x.toNat (q.n + 1) with
      | (true, c1) => ({ s with chip := c1 } : State).answerSt r q stIntegrity
      | (false, c1) => ({ s with chip := c1 } : State).answer r q stOk none (c1.flRead (64 * q.x.toNat) q.len) q.dsAt

/-- FLUME_WR. -/
def State.sluFlumeWr (s : State) (r : Nat) : State :=
  s.withReq r 4 fun q =>
    let st := s.chip.flumeTest r q true
    if st ≠ stOk then s.answerSt r q st
    else s.dsFetch r q q.dsAt q.len fun bs s1 =>
      ({ s1 with chip := s1.chip.flStore (64 * q.x.toNat) bs } : State).answerSt r q stOk

/-- The host address {LR(A + 1), LR(A)}. -/
def SluReq.host (q : SluReq) : Nat := q.xh.toNat * 4294967296 + q.x.toNat

/-- Why a host memory request is refused, or OK. -/
def Chip.hostTest (c : Chip) (r : Nat) (q : SluReq) : Nat :=
  let base := c.rd64 (Reg.sluice_HOSTWIN_BASE_LO r) (Reg.sluice_HOSTWIN_BASE_HI r)
  let lim := c.rd64 (Reg.sluice_HOSTWIN_LIM_LO r) (Reg.sluice_HOSTWIN_LIM_HI r)
  if q.odd || q.host % 64 != 0 || dsPast q.dsAt q.len then stBadArg
  else if 8 ≤ r ∧ (q.host < base ∨ lim < q.host + q.len) then stDenied
  else stOk

/-- HOST_RD: `data` is what host memory holds there. -/
def State.sluHostRd (s : State) (r : Nat) (data : List Byte) : State :=
  s.withReq r 5 fun q =>
    let st := s.chip.hostTest r q
    if st ≠ stOk then s.answerSt r q st else s.answer r q stOk none (slice data 0 q.len) q.dsAt

/-- HOST_WR. -/
def State.sluHostWr (s : State) (r : Nat) : State :=
  s.withReq r 6 fun q =>
    let st := s.chip.hostTest r q
    if st ≠ stOk then s.answerSt r q st
    else s.dsFetch r q q.dsAt q.len fun bs s1 =>
      ({ s1 with chip := s1.chip.emit (.host q.host bs) } : State).answerSt r q stOk

/-! ## Tables, Vault, mailboxes, learn events -/

/-- TBL_CMD: the block is handed to the table unit, which writes the result over it. -/
def State.sluTblCmd (s : State) (r : Nat) : State :=
  s.withReq r 7 fun q =>
    let a := q.x.toNat % 65536 / 64 * 64
    s.dsFetch r q a 64 fun bs s1 =>
      let s2 := s1.handed r q 1
      { s2 with chip := s2.chip.tblSubmit s2.clk { agent := sluiceAgent r, dma := false, blk := bs, dest := .sluice r q.serial } }

/-- VAULT_JOB: the descriptor is queued on a user page the sluice owns. -/
def State.sluVaultJob (s : State) (r : Nat) : State :=
  s.withReq r 8 fun q =>
    let a := q.x.toNat % 65536
    let u := q.y.toNat % 32
    if dsPast a 64 then s.answerSt r q stBadArg
    else if s.chip.upOwner u ≠ sluiceAgent r then
      (s.accErr (sluiceAgent r) (Reg.upage_JOB_CMD u) 5).answerSt r q stDenied
    else if s.chip.inReset (Reg.pg_upage u) || s.chip.inReset 0x010 then s.answerSt r q stAborted
    else s.dsFetch r q a 64 fun bs s1 =>
      match s1.vault.enqueue u { desc := bs, sluice := some (r, q.serial, a) } with
      | (0, v) => ({ s1 with vault := v } : State).handed r q 1
      | (st, v) => ({ s1 with vault := v } : State).answerSt r q st

/-- MBX_POST. -/
def State.sluMbxPost (s : State) (r : Nat) : State :=
  s.withReq r 11 fun q =>
    let a := q.x.toNat % 65536
    if dsPast a 16 then s.answerSt r q stBadArg
    else s.dsFetch r q a 16 fun bs s1 =>
      let w (i : Nat) : Word := wd (beNat (slice bs (4 * i) 4))
      match s1.chip.mbxPost (sluiceAgent r) (q.y.toNat % 32) true (w 0) (w 1) (w 2) (w 3) with
      | (st, c) => ({ s1 with chip := c } : State).answerSt r q st

/-- LEARN_POP. -/
def State.sluLearnPop (s : State) (r : Nat) : State :=
  s.withReq r 12 fun q =>
    let a := q.x.toNat % 65536
    if r ≠ 2 ∨ dsPast a 32 then s.answerSt r q stBadArg
    else match s.chip.tbl.learnQ with
      | [] => s.answerSt r q stNotFound
      | e :: rest => ({ s with chip := { s.chip with tbl := { s.chip.tbl with learnQ := rest } } } : State).answer r q stOk none e a

/-! ## INJECT (R152) -/

/-- The frame of an injection block: the reach, the start node and the frame with its FCS; `none` for BAD_ARG. -/
def injectFrame (u : Slu) (a r : Nat) (k : Clk) : Option Frame :=
  let b := u.dsBytes a 16
  let len := beNat (slice b 0 2)
  let reach := beNat (slice b 2 1)
  if len < 60 ∨ 16363 < len ∨ 15 < reach ∨ !allZero (b.drop 4) ∨ dsPast a (16 + len) then none
  else
    let body := u.dsBytes (a + 16) len
    let bytes := body ++ fcsOf body
    some { inLp := 1153 + r, reach, start := some (beNat (slice b 3 1)), bytes, arrived := bytes.length, ended := true,
           stored := bytes.length, carry := trace0 0 (1153 + r), stampNow := k.now }

/-- INJECT: the frame is copied into buffers; the request is answered once its header has entered the header queue. -/
def State.sluInject (s : State) (r : Nat) : State :=
  s.withReq r 13 fun q =>
    let a := q.x.toNat % 65536 / 64 * 64
    match injectFrame (s.chip.slu1 r) a r s.clk with
    | none => s.answerSt r q stBadArg
    | some f =>
      if s.chip.fbOn (s.chip.poolFor f.bytes.length) 1 then s
      else s.dsFetch r q a (12 + f.bytes.length) fun _ s1 =>
        let fid := s1.chip.nextFrame
        let s2 := s1.handed r q (fid + 1)
        { s2 with chip := (s2.chip.addFrame f).bufferAlloc s2.clk fid }

/-- INJECT requests whose frame's header has left the MAC are answered OK. -/
def Chip.injectSettle (c : Chip) : Chip :=
  if c.slu.s.all fun u => u.reqs.all fun q => q.op != 13 || q.at_ == 0 || q.status.isSome then c
  else { c with slu := { c.slu with s := c.slu.s.map fun u =>
    { u with reqs := u.reqs.map fun q =>
      if q.op == 13 && q.at_ != 0 && q.status.isNone then
        (match mget c.frames (q.at_ - 1) with
         | some f => if f.pos == .mac then q else { q with status := some stOk, at_ := 0 }
         | none => { q with status := some stOk, at_ := 0 })
      else q } } }

/-! ## The end of every command -/

/-- Some sluice watches a page: an SL_WATCH register is written. -/
def Chip.watches (c : Chip) : Bool :=
  c.regs.any fun kv => decide (0x1200000 ≤ kv.1) && decide (kv.1 < 0x2200000) && decide (0x280 ≤ kv.1 % 65536) &&
    decide (kv.1 % 65536 < 0x2A0)

/-- What every command leaves to be settled: injected headers, freeze triggers, watched pages, table lists and the power
state (R152, R511, R153, R541, R526). -/
def State.finish (s1 s : State) : State :=
  let s2 := s1.settleFrom s
  let c := s2.chip.injectSettle
  let c1 := if !c.watches then c else (List.range 16).foldl (fun c r => c.extLatch r) c
  let s3 : State := { s2 with chip := if s2.coreOn then c1.listsAdvance s2.clk else c1 }
  s3.powerSettle

end Sys2Proof.Machine
end

