-- ==== Sys2Proof/Machine/Reset.lean ====
section
/-!
DEFINITION. Machine/Reset.lean: the device resets, the boot timeline with the configuration image it applies, the
recovery image, and the supplies (R450, R505, R506, R517 to R524).
-/
namespace Sys2Proof.Machine

/-! ## The configuration image (R449, R450) -/

/-- The records of an image body, by type and data; a body that does not divide into records of R449 ends with a record
of type 0. -/
def cfgRecords : Nat → List Byte → List (Nat × List Byte)
  | 0, _ => []
  | fuel + 1, b =>
    if b.isEmpty then []
    else
      let typ := beNat (slice b 0 2)
      let len := beNat (slice b 2 2)
      let want := if typ = 1 then 8 else if typ = 2 then 36 else if typ = 3 then 64 else if typ = 4 then 4 else 0
      if want = 0 ∨ len ≠ want ∨ b.length < 4 + len then [(0, b)]
      else (typ, slice b 4 len) :: cfgRecords fuel (b.drop (4 + len))

/-- A register write belongs with the staged ones: an RWE register, or the gate window of a scheduler page (R436). -/
def cfgStaged (a : Nat) : Bool :=
  rweKey a || (Reg.kindOf (a / 65536) == some .sched && decide (0x120 ≤ a % 65536) && decide (a % 65536 < 0x140))

/-- A register record, written by S0 (agent 17): `false` when the device refuses it. -/
def State.cfgRegRec (s : State) (d : List Byte) : Bool × State :=
  let (kind, s1) := s.writeAt {} 17 (beNat (slice d 0 4)) 15 (wd (beNat (slice d 4 4)))
  (kind == 0, s1)

/-- A record of type 4: FL_PART is written before the journal or capture run. -/
def State.cfgPartRec (s : State) (d : List Byte) : Bool × State :=
  let v := wd (beNat d)
  let en := s.chip.rd 0x00050000
  let c := (s.chip.wr 0x00050000 (en &&& ~~~ 1)).partWrite v
  (c.rd Reg.flume_FL_PART == v, { s with chip := c.wr 0x00050000 en })

/-- A control-store record, into the staging bank. -/
def State.cfgWordRec (s : State) (d : List Byte) : Bool × State :=
  let r := beNat (slice d 0 1)
  let w := beNat (slice d 1 1)
  let n := beNat (slice d 2 2)
  if 15 < r ∨ 14 < w ∨ 2047 < n then (false, s)
  else (true, { s with chip := s.chip.csPut (!s.chip.bankB) r w n (BitVec.ofNat 256 (beNat (slice d 4 32))) })

/-- A table command record, issued by S0: accepted when it ends OK. -/
def State.cfgTblRec (s : State) (d : List Byte) : Bool × State :=
  let cmd : TblCmd := { agent := 17, dma := false, blk := d, dest := .sluice 0 0 }
  let c := s.chip
  let (st, c1) :=
    if blkKind d = 1 then
      match c.emAdmit cmd with
      | 0 =>
        match c.emDo s.clk cmd with
        | (some r, c1) => (blkNat r 3 1, c1)
        | (none, c1) =>
          let c2 : Chip := { c1 with tbl := { c1.tbl with emPend := c.tbl.emPend } }
          let r := c2.emS3Insert s.clk cmd (blkInst d)
          (blkNat r.1 3 1, r.2)
      | st => (st, c)
    else
      match c.pfxAdmit cmd with
      | 0 =>
        let r := c.pfxDo s.clk cmd
        (blkNat r.1 3 1, r.2)
      | st => (st, c)
  (st == stOk, { s with chip := c1 })

/-- Records carried out in order: the first one refused, if any, and the state. -/
def State.cfgEach (f : State → Nat × List Byte → Bool × State) : State → List (Nat × List Byte) → Option (Nat × List Byte) × State
  | s, [] => (none, s)
  | s, r :: rs =>
    match f s r with
    | (true, s1) => State.cfgEach f s1 rs
    | (false, s1) => (some r, s1)

/-- One pass of R450 over the records. -/
def State.cfgPass (n : Nat) (s : State) (r : Nat × List Byte) : Bool × State :=
  let staged := cfgStaged (beNat (slice r.2 0 4))
  match n, r.1 with
  | 1, 1 => if staged then (true, s) else s.cfgRegRec r.2
  | 1, 4 => s.cfgPartRec r.2
  | 1, 0 => (false, s)
  | 3, 1 => if staged then s.cfgRegRec r.2 else (true, s)
  | 3, 2 => s.cfgWordRec r.2
  | 5, 3 => s.cfgTblRec r.2
  | _, _ => (true, s)

/-- S0 opens the configuration epoch and the bank copy completes. -/
def State.cfgOpen (s : State) : State :=
  { s with chip := (s.chip.epCmdWrite s.clk 17 0x81000000).2.epCopyDone }

/-- S0 commits: the device enters epoch 1, with nothing in flight to retire. Clears of tables that pass 1 enabled have run. -/
def State.cfgCommit (s : State) : State :=
  let c := ((s.chip.epCmdWrite s.clk 17 0x83000001).2.commitBeat s.clk).retireDone
  { s with chip := { c with tbl := { c.tbl with emClearing := [], pfxClearing := [] } } }

/-- S0 reports to the host. -/
def State.cfgReport (s : State) (body : List Byte) : State := { s with chip := s.chip.emit (.notice 1 Config.bootReport body) }

/-- The image applied in the order of R450. A refused record stops it: the device then runs on the reset configuration of
epoch 0 and S0 reports the record. -/
def State.cfgApply (s : State) (img : List Byte) : State :=
  let rs := cfgRecords img.length (cfgBody img)
  match State.cfgEach (State.cfgPass 1) s rs with
  | (some r, _) => s.cfgReport (cfgRecord r.1 r.2)
  | (none, s1) =>
    match State.cfgEach (State.cfgPass 3) s1.cfgOpen rs with
    | (some r, _) => s.cfgReport (cfgRecord r.1 r.2)
    | (none, s2) =>
      match State.cfgEach (State.cfgPass 5) s2.cfgCommit rs with
      | (some r, _) => s.cfgReport (cfgRecord r.1 r.2)
      | (none, s3) => s3

/-- Step 8 of R524: the valid image of highest GENERATION in the slot, or a report that there is none. -/
def State.cfgBoot (s : State) (slot : Nat) : State :=
  match (s.chip.flashSlot slot).find? fun gi => cfgCheck gi.2 == stOk with
  | some gi => s.cfgApply gi.2
  | none => s.cfgReport []

/-! ## The boot timeline (R505, R506, R523, R524) -/

/-- The failure code of a firmware slot's S0 image; 0 when it passes. -/
def bootFail (b : Boot) (slot : Nat) : Nat := if slot = 0 then b.fail0.val else b.fail1.val

/-- The failure code of a slot recorded in BOOT_STAT. -/
def Aux.slotFail (a : Aux) (slot code : Nat) : Aux := if slot = 0 then { a with fail0 := code } else { a with fail1 := code }

/-- The firmware slot that boots, with the failures recorded; `none` when both fail. -/
def Aux.pickSlot (a : Aux) (b : Boot) : Option Nat × Aux :=
  let first := if a.nextSlot = 1 then 0 else if a.nextSlot = 2 then 1 else b.pref.val
  let a1 : Aux := { a with nextSlot := 0 }
  if bootFail b first = 0 then (some first, a1)
  else
    let a2 := a1.slotFail first (bootFail b first)
    if bootFail b (1 - first) = 0 then (some (1 - first), a2) else (none, a2.slotFail (1 - first) (bootFail b (1 - first)))

/-- Steps 4 and 5 for the Vault: the device keys are derived and the self-tests have ended. -/
def State.bootVault (s : State) (kat : Option (Fin 16)) : State :=
  let r := katDone (s.chip, ({ s.vault with state := 0 } : Vault).derive s.aux.otp.secret) (kat.map Fin.val)
  { s with chip := r.1, vault := r.2 }

/-- Without the Vault as verifier no image of S1 to S7 passes (R505). -/
def Chip.noFirmware (c : Chip) : Chip := (List.range 7).foldl (fun c i => c.setSlu (i + 1) 0) c

/-- Boot from step 3 of R505 on, with the slot that supplies S0: keys, firmware, the buffer manager enabled, the
configuration image, READY. -/
def State.bootFrom (s : State) (slot : Nat) (b : Boot) : State :=
  let s1 : State := { s with aux := { s.aux with bootSlot := slot, phase := 6 } }
  let s2 := s1.bootVault b.kat
  let c := if b.kat.isSome then s2.chip.noFirmware else s2.chip
  let s3 : State := { s2 with chip := (c.wr 0x02210008 1).bmBuilt }
  let s4 := s3.cfgBoot b.cfgSlot.val
  { s4 with chip := s4.chip.raise 0x001 25 }

/-- The boot timeline after a device reset. In DISABLED it stops once the lifecycle is read. -/
def State.boot (s : State) (b : Boot) : State :=
  if s.aux.lifecycle = 5 then { s with aux := { s.aux with phase := 1 } }
  else
    match s.aux.pickSlot b with
    | (some slot, a) => ({ s with aux := a } : State).bootFrom slot b
    | (none, a) => { s with aux := { a with phase := 15 }, chip := s.chip.raise 0x004 24 }

/-- What a device reset keeps (R519): the fuses and the AUX-held records; the flash and the model's own records stay. -/
def State.cleared (s : State) (cause : Nat) (thermtrip : Bool) : State :=
  { pending := s.pending
    aux := {
      otp := s.aux.otp
      rstCause := s.aux.rstCause ||| cause ||| (if s.aux.thermtrip then 8 else 0)
      trip := s.aux.trip
      thermtrip := thermtrip
      frzKind := s.aux.frzKind
      frzPage := s.aux.frzPage
      frzSec := s.aux.frzSec
      frzNs := s.aux.frzNs
      nextSlot := s.aux.nextSlot
      phase := 0
      tap := s.aux.tap }
    vault := { state := 0, drawn := s.vault.drawn }
    chip := { flash := s.chip.flash, out := s.chip.out, fresh := s.chip.fresh } }

/-- POR_N. -/
def State.porN (s : State) (b : Boot) : State := if s.aux.rail = .off then s else (s.cleared 2 false).boot b

/-- SYS_RST_N, or RST_CTL.SW_RST. While POR_N still holds the device it has no effect of its own (R520). -/
def State.sysRst (s : State) (b : Boot) : State :=
  if s.aux.rail ≠ .run then s else (s.cleared 4 s.aux.thermtrip).boot b

/-! ## Supplies (R517 to R519) -/

/-- VDD_AUX rises: everything is cleared, and POR_N holds the device. Fuses and flash are not volatile. -/
def State.auxPowerOn (s : State) : State :=
  { pending := s.pending
    aux := { otp := s.aux.otp, rail := .held, phase := 0, rstCause := 1 }
    vault := { state := 0, drawn := s.vault.drawn }
    chip := { flash := s.chip.flash, out := s.chip.out, fresh := s.chip.fresh } }

/-- The supplies are removed, VDD_AUX last. -/
def State.powerRemoval (s : State) : State :=
  let s1 := s.auxPowerOn
  { s1 with aux := { s1.aux with rail := .off, rstCause := 0 } }

/-! ## The recovery image (R506, R515) -/

/-- RECOV_CMD ends with a status. -/
def Chip.recovEnd (c : Chip) (st : Nat) : Chip :=
  (c.wrF Reg.life_RECOV_CMD 31 31 0).wr Reg.life_RECOV_STATUS (wd st)

/-- RECOV_CMD: the image that host memory returns is checked as an S0 image; on acceptance boot goes on from step 3 of
R505. Accepted from agent 1 only. -/
def State.recovCmd (s : State) (img : List Byte) (b : Boot) : State :=
  if s.aux.phase ≠ 15 then { s with chip := s.chip.recovEnd stDenied }
  else
    let st := s.aux.imgCheck 0 (s.chip.rd Reg.life_RECOV_LEN).toNat img
    let s1 : State := { s with chip := s.chip.recovEnd st }
    if st = stOk then s1.bootFrom 2 b else s1

/-! ## The write that may reset the device -/

/-- A register write, with the reset that a write of RST_CTL.SW_RST by agent 1 triggers (R520) and the check that a write
of RECOV_CMD by agent 1 starts. `img` is what host memory returns for a recovery image. -/
def State.regWrite (env : BusEnv) (s : State) (b : Boot) (img : List Byte) (agent a be : Nat) (v : Word) : State :=
  let (kind, s1) := s.writeAt env agent a be v
  if kind ≠ 0 ∧ kind ≠ 4 ∨ agent ≠ 1 ∨ !s.live then s1
  else if a = 0x00010104 ∧ bit v 8 then s1.sysRst b
  else if a = 0x00040590 ∧ bit v 31 then s1.recovCmd img b
  else s1

end Sys2Proof.Machine
end

