-- ==== Sys2Proof/Machine/Effect.lean ====
section
/-!
DEFINITION. Machine/Effect.lean: what every command shares: its outcome, and the register accesses by which an agent
commands the block (R34 to R56).
-/
namespace Sys2Proof.Machine

/-- A command carried out: what it changed, then everything it leaves to be settled. No rule of the spec stops the
block, so the outcome is a next state. -/
def ran (s s1 : State) : Host.Outcome State Fault Refusal := .next (s1.finish s)

/-- A change made while the core clock runs (R512, R526). -/
def State.whenCore (s : State) (f : State → State) : State := if s.coreOn then f s else s

/-- A change made by a part that also runs in STANDBY (R527). -/
def State.whenLive (s : State) (f : State → State) : State := if s.live then f s else s

/-- A whole-word register write by an agent. -/
def State.put (s : State) (a : Agent) (off : Nat) (v : Word) : State := s.busWrite {} a.num off v

/-- A register read by an agent; the value read is the answer. -/
def State.get (s : State) (a : Agent) (off : Nat) : State :=
  if s.live then
    let r := s.busRead a.num off
    { r.2 with chip := r.2.chip.emit (.read a.num off r.1) }
  else s

/-- A write of a register with some of its fields new and the others as they stand. -/
def State.putF (s : State) (a : Agent) (off hi lo v : Nat) : State := s.put a off (setFld (s.chip.rd off) hi lo v)

/-- GO with an operation code and an argument, the shape of most command registers. -/
def goWord (op arg : Nat) : Word := wd (0x80000000 + op * 0x1000000 + arg)

/-- Port of a logical port, and its sub-port. -/
def lpReg (r : Nat → Nat → Nat) (lp : Nat) : Nat := r (lp / 8) (lp % 8)

end Sys2Proof.Machine
end

