-- ==== Sys2Proof/Machine/CmdFrame.lean ====
section
/-!
DEFINITION. Machine/CmdFrame.lean: the meanings of the commands of a frame from its arrival to its departure (R15 to R26, R230 to R263, R283, R337), one definition per row of the table.
-/
namespace Sys2Proof.Machine

/-- A frame arrives at a receive MAC: in QUIESCE it is discarded there and counted (R526). -/
def State.arrive (s : State) (lp : Nat) (b : List Byte) : State :=
  if s.aux.pstate = 1 then
    s.onCore fun c => if c.lpActive lp && (c.linkSt lp == 7 || c.linkSt lp == 8) then c.quiesceDrop else c
  else s.onCoreV fun cv => Machine.frameReceive cv s.clk lp b

/-- A frame has more bytes than its valid length (R232). -/
def Chip.isLong (c : Chip) (f : Frame) : Bool :=
  f.lenKnown && f.asked && f.failed.isNone && decide (c.expected f < f.bytes.length)

/-- The oldest frame of a source that waits for a buffer and will not wait for ever (R236). -/
def Chip.waitingOf (c : Chip) (src : Nat) : Option Nat :=
  (c.buf.waiting.find? fun r => !r.patient && (match mget c.frames r.fid with
    | some f => f.inLp == src
    | none => false)).map (·.fid)

/-- The oldest copy not yet linked is linked, and its queue's shapers are placed when it makes them backlogged (R258,
R287). -/
def Chip.linkNext (c : Chip) (k : Clk) : Chip :=
  match c.toLink with
  | none => c
  | some cid =>
    match mget c.sw.copies cid with
    | none => c
    | some cp => (c.linkCopy k cid).placeBacklog k cp.q

/-! ## One meaning per row -/

/-- FLUSH_DONE (R269). -/
def execFlushDone (lp : Fin 1152) (s : State) : Host.Outcome State Fault Refusal :=
  ran s (s.onCore fun c => c.flushDone s.clk lp.val)

/-- FRAME_RECEIVE (R19). -/
def execFrameReceive (lp : Fin 1152) (bytes : List Byte) (s : State) : Host.Outcome State Fault Refusal :=
  ran s (s.arrive lp.val bytes)

/-- PARSE_WALK (R89). -/
def execParseWalk (src : Fin 1169) (s : State) : Host.Outcome State Fault Refusal :=
  ran s (s.onCore fun c => c.parseWalk s.clk src.val)

/-- FRAME_END (R261). -/
def execFrameEnd (lp : Fin 1152) (s : State) : Host.Outcome State Fault Refusal :=
  ran s (s.onCoreV fun cv => Machine.frameEnd cv s.clk lp.val)

/-- LENGTH_MISMATCH (R232). -/
def execLengthMismatch (src : Fin 1169) (s : State) : Host.Outcome State Fault Refusal :=
  ran s (s.onCore fun c => c.withFrame (c.frameOf src.val c.isLong) fun fid => c.lengthMismatch s.clk fid)

/-- BEAT_BOUNDARY (R16). -/
def execBeatBoundary (s : State) : Host.Outcome State Fault Refusal :=
  ran s s.beatBoundary

/-- RECIRC_READY (R136). -/
def execRecircReady (r : Fin 16) (s : State) : Host.Outcome State Fault Refusal :=
  ran s (s.onCore fun c => c.recircReady s.clk r.val)

/-- BUFFER_ALLOC (R230). -/
def execBufferAlloc (src : Fin 1169) (s : State) : Host.Outcome State Fault Refusal :=
  ran s (s.onCore fun c => c.allocFor s.clk src.val)

/-- CHAIN_BUFFER_REQUEST (R231). -/
def execChainBufferRequest (src : Fin 1169) (s : State) : Host.Outcome State Fault Refusal :=
  ran s (s.onCore fun c => c.withFrame (c.frameOf src.val fun f => !f.bufs.isEmpty && !f.ended) fun fid => c.chainRequest s.clk fid)

/-- POOL_EMPTY_GRANT (R236). -/
def execPoolEmptyGrant (p : Fin 3) (s : State) : Host.Outcome State Fault Refusal :=
  ran s (s.onCore fun c => c.poolGrant s.clk p.val)

/-- NO_BUFFER_TIMEOUT (R236). -/
def execNoBufferTimeout (src : Fin 1169) (s : State) : Host.Outcome State Fault Refusal :=
  ran s (s.onCore fun c => c.withFrame (c.waitingOf src.val) fun fid => c.noBufferTimeout s.clk fid)

/-- COPY_LINK (R258). -/
def execCopyLink (s : State) : Host.Outcome State Fault Refusal :=
  ran s (s.onCore fun c => c.linkNext s.clk)

/-- TRANSMIT_START (R337). -/
def execTransmitStart (lp : Fin 1152) (s : State) : Host.Outcome State Fault Refusal :=
  ran s (s.whenCore fun s => s.transmitStart lp.val)

/-- COPY_TRANSMIT_END (R283). -/
def execCopyTransmitEnd (lp : Fin 1152) (s : State) : Host.Outcome State Fault Refusal :=
  ran s (s.onCore fun c => c.transmitEnd s.clk lp.val)

/-- LEVEL_HOLD_RELEASE (R358). -/
def execLevelHoldRelease (lp : Fin 1152) (s : State) : Host.Outcome State Fault Refusal :=
  ran s (s.onCore fun c => c.holdRelease s.clk lp.val)

end Sys2Proof.Machine
end

