-- ==== Sys2Proof/Machine/CmdBuffer.lean ====
section
/-!
DEFINITION. Machine/CmdBuffer.lean: the meanings of the commands of buffer pools and flow control (R228 to R253), one definition per row of the table.
-/
namespace Sys2Proof.Machine

/-! ## One meaning per row -/

/-- CARVE_WRITE (R229). -/
def execCarveWrite (a : Agent) (v : Word) (s : State) : Host.Outcome State Fault Refusal :=
  ran s (s.put a Reg.bufmgr_CARVE v)

/-- BM_ENABLE (R229). -/
def execBmEnable (a : Agent) (s : State) : Host.Outcome State Fault Refusal :=
  ran s (s.putF a (Reg.PAGE_CTL 0x221) 0 0 1)

/-- BM_BUILD_DONE (R229). -/
def execBmBuildDone (s : State) : Host.Outcome State Fault Refusal :=
  ran s (s.onCore fun c => c.bmBuilt)

/-- BITMAP_REBUILD_DONE (R239). -/
def execBitmapRebuildDone (p : Fin 3) (n : BitVec 22) (s : State) : Host.Outcome State Fault Refusal :=
  ran s (s.onCore fun c => c.bitmapRebuilt p.val n.toNat)

/-- BUF_READ (R251). -/
def execBufRead (a : Agent) (p : Fin 4) (n : BitVec 22) (s : State) : Host.Outcome State Fault Refusal :=
  ran s (s.put a Reg.bufmgr_BUF_CMD (goWord 1 (p.val * 4194304 + n.toNat)))

/-- BUF_FREE (R251). -/
def execBufFree (a : Agent) (p : Fin 4) (n : BitVec 22) (s : State) : Host.Outcome State Fault Refusal :=
  ran s (s.put a Reg.bufmgr_BUF_CMD (goWord 2 (p.val * 4194304 + n.toNat)))

/-- XOFF_CHANGE (R244). -/
def execXoffChange (lp : Fin 1152) (k : Fin 3) (s : State) : Host.Outcome State Fault Refusal :=
  ran s (s.onCore fun c => c.xoffChange s.clk lp.val k.val (s.aux.pstate == 1))

/-- PFC_REFRESH (R245). -/
def execPfcRefresh (lp : Fin 1152) (s : State) : Host.Outcome State Fault Refusal :=
  ran s (s.onCore fun c => c.pfcRefresh s.clk lp.val)

/-- PFC_RECEIVE (R246). -/
def execPfcReceive (lp : Fin 1152) (bytes : List Byte) (s : State) : Host.Outcome State Fault Refusal :=
  ran s (s.arrive lp.val bytes)

/-- PAUSE_EXPIRY (R246). -/
def execPauseExpiry (lp : Fin 1152) (cls : Fin 8) (s : State) : Host.Outcome State Fault Refusal :=
  ran s (s.onCore fun c => c.pauseExpiry lp.val cls.val)

/-- MACCTL_OTHER_RECEIVE (R246). -/
def execMacctlOtherReceive (lp : Fin 1152) (bytes : List Byte) (s : State) : Host.Outcome State Fault Refusal :=
  ran s (s.arrive lp.val bytes)

/-- FC_CTL_WRITE (R253). -/
def execFcCtlWrite (a : Agent) (lp : Fin 1152) (v : Word) (s : State) : Host.Outcome State Fault Refusal :=
  ran s (s.put a (lpReg Reg.port_FC_CTL lp.val) v)

end Sys2Proof.Machine
end

