-- ==== Sys2Proof/Machine/CmdCipher.lean ====
section
/-!
DEFINITION. Machine/CmdCipher.lean: the meanings of the commands of MACsec and the Vault (R411 to R435), one definition per row of the table.
-/
namespace Sys2Proof.Machine

/-! ## One meaning per row -/

/-- INSTALL (R419). -/
def execSaInstall (a : Agent) (p : Fin 144) (rx : Bool) (k : Fin 8) (sc : Fin 4) (an : Fin 4) (keysrc : Bool) (s : State) : Host.Outcome State Fault Refusal :=
  ran s (s.put a (Reg.port_SA_CMD p.val) (goWord 1 ((if rx then 0x100000 else 0) + k.val * 65536 + sc.val * 4096 + an.val * 256 + keysrc.toNat)))

/-- SA_READ (R419). -/
def execSaRead (a : Agent) (p : Fin 144) (rx : Bool) (k : Fin 8) (sc : Fin 4) (an : Fin 4) (s : State) : Host.Outcome State Fault Refusal :=
  ran s (s.put a (Reg.port_SA_CMD p.val) (goWord 2 ((if rx then 0x100000 else 0) + k.val * 65536 + sc.val * 4096 + an.val * 256)))

/-- RETIRE (R419). -/
def execSaRetire (a : Agent) (p : Fin 144) (rx : Bool) (k : Fin 8) (sc : Fin 4) (an : Fin 4) (s : State) : Host.Outcome State Fault Refusal :=
  ran s (s.put a (Reg.port_SA_CMD p.val) (goWord 3 ((if rx then 0x100000 else 0) + k.val * 65536 + sc.val * 4096 + an.val * 256)))

/-- TX_AN_WRITE (R416). -/
def execTxAnWrite (a : Agent) (lp : Fin 1152) (an : Fin 4) (s : State) : Host.Outcome State Fault Refusal :=
  ran s (s.putF a (lpReg Reg.port_MSC_CTL lp.val) 1 0 an.val)

/-- UP_OWNER_WRITE (R422). -/
def execUpOwnerWrite (a : Agent) (u : Fin 32) (v : Word) (s : State) : Host.Outcome State Fault Refusal :=
  ran s (s.put a (Reg.vault_UP_OWNER u.val) v)

/-- JOB_SUBMIT (R424). -/
def execJobSubmit (a : Agent) (u : Fin 32) (s : State) : Host.Outcome State Fault Refusal :=
  ran s (s.put a (Reg.upage_JOB_CMD u.val) (goWord 0 0))

/-- GCM_ENC (R426). -/
def execGcmEnc (inp : List Byte) (agree : Bool) (s : State) : Host.Outcome State Fault Refusal :=
  ran s (s.onCoreV fun cv => vaultStep cv s.clk 1 inp agree)

/-- GCM_DEC (R426). -/
def execGcmDec (inp : List Byte) (agree : Bool) (s : State) : Host.Outcome State Fault Refusal :=
  ran s (s.onCoreV fun cv => vaultStep cv s.clk 2 inp agree)

/-- GMAC (R426). -/
def execGmac (inp : List Byte) (agree : Bool) (s : State) : Host.Outcome State Fault Refusal :=
  ran s (s.onCoreV fun cv => vaultStep cv s.clk 3 inp agree)

/-- SHA384 (R426). -/
def execSha384 (inp : List Byte) (agree : Bool) (s : State) : Host.Outcome State Fault Refusal :=
  ran s (s.onCoreV fun cv => vaultStep cv s.clk 4 inp agree)

/-- HMAC384 (R426). -/
def execHmac384 (inp : List Byte) (agree : Bool) (s : State) : Host.Outcome State Fault Refusal :=
  ran s (s.onCoreV fun cv => vaultStep cv s.clk 5 inp agree)

/-- ECDSA_SIGN (R426). -/
def execEcdsaSign (inp : List Byte) (agree : Bool) (s : State) : Host.Outcome State Fault Refusal :=
  ran s (s.onCoreV fun cv => vaultStep cv s.clk 6 inp agree)

/-- ECDSA_VERIFY (R426). -/
def execEcdsaVerify (inp : List Byte) (agree : Bool) (s : State) : Host.Outcome State Fault Refusal :=
  ran s (s.onCoreV fun cv => vaultStep cv s.clk 7 inp agree)

/-- UNWRAP (R429). -/
def execUnwrap (inp : List Byte) (agree : Bool) (s : State) : Host.Outcome State Fault Refusal :=
  ran s (s.onCoreV fun cv => vaultStep cv s.clk 8 inp agree)

/-- WRAP (R426). -/
def execWrap (agree : Bool) (s : State) : Host.Outcome State Fault Refusal :=
  ran s (s.onCoreV fun cv => vaultStep cv s.clk 9 [] agree)

/-- KEYGEN (R426). -/
def execKeygen (agree : Bool) (s : State) : Host.Outcome State Fault Refusal :=
  ran s (s.onCoreV fun cv => vaultStep cv s.clk 10 [] agree)

/-- ZERO (R426). -/
def execZero (agree : Bool) (s : State) : Host.Outcome State Fault Refusal :=
  ran s (s.onCoreV fun cv => vaultStep cv s.clk 11 [] agree)

/-- RANDOM (R426). -/
def execRandom (agree : Bool) (s : State) : Host.Outcome State Fault Refusal :=
  ran s (s.onCoreV fun cv => vaultStep cv s.clk 12 [] agree)

/-- ADVANCE (R427). -/
def execAdvance (agree : Bool) (s : State) : Host.Outcome State Fault Refusal :=
  ran s (s.onCoreV fun cv => vaultStep cv s.clk 13 [] agree)

/-- HEALTH_TEST_FAIL (R430). -/
def execHealthTestFail (s : State) : Host.Outcome State Fault Refusal :=
  ran s (s.onCoreV fun cv => healthFail cv)

/-- ZEROIZE_ALL (R432). -/
def execZeroizeAll (a : Agent) (readBackOk : Bool) (s : State) : Host.Outcome State Fault Refusal :=
  ran s (s.busWrite { trained := false, readBack := readBackOk } a.num Reg.vault_ZEROIZE 0x80000000)

/-- KAT_DONE (R433). -/
def execKatDone (fail : Option (Fin 16)) (s : State) : Host.Outcome State Fault Refusal :=
  ran s (s.onCoreV fun cv => Machine.katDone cv (fail.map Fin.val))

/-- KEK_ISSUE (R429). -/
def execKekIssue (a : Agent) (u : Byte) (exportable : Bool) (s : State) : Host.Outcome State Fault Refusal :=
  ran s (s.onCoreV fun cv => Machine.kekIssue cv a.num u.toNat exportable)

end Sys2Proof.Machine
end

