-- ==== Sys2Proof/Machine/CmdDma.lean ====
section
/-!
DEFINITION. Machine/CmdDma.lean: the meanings of the commands of the host interface (R531 to R549, R560), one definition per row of the table.
-/
namespace Sys2Proof.Machine

/-- A register as the SMBus target reads it. -/
def State.shown (s : State) (a : Nat) : Word :=
  match Reg.kindOf (a / 65536), Reg.rowAt a with
  | some k, some row => s.peek k row a
  | _, _ => 0

/-- The word of an SMBus command, or no word where the target answers with a NACK (R560). -/
def State.smbusWord (s : State) (cmd : Nat) : Option Nat :=
  let up := s.aux.phase == 6 && s.aux.pstate != 2
  match cmd with
  | 1 => some (fld (s.shown Reg.therm_TJ_MAX) 15 0)
  | 2 => some (fld (s.shown Reg.therm_THERM_STAT) 31 16)
  | 3 =>
    let w := s.shown Reg.pwr_PMB_MEAS
    some (if up && bit w 31 then fld w 15 0 else 0xFFFF)
  | 4 => some (if up then fld (s.shown Reg.pwr_PACE_STAT) 15 0 else 0xFFFF)
  | 5 => some (fld (s.shown Reg.life_LC_STAT) 31 16)
  | 6 => some (fld (s.shown Reg.rstclk_RST_BOOT) 15 0)
  | _ => none

/-- SMBus Read Word: it is answered in every power state but OFF. -/
def State.smbusRead (s : State) (cmd : Nat) : State :=
  if !s.auxOn then s
  else { s with chip := s.chip.emit (.smbus ((s.smbusWord cmd).map (BitVec.ofNat 16))) }

/-! ## One meaning per row -/

/-- RING_DOORBELL (R535). -/
def execRingDoorbell (a : Agent) (ring : Fin 64) (v : Word) (s : State) : Host.Outcome State Fault Refusal :=
  ran s (s.put a (ringTail ring.val) v)

/-- TX_DESCRIPTOR (R537). -/
def execTxDescriptor (ring : Fin 64) (desc : List Byte) (frame : List Byte) (s : State) : Host.Outcome State Fault Refusal :=
  ran s (s.onCore fun c => if s.aux.pstate = 0 then c.txDescriptor s.clk ring.val desc frame else c)

/-- RX_DESCRIPTOR (R539). -/
def execRxDescriptor (h : Fin 16) (addrs : List (BitVec 64)) (s : State) : Host.Outcome State Fault Refusal :=
  ran s (s.onCore fun c => c.rxDescriptor s.clk h.val (addrs.map BitVec.toNat))

/-- TABLE_DESCRIPTOR (R541). -/
def execTableDescriptor (ring : Fin 64) (desc : List Byte) (blocks : List (List Byte)) (s : State) : Host.Outcome State Fault Refusal :=
  ran s (s.onCore fun c => c.tableDescriptor s.clk ring.val desc blocks)

/-- DMA_READ_ERROR (R545). -/
def execDmaReadError (ring : Fin 64) (kind : Fin 3) (desc : List Byte) (addr : BitVec 64) (s : State) : Host.Outcome State Fault Refusal :=
  ran s (s.onCore fun c => c.readFailed ring.val (kind.val + 1) stIntegrity desc addr.toNat)

/-- CPL_TMO (R545). -/
def execCplTmo (ring : Fin 64) (desc : List Byte) (addr : BitVec 64) (s : State) : Host.Outcome State Fault Refusal :=
  ran s (s.onCore fun c => c.readFailed ring.val 4 stTimeout desc addr.toNat)

/-- COAL_TIME (R543). -/
def execCoalTime (ring : Fin 64) (s : State) : Host.Outcome State Fault Refusal :=
  ran s (s.onCore fun c => c.coalTime ring.val)

/-- RING_CFG_WRITE (R545). -/
def execRingCfgWrite (a : Agent) (ring : Fin 64) (v : Word) (s : State) : Host.Outcome State Fault Refusal :=
  ran s (s.put a (ringCfg ring.val) v)

/-- FLR (R546). -/
def execFlr (f : Fin 8) (s : State) : Host.Outcome State Fault Refusal :=
  ran s (s.onLive fun c => c.flr f.val)

/-- VF_ENABLE_CHANGE (R546). -/
def execVfEnableChange (en : Bool) (num : Fin 8) (s : State) : Host.Outcome State Fault Refusal :=
  ran s (s.onLive fun c => c.vfEnable en num.val)

/-- SMBUS_READ_WORD (R560). -/
def execSmbusReadWord (cmd : Byte) (s : State) : Host.Outcome State Fault Refusal :=
  ran s (s.smbusRead cmd.toNat)

end Sys2Proof.Machine
end

