-- ==== Sys2Proof/Machine/CmdEpoch.lean ====
section
/-!
DEFINITION. Machine/CmdEpoch.lean: the meanings of the commands of configuration epochs and images (R436 to R454), one definition per row of the table.
-/
namespace Sys2Proof.Machine

/-! ## One meaning per row -/

/-- OPEN (R439). -/
def execEpochOpen (a : Agent) (e : BitVec 16) (s : State) : Host.Outcome State Fault Refusal :=
  ran s (s.put a Reg.epoch_EPOCH_CMD (goWord 1 e.toNat))

/-- ABORT (R439). -/
def execEpochAbort (a : Agent) (e : BitVec 16) (s : State) : Host.Outcome State Fault Refusal :=
  ran s (s.put a Reg.epoch_EPOCH_CMD (goWord 2 e.toNat))

/-- COMMIT (R439). -/
def execEpochCommit (a : Agent) (e : BitVec 16) (s : State) : Host.Outcome State Fault Refusal :=
  ran s (s.put a Reg.epoch_EPOCH_CMD (goWord 3 e.toNat))

/-- ROLLBACK (R444). -/
def execEpochRollback (a : Agent) (e : BitVec 16) (s : State) : Host.Outcome State Fault Refusal :=
  ran s (s.put a Reg.epoch_EPOCH_CMD (goWord 4 e.toNat))

/-- EPOCH_COPY_DONE (R438). -/
def execEpochCopyDone (s : State) : Host.Outcome State Fault Refusal :=
  ran s (s.onCore fun c => c.epCopyDone)

/-- COMMIT_BEAT (R440). -/
def execCommitBeat (s : State) : Host.Outcome State Fault Refusal :=
  ran s (s.onCore fun c => c.commitBeat s.clk)

/-- RETIRE_DONE (R438). -/
def execRetireDone (s : State) : Host.Outcome State Fault Refusal :=
  ran s (s.onCore fun c => c.retireDone)

/-- RETIRE_TIMEOUT (R443). -/
def execRetireTimeout (s : State) : Host.Outcome State Fault Refusal :=
  ran s (s.onCore fun c => c.retireTimeout s.clk)

/-- RETIRE_DROPS_DONE (R438). -/
def execRetireDropsDone (s : State) : Host.Outcome State Fault Refusal :=
  ran s (s.onCore fun c => c.retireDropsDone)

/-- JOURNAL_REPLAY (R447). -/
def execJournalReplay (s : State) : Host.Outcome State Fault Refusal :=
  ran s (s.onCore fun c => c.journalReplay s.clk)

/-- CFG_WRITE (R452). -/
def execCfgWrite (slot : Fin 4) (flume : Bool) (addr : BitVec 64) (len : Word) (host : List Byte) (s : State) : Host.Outcome State Fault Refusal :=
  ran s (s.onCore fun c => c.cfgWrite slot.val flume addr.toNat len.toNat host)

/-- CFG_READ (R452). -/
def execCfgRead (slot : Fin 4) (addr : BitVec 64) (len : Word) (s : State) : Host.Outcome State Fault Refusal :=
  ran s (s.onCore fun c => c.cfgRead slot.val addr.toNat len.toNat)

/-- CFG_SAVE_ACTIVE (R452). -/
def execCfgSaveActive (slot : Fin 4) (s : State) : Host.Outcome State Fault Refusal :=
  ran s (s.onCore fun c => c.cfgSaveActive slot.val)

/-- JNL_SAVE (R452). -/
def execJnlSave (s : State) : Host.Outcome State Fault Refusal :=
  ran s (s.onCore fun c => c.jnlSave)

/-- FLASH_ERASE (R451). -/
def execFlashErase (slot : Fin 5) (s : State) : Host.Outcome State Fault Refusal :=
  ran s (s.onCore fun c => c.flashErase slot.val)

end Sys2Proof.Machine
end

