-- ==== Sys2Proof/Machine/CmdExact.lean ====
section
/-!
DEFINITION. Machine/CmdExact.lean: the meanings of the commands of the exact-match tables and learning (R175 to R203), one definition per row of the table.
-/
namespace Sys2Proof.Machine

/-- A block that a row carries, with its OP and KIND bytes set. -/
def rowBlock (blk : List Byte) (op kind : Nat) : List Byte :=
  blkPut (blkPut (slice blk 0 64) 0 (beBytes 1 op)) 1 (beBytes 1 kind)

/-- An exact-match command of an operation, from one of its sources (R181, R182, R202). -/
def State.emRow (s : State) (src : TblSrc) (op : Nat) : State :=
  match src with
  | .page a i => s.put a Reg.em_TBL_CMD (goWord op (i.val * 65536))
  | .sluice r blk => s.onCore fun c =>
    c.emSubmit s.clk { agent := sluiceAgent r.val, dma := false, blk := rowBlock blk op 1, dest := .out }
  | .list f blk => s.onCore fun c =>
    c.emSubmit s.clk { agent := f.val + 1, dma := true, blk := rowBlock blk op 1, dest := .out }

/-- A lock held longer than LOCK_TMO is released by the device (R188). -/
def Chip.emLockTimeout (c : Chip) (i b : Nat) : Chip :=
  match c.emLockOf i b with
  | none => c
  | some l =>
    let c1 := (((c.emDropLock i b l).count Reg.em_LOCK_TMO_CNT 1)).raise 0x231 24
    { c1 with tbl := { c1.tbl with owed := (lockKey i b, l.agent) :: c1.tbl.owed.erase (lockKey i b, l.agent) } }

/-- S2 answers on mailbox 5 (R200). -/
def Chip.s2Reply (c : Chip) (op st : Nat) (body : List Byte) : Chip := c.emit (.reply 5 op st (pad16 body))

/-- SET_POLICY: BAD_ARG outside the ranges of R200. -/
def Chip.setPolicy (c : Chip) (i period limit hold : Nat) : Chip :=
  if !c.serves 2 then c
  else if limit = 0 ∨ hold = 0 ∨ 3600 < hold then c.s2Reply 1 stBadArg []
  else ({ c with tbl := { c.tbl with policy := mset {} c.tbl.policy i { period, limit, hold } } }).s2Reply 1 stOk []

/-- GET_POLICY. -/
def Chip.getPolicy (c : Chip) (i : Nat) : Chip :=
  if !c.serves 2 then c
  else
    let p := c.emPolicy i
    c.s2Reply 2 stOk (beBytes 1 i ++ beBytes 4 p.period ++ beBytes 1 p.limit ++ beBytes 2 p.hold)

/-- UNPIN: BAD_ARG for an instance that does not serve commands. -/
def Chip.svcUnpin (c : Chip) (i : Nat) (key : List Byte) : Chip :=
  if !c.serves 2 then c
  else if !c.emReady i then c.s2Reply 3 stBadArg []
  else
    match c.emUnpin i key with
    | (st, c1) => c1.s2Reply 3 st []

/-- FLUSH. -/
def Chip.svcFlush (c : Chip) (i lp : Nat) : Chip :=
  if !c.serves 2 then c
  else if !c.emReady i then c.s2Reply 4 stBadArg []
  else (c.emFlush i lp).s2Reply 4 stOk []

/-! ## One meaning per row -/

/-- EM_INSERT (R182). -/
def execEmInsert (src : TblSrc) (s : State) : Host.Outcome State Fault Refusal :=
  ran s (s.emRow src 1)

/-- EM_DELETE (R182). -/
def execEmDelete (src : TblSrc) (s : State) : Host.Outcome State Fault Refusal :=
  ran s (s.emRow src 2)

/-- EM_READ (R182). -/
def execEmRead (src : TblSrc) (s : State) : Host.Outcome State Fault Refusal :=
  ran s (s.emRow src 3)

/-- EM_UPDATE (R182). -/
def execEmUpdate (src : TblSrc) (s : State) : Host.Outcome State Fault Refusal :=
  ran s (s.emRow src 4)

/-- EM_SWAP (R182). -/
def execEmSwap (src : TblSrc) (s : State) : Host.Outcome State Fault Refusal :=
  ran s (s.emRow src 5)

/-- EM_SEARCH (R182). -/
def execEmSearch (src : TblSrc) (s : State) : Host.Outcome State Fault Refusal :=
  ran s (s.emRow src 6)

/-- EM_AGE (R199). -/
def execEmAge (src : TblSrc) (s : State) : Host.Outcome State Fault Refusal :=
  ran s (s.emRow src 7)

/-- EM_LOCK (R185). -/
def execEmLockBucket (src : TblSrc) (s : State) : Host.Outcome State Fault Refusal :=
  ran s (s.emRow src 8)

/-- EM_WRITE_SLOT (R186). -/
def execEmWriteSlot (src : TblSrc) (s : State) : Host.Outcome State Fault Refusal :=
  ran s (s.emRow src 9)

/-- EM_UNLOCK (R187). -/
def execEmUnlock (src : TblSrc) (s : State) : Host.Outcome State Fault Refusal :=
  ran s (s.emRow src 10)

/-- EM_RELOCATE (R189). -/
def execEmRelocate (src : TblSrc) (s : State) : Host.Outcome State Fault Refusal :=
  ran s (s.emRow src 11)

/-- EM_INSERT_RELOCATE (R190). -/
def execEmInsertRelocate (i : Fin 16) (s : State) : Host.Outcome State Fault Refusal :=
  ran s (s.onCore fun c => c.emRelocDone s.clk i.val)

/-- BUCKET_LOCK_TIMEOUT (R188). -/
def execBucketLockTimeout (i : Fin 16) (b : Nat) (s : State) : Host.Outcome State Fault Refusal :=
  ran s (s.onCore fun c => c.emLockTimeout i.val b)

/-- EM_GEOM_WRITE (R175). -/
def execEmGeomWrite (a : Agent) (i : Fin 16) (v : Word) (s : State) : Host.Outcome State Fault Refusal :=
  ran s (s.put a (Reg.em_EM_GEOM i.val) v)

/-- EM_CLEAR_DONE (R175). -/
def execEmClearDone (i : Fin 16) (s : State) : Host.Outcome State Fault Refusal :=
  ran s (s.onCore fun c => { c with tbl := { c.tbl with emClearing := c.tbl.emClearing.filter (· != i.val) } })

/-- LEARN_HANDLE (R196). -/
def execLearnHandle (s : State) : Host.Outcome State Fault Refusal :=
  ran s (s.onCore fun c => c.learnHandle s.clk)

/-- AGE_WALK (R198). -/
def execAgeWalk (i : Fin 16) (s : State) : Host.Outcome State Fault Refusal :=
  ran s (s.onCore fun c => c.ageWalk i.val)

/-- PIN_HOLD_EXPIRY (R197). -/
def execPinHoldExpiry (i : Fin 16) (key : List Byte) (s : State) : Host.Outcome State Fault Refusal :=
  ran s (s.onCore fun c => c.pinExpire i.val key)

/-- SET_POLICY (R200). -/
def execSetPolicy (i : Fin 16) (period : Word) (limit : Byte) (hold : BitVec 16) (s : State) : Host.Outcome State Fault Refusal :=
  ran s (s.onCore fun c => c.setPolicy i.val period.toNat limit.toNat hold.toNat)

/-- GET_POLICY (R200). -/
def execGetPolicy (i : Fin 16) (s : State) : Host.Outcome State Fault Refusal :=
  ran s (s.onCore fun c => c.getPolicy i.val)

/-- UNPIN (R200). -/
def execUnpin (i : Fin 16) (key : List Byte) (s : State) : Host.Outcome State Fault Refusal :=
  ran s (s.onCore fun c => c.svcUnpin i.val key)

/-- FLUSH (R200). -/
def execEmFlush (i : Fin 16) (lp : BitVec 16) (s : State) : Host.Outcome State Fault Refusal :=
  ran s (s.onCore fun c => c.svcFlush i.val lp.toNat)

end Sys2Proof.Machine
end

