-- ==== Sys2Proof/Machine/CmdFault.lean ====
section
/-!
DEFINITION. Machine/CmdFault.lean: the meanings of the commands of faults and upsets (R480 to R498), one definition per row of the table.
-/
namespace Sys2Proof.Machine

/-! ## One meaning per row -/

/-- FATAL_FAULT (R491). -/
def execFatalFault (pg : Nat) (lookup : Bool) (s : State) : Host.Outcome State Fault Refusal :=
  ran s (s.fatalFault pg lookup)

/-- DIE_LINK_FAIL (R493). -/
def execDieLinkFail (d : Fin 8) (s : State) : Host.Outcome State Fault Refusal :=
  ran s (s.onCore fun c => c.dieLinkFail s.clk d.val)

/-- DLINK_CMD (R496). -/
def execDlinkCmd (a : Agent) (v : Word) (trained : Bool) (s : State) : Host.Outcome State Fault Refusal :=
  ran s (s.busWrite { trained := trained } a.num Reg.fault_DLINK_CMD v)

/-- STORAGE_UPSET (R480). -/
def execStorageUpset (pg : Nat) (mem : Nat) (word : Nat) (unc : Bool) (stuck : Bool) (bitpos : Byte) (synd : BitVec 16) (s : State) : Host.Outcome State Fault Refusal :=
  ran s (s.onLive fun c => c.storageUpset pg mem word { unc := unc, stuck := stuck, bitpos := bitpos.toNat, synd := synd.toNat })

end Sys2Proof.Machine
end

