-- ==== Sys2Proof/Machine/CmdFlume.lean ====
section
/-!
DEFINITION. Machine/CmdFlume.lean: the meanings of the commands of the Flume tier (R306 to R325), one definition per row of the table.
-/
namespace Sys2Proof.Machine

/-! ## One meaning per row -/

/-- FL_PART_WRITE (R308). -/
def execFlPartWrite (a : Agent) (v : Word) (s : State) : Host.Outcome State Fault Refusal :=
  ran s (s.put a Reg.flume_FL_PART v)

/-- SPILL_WRITE (R314). -/
def execSpillWrite (q : Fin 23056) (s : State) : Host.Outcome State Fault Refusal :=
  ran s (s.onCore fun c => c.spillWrite s.clk q.val)

/-- SPILL_RETURN (R315). -/
def execSpillReturn (q : Fin 23056) (s : State) : Host.Outcome State Fault Refusal :=
  ran s (s.onCore fun c => c.spillReturn s.clk q.val)

/-- SPILL_RETURN_DONE (R315). -/
def execSpillReturnDone (q : Fin 23056) (s : State) : Host.Outcome State Fault Refusal :=
  ran s (s.onCore fun c => c.spillReturnDone s.clk q.val)

/-- PATROL_READ (R319). -/
def execPatrolRead (s : State) : Host.Outcome State Fault Refusal :=
  ran s (s.onCore fun c => c.patrolRead)

/-- FLUME_LINK_FAIL (R321). -/
def execFlumeLinkFail (d : Fin 2) (s : State) : Host.Outcome State Fault Refusal :=
  ran s (s.onCore fun c => c.flumeLinkLost s.clk d.val)

/-- FLUME_DRAIN_DONE (R322). -/
def execFlumeDrainDone (s : State) : Host.Outcome State Fault Refusal :=
  ran s (s.onCore fun c => c.flSelfRefresh)

/-- FLUME_DRAIN_TIMEOUT (R322). -/
def execFlumeDrainTimeout (s : State) : Host.Outcome State Fault Refusal :=
  ran s (s.onCore fun c => c.flDrainTmo)

end Sys2Proof.Machine
end

