-- ==== Sys2Proof/Machine/CmdLife.lean ====
section
/-!
DEFINITION. Machine/CmdLife.lean: the meanings of the commands of lifecycle, debug and freeze (R499 to R516), one definition per row of the table.
-/
namespace Sys2Proof.Machine

/-- Storage that reads as zero in a frozen read-out unless keys are readable (R513): Vault key slots and the device keys
of UP0, DRBG state, and port SA keys. -/
def keyMemory (pg mem : Nat) : Bool :=
  match Reg.kindOf pg with
  | some .vault => mem == 1
  | some .upage => mem == 0
  | some .port => mem == 8
  | _ => false

/-- Registers in which a port SA's key and salt are staged. -/
def keyRegister (a : Nat) : Bool :=
  Reg.kindOf (a / 65536) == some .port &&
    ((decide (0x1110 ≤ a % 65536) && decide (a % 65536 < 0x111C)) || (decide (0x1140 ≤ a % 65536) && decide (a % 65536 < 0x1180)))

/-- A read through the frozen-access port: data while the device is frozen and facility 1 is open, and otherwise an error
response (R508, R513, R514). -/
def State.frozenRead (s : State) (t : FrozenTarget) : State :=
  let say (c : Chip) (v : Option (BitVec 64)) : State := { s with chip := c.emit (.frozen v) }
  let c := s.chip
  if !s.auxOn then s
  else if s.aux.rail ≠ .run ∨ !s.aux.frozen ∨ !s.facility 1 then say c none
  else
    match t with
    | .sram pg mem word =>
      if keyMemory pg mem && !s.aux.keysReadable then say c (some 0)
      else say { c with fresh := c.fresh + 1 } (some (Config.sramBits pg mem word c.fresh))
    | .reg a =>
      if keyRegister a && !s.aux.keysReadable then say c (some 0)
      else
        match Reg.kindOf (a / 65536), Reg.rowAt a with
        | some k, some row => say c (some (BitVec.ofNat 64 (s.peek k row a).toNat))
        | _, _ => say c (some 0)

/-! ## One meaning per row -/

/-- PROVISION (R502). -/
def execProvision (a : Agent) (arg : BitVec 20) (s : State) : Host.Outcome State Fault Refusal :=
  ran s (s.put a Reg.life_LC_CMD (goWord 1 arg.toNat))

/-- DEPLOY (R500). -/
def execDeploy (a : Agent) (arg : BitVec 20) (s : State) : Host.Outcome State Fault Refusal :=
  ran s (s.put a Reg.life_LC_CMD (goWord 2 arg.toNat))

/-- CHALLENGE (R503). -/
def execChallenge (a : Agent) (arg : BitVec 20) (s : State) : Host.Outcome State Fault Refusal :=
  ran s (s.put a Reg.life_LC_CMD (goWord 3 arg.toNat))

/-- UNLOCK (R503). -/
def execUnlock (a : Agent) (arg : BitVec 20) (s : State) : Host.Outcome State Fault Refusal :=
  ran s (s.put a Reg.life_LC_CMD (goWord 4 arg.toNat))

/-- RELOCK (R500). -/
def execRelock (a : Agent) (arg : BitVec 20) (s : State) : Host.Outcome State Fault Refusal :=
  ran s (s.put a Reg.life_LC_CMD (goWord 5 arg.toNat))

/-- RMA (R500). -/
def execRma (a : Agent) (arg : BitVec 20) (s : State) : Host.Outcome State Fault Refusal :=
  ran s (s.put a Reg.life_LC_CMD (goWord 6 arg.toNat))

/-- DISABLE (R500). -/
def execDisable (a : Agent) (arg : BitVec 20) (s : State) : Host.Outcome State Fault Refusal :=
  ran s (s.put a Reg.life_LC_CMD (goWord 7 arg.toNat))

/-- ADD_KEY (R507). -/
def execAddKey (a : Agent) (arg : BitVec 20) (s : State) : Host.Outcome State Fault Refusal :=
  ran s (s.put a Reg.life_LC_CMD (goWord 8 arg.toNat))

/-- REVOKE_KEY (R507). -/
def execRevokeKey (a : Agent) (arg : BitVec 20) (s : State) : Host.Outcome State Fault Refusal :=
  ran s (s.put a Reg.life_LC_CMD (goWord 9 arg.toNat))

/-- SVN_ADVANCE (R507). -/
def execSvnAdvance (a : Agent) (arg : BitVec 20) (s : State) : Host.Outcome State Fault Refusal :=
  ran s (s.put a Reg.life_LC_CMD (goWord 10 arg.toNat))

/-- CHALLENGE_EXPIRY (R503). -/
def execChallengeExpiry (s : State) : Host.Outcome State Fault Refusal :=
  ran s s.challengeExpiry

/-- DBG_WARN (R504). -/
def execDbgWarn (s : State) : Host.Outcome State Fault Refusal :=
  ran s s.dbgWarn

/-- DEBUG_SESSION_EXPIRY (R500). -/
def execDebugSessionExpiry (s : State) : Host.Outcome State Fault Refusal :=
  ran s (if s.auxOn then s.endSession else s)

/-- RECOV_CMD (R506). -/
def execRecovCmd (a : Agent) (img : List Byte) (b : Boot) (s : State) : Host.Outcome State Fault Refusal :=
  ran s (s.regWrite {} b img a.num Reg.life_RECOV_CMD 15 0x80000000)

/-- FREEZE_N (R511). -/
def execFreezeN (s : State) : Host.Outcome State Fault Refusal :=
  ran s (s.freeze 1 0)

/-- FRZ_NOW (R511). -/
def execFrzNow (a : Agent) (s : State) : Host.Outcome State Fault Refusal :=
  ran s (s.putF a Reg.life_FRZ_CTL 31 31 1)

/-- FROZEN_READ (R513). -/
def execFrozenRead (t : FrozenTarget) (s : State) : Host.Outcome State Fault Refusal :=
  ran s (s.frozenRead t)

/-- FRZ_CLR (R513). -/
def execFrzClr (a : Agent) (v : Word) (s : State) : Host.Outcome State Fault Refusal :=
  ran s (s.put a Reg.life_FRZ_CLR v)

/-- BOUNDARY_SCAN_INSTRUCTION (R510). -/
def execBoundaryScan (ir : ScanInstr) (s : State) : Host.Outcome State Fault Refusal :=
  ran s (s.scan ir)

end Sys2Proof.Machine
end

