-- ==== Sys2Proof/Machine/CmdMbx.lean ====
section
/-!
DEFINITION. Machine/CmdMbx.lean: the meanings of the commands of mailboxes and locks (R394 to R410), one definition per row of the table.
-/
namespace Sys2Proof.Machine

/-! ## One meaning per row -/

/-- POST_CMD (R397). -/
def execPostCmd (a : Agent) (m : Fin 32) (s : State) : Host.Outcome State Fault Refusal :=
  ran s (s.put a Reg.mbx_POST_CMD (wd m.val))

/-- MBX_TAKE (R398). -/
def execMbxTake (a : Agent) (m : Fin 32) (s : State) : Host.Outcome State Fault Refusal :=
  ran s (s.get a (Reg.mbx_MBX_PTR m.val 3))

/-- MBX_ACK (R398). -/
def execMbxAck (a : Agent) (m : Fin 32) (st : Byte) (s : State) : Host.Outcome State Fault Refusal :=
  ran s (s.put a (Reg.mbx_MBX_ACK m.val) (wd st.toNat))

/-- ACK_TIMEOUT (R405). -/
def execAckTimeout (m : Fin 32) (s : State) : Host.Outcome State Fault Refusal :=
  ran s (s.onCore fun c => c.ackTimeout m.val)

/-- LOCK_READ (R407). -/
def execLockRead (a : Agent) (i : Fin 64) (s : State) : Host.Outcome State Fault Refusal :=
  ran s (s.get a (Reg.mbx_LOCK i.val))

/-- LOCK_RELEASE (R409). -/
def execLockRelease (a : Agent) (i : Fin 64) (v : Word) (s : State) : Host.Outcome State Fault Refusal :=
  ran s (s.put a (Reg.mbx_LOCK i.val) v)

/-- LOCK_BREAK (R409). -/
def execLockBreak (a : Agent) (i : Fin 64) (s : State) : Host.Outcome State Fault Refusal :=
  ran s (s.put a Reg.mbx_LOCK_BREAK (wd i.val))

end Sys2Proof.Machine
end

