-- ==== Sys2Proof/Machine/CmdPort.lean ====
section
/-!
DEFINITION. Machine/CmdPort.lean: the meanings of the commands of lanes, PCS, FEC, PRBS and the link state machine (R57 to R88), one definition per row of the table.
-/
namespace Sys2Proof.Machine

/-- RAW_EN cleared on each lane of a list. -/
def State.rawClear (s : State) (a : Agent) : List Nat → State
  | [] => s
  | l :: ls => (s.putF a (laneReg Reg.lane_LN_CFG l) 31 31 0).rawClear a ls

/-! ## One meaning per row -/

/-- PORT_MODE_WRITE (R59). -/
def execPortModeWrite (a : Agent) (p : Fin 144) (v : Word) (s : State) : Host.Outcome State Fault Refusal :=
  ran s (s.put a (Reg.port_PORT_MODE p.val) v)

/-- TX_EQ_WRITE (R66). -/
def execTxEqWrite (a : Agent) (l : Fin 1152) (v : Word) (s : State) : Host.Outcome State Fault Refusal :=
  ran s (s.put a (laneReg Reg.lane_TX_EQ l.val) v)

/-- BRD_DLY_WRITE (R82). -/
def execBrdDlyWrite (a : Agent) (l : Fin 1152) (tx : Bool) (v : Word) (s : State) : Host.Outcome State Fault Refusal :=
  ran s (s.put a (if tx then laneReg Reg.lane_BRD_TX_DLY l.val else laneReg Reg.lane_BRD_RX_DLY l.val) v)

/-- RESTART (R68). -/
def execAdaptRestart (a : Agent) (l : Fin 1152) (s : State) : Host.Outcome State Fault Refusal :=
  ran s (s.putF a (laneReg Reg.lane_RX_ADAPT l.val) 0 0 1)

/-- ADAPT_DONE (R68). -/
def execAdaptDone (l : Fin 1152) (ctle : Fin 32) (taps : List Int) (s : State) : Host.Outcome State Fault Refusal :=
  ran s (s.onCore fun c => c.adaptDone s.clk l.val ctle.val taps)

/-- CONT_ADAPT_TICK (R68). -/
def execContAdaptTick (l : Fin 1152) (moves : List Int) (vert : Byte) (horiz : Byte) (s : State) : Host.Outcome State Fault Refusal :=
  ran s (s.onCore fun c => c.contAdapt l.val moves vert.toNat horiz.toNat)

/-- FEC_CODEWORD (R64). -/
def execFecCodeword (lp : Fin 1152) (errs : Nat) (s : State) : Host.Outcome State Fault Refusal :=
  ran s (s.onCore fun c => c.fecCodeword lp.val errs)

/-- FEC_DEGRADE_WINDOW (R64). -/
def execFecDegradeWindow (lp : Fin 1152) (s : State) : Host.Outcome State Fault Refusal :=
  ran s (s.onCore fun c => c.fecWindow lp.val)

/-- HI_SER (R87). -/
def execHiSer (lp : Fin 1152) (s : State) : Host.Outcome State Fault Refusal :=
  ran s (s.onCore fun c => c.hiSer lp.val)

/-- HOST_REQ_WRITE (R70). -/
def execHostReqWrite (a : Agent) (lp : Fin 1152) (req : Fin 4) (s : State) : Host.Outcome State Fault Refusal :=
  ran s (s.putF a (lpReg Reg.port_PWR_REQ lp.val) 1 0 req.val)

/-- PM_REQ_WRITE (R70). -/
def execPmReqWrite (a : Agent) (lp : Fin 1152) (quiet : Bool) (s : State) : Host.Outcome State Fault Refusal :=
  ran s (s.putF a (lpReg Reg.port_PWR_REQ lp.val) 8 8 quiet.toNat)

/-- QUIET_IDLE_EXPIRY (R71). -/
def execQuietIdleExpiry (lp : Fin 1152) (s : State) : Host.Outcome State Fault Refusal :=
  ran s (s.onCore fun c => c.quietIdle s.clk lp.val)

/-- LANE_TRANSITION_DONE (R71). -/
def execLaneTransitionDone (lp : Fin 1152) (s : State) : Host.Outcome State Fault Refusal :=
  ran s (s.onCore fun c => c.laneMoved s.clk lp.val)

/-- PLL_STOP_DONE (R72). -/
def execPllStopDone (k : Fin 72) (s : State) : Host.Outcome State Fault Refusal :=
  ran s (s.onCore fun c => c.pllStopped k.val)

/-- PLL_UNLOCK (R85). -/
def execPllUnlock (k : Fin 72) (high : Bool) (s : State) : Host.Outcome State Fault Refusal :=
  ran s (s.onCore fun c => c.pllUnlock k.val high)

/-- PLL_LOCKED (R77). -/
def execPllLocked (k : Fin 72) (high : Bool) (s : State) : Host.Outcome State Fault Refusal :=
  ran s (s.onCore fun c => c.pllLocked s.clk k.val high)

/-- RAW_EN_SET (R74). -/
def execRawEnSet (a : Agent) (l : Fin 1152) (s : State) : Host.Outcome State Fault Refusal :=
  ran s (s.putF a (laneReg Reg.lane_LN_CFG l.val) 31 31 1)

/-- RAW_EN_CLEAR (R77). -/
def execRawEnClear (a : Agent) (lp : Fin 1152) (s : State) : Host.Outcome State Fault Refusal :=
  ran s (s.rawClear a (s.chip.lanesOf lp.val))

/-- SLIP (R75). -/
def execSlip (a : Agent) (l : Fin 1152) (s : State) : Host.Outcome State Fault Refusal :=
  ran s (s.put a (laneReg Reg.lane_SLIP l.val) 1)

/-- SLIP_DONE (R75). -/
def execSlipDone (l : Fin 1152) (s : State) : Host.Outcome State Fault Refusal :=
  ran s (s.onCore fun c => c.slipDone l.val)

/-- PRBS_WORD_CHECK (R76). -/
def execPrbsWordCheck (l : Fin 1152) (errs : Fin 65) (s : State) : Host.Outcome State Fault Refusal :=
  ran s (s.onCore fun c => c.wordCheck l.val errs.val)

/-- PRBS_LOCK (R76). -/
def execPrbsLock (l : Fin 1152) (s : State) : Host.Outcome State Fault Refusal :=
  ran s (s.onCore fun c => c.prbsLock l.val)

/-- PRBS_LOCK_LOST (R76). -/
def execPrbsLockLost (l : Fin 1152) (s : State) : Host.Outcome State Fault Refusal :=
  ran s (s.onCore fun c => c.prbsLost l.val)

/-- ADMIN_UP_SET (R77). -/
def execAdminUpSet (a : Agent) (lp : Fin 1152) (s : State) : Host.Outcome State Fault Refusal :=
  ran s (s.putF a (Reg.port_PORT_ADMIN (lp.val / 8)) (lp.val % 8) (lp.val % 8) 1)

/-- ADMIN_UP_CLEAR (R77). -/
def execAdminUpClear (a : Agent) (lp : Fin 1152) (s : State) : Host.Outcome State Fault Refusal :=
  ran s (s.putF a (Reg.port_PORT_ADMIN (lp.val / 8)) (lp.val % 8) (lp.val % 8) 0)

/-- AN_COMPLETE (R77). -/
def execAnComplete (lp : Fin 1152) (s : State) : Host.Outcome State Fault Refusal :=
  ran s (s.onCore fun c => c.anComplete s.clk lp.val)

/-- AN_FAIL (R62). -/
def execAnFail (lp : Fin 1152) (s : State) : Host.Outcome State Fault Refusal :=
  ran s (s.onCore fun c => c.anFail lp.val)

/-- TRAIN_DONE (R77). -/
def execTrainDone (lp : Fin 1152) (s : State) : Host.Outcome State Fault Refusal :=
  ran s (s.onCore fun c => c.trainDone s.clk lp.val)

/-- TRAIN_TMO (R77). -/
def execTrainTmo (lp : Fin 1152) (s : State) : Host.Outcome State Fault Refusal :=
  ran s (s.onCore fun c => c.trainTmo s.clk lp.val)

/-- ADAPT_TIMEOUT (R77). -/
def execAdaptTimeout (lp : Fin 1152) (s : State) : Host.Outcome State Fault Refusal :=
  ran s (s.onCore fun c => c.adaptTmo s.clk lp.val)

/-- ALIGN_LOCK (R77). -/
def execAlignLock (lp : Fin 1152) (s : State) : Host.Outcome State Fault Refusal :=
  ran s (s.onCore fun c => c.alignLock s.clk lp.val)

/-- ALIGN_TIMEOUT (R569). -/
def execAlignTimeout (lp : Fin 1152) (s : State) : Host.Outcome State Fault Refusal :=
  ran s (s.onCore fun c => c.alignTmo s.clk lp.val)

/-- CAL_DONE (R82). -/
def execCalDone (lp : Fin 1152) (rx : BitVec 24) (tx : BitVec 24) (s : State) : Host.Outcome State Fault Refusal :=
  ran s (s.onCore fun c => c.calDone s.clk lp.val rx.toNat tx.toNat)

/-- LOSS_CONDITION (R79). -/
def execLossCondition (lp : Fin 1152) (j : Fin 8) (kind : Fin 4) (s : State) : Host.Outcome State Fault Refusal :=
  ran s (s.onCore fun c => c.lossCondition lp.val j.val kind.val)

/-- LINK_DOWN_HOLD_EXPIRY (R77). -/
def execLinkDownHoldExpiry (lp : Fin 1152) (s : State) : Host.Outcome State Fault Refusal :=
  ran s (s.onCore fun c => c.holdExpiry s.clk lp.val)

/-- REMOTE_FAULT (R77). -/
def execRemoteFault (lp : Fin 1152) (s : State) : Host.Outcome State Fault Refusal :=
  ran s (s.onCore fun c => c.remoteFault s.clk lp.val)

/-- REMOTE_FAULT_CLEAR (R77). -/
def execRemoteFaultClear (lp : Fin 1152) (s : State) : Host.Outcome State Fault Refusal :=
  ran s (s.onCore fun c => c.remoteClear s.clk lp.val)

/-- LOSS_CONDITION_CLEAR (R79). -/
def execLossConditionClear (lp : Fin 1152) (s : State) : Host.Outcome State Fault Refusal :=
  ran s (s.onCore fun c => c.lossClear lp.val)

/-- LINK_TRAINING_REQUEST (R67). -/
def execLinkTrainingRequest (l : Fin 1152) (coef : Fin 3) (up : Bool) (s : State) : Host.Outcome State Fault Refusal :=
  ran s (s.onCore fun c => c.trainRequest l.val coef.val up)

end Sys2Proof.Machine
end

