-- ==== Sys2Proof/Machine/CmdPower.lean ====
section
/-!
DEFINITION. Machine/CmdPower.lean: the meanings of the commands of power, pace and thermal (R455 to R479), one definition per row of the table.
-/
namespace Sys2Proof.Machine

/-! ## One meaning per row -/

/-- ESTIMATE_TICK (R457). -/
def execEstimateTick (raw : List Nat) (s : State) : Host.Outcome State Fault Refusal :=
  ran s (s.onCore fun c => c.estimateTick s.clk raw)

/-- PMBUS_WINDOW (R457). -/
def execPmbusWindow (meas : Option Nat) (mean : Nat) (s : State) : Host.Outcome State Fault Refusal :=
  ran s (s.onCore fun c => c.pmbusWindow meas mean)

/-- CLR (R458). -/
def execCalClr (a : Agent) (s : State) : Host.Outcome State Fault Refusal :=
  ran s (s.putF a Reg.pwr_CAL_CTL 0 0 1)

/-- APPLY (R456). -/
def execFracApply (a : Agent) (s : State) : Host.Outcome State Fault Refusal :=
  ran s (s.put a Reg.pwr_FRAC_CMD 1)

/-- PACE_INSTANT (R463). -/
def execPaceInstant (idle : List (Fin 1152)) (s : State) : Host.Outcome State Fault Refusal :=
  ran s (s.paceInstant (idle.map Fin.val))

/-- PACE_PLL_LOCK (R464). -/
def execPacePllLock (s : State) : Host.Outcome State Fault Refusal :=
  ran s (s.onCore fun c => c.pacePllLock)

/-- DROOP_START (R466). -/
def execDroopStart (s : State) : Host.Outcome State Fault Refusal :=
  ran s (s.onCore fun c => c.droopStart)

/-- DROOP_END (R466). -/
def execDroopEnd (s : State) : Host.Outcome State Fault Refusal :=
  ran s (s.onCore fun c => c.droopEnd s.clk)

/-- PACE_DEFER_RESUME (R464). -/
def execPaceDeferResume (s : State) : Host.Outcome State Fault Refusal :=
  ran s (s.onCore fun c => c.paceDeferResume)

/-- GROUP_FRAME_RECEIVE (R469). -/
def execGroupFrameReceive (frame : Word) (s : State) : Host.Outcome State Fault Refusal :=
  ran s (s.onCore fun c => c.groupFrame frame)

/-- GROUP_LOSS (R470). -/
def execGroupLoss (s : State) : Host.Outcome State Fault Refusal :=
  ran s (s.onCore fun c => c.groupLoss)

/-- GROUP_EXIT (R470). -/
def execGroupExit (s : State) : Host.Outcome State Fault Refusal :=
  ran s (s.onCore fun c => c.groupExit)

/-- CAP_SET (R475). -/
def execCapSet (en : Bool) (capW : Nat) (fr : List Nat) (s : State) : Host.Outcome State Fault Refusal :=
  ran s (s.onCore fun c => c.capSet en capW fr)

/-- PWR_GET_STATUS (R475). -/
def execPwrGetStatus (s : State) : Host.Outcome State Fault Refusal :=
  ran s (s.onCore fun c => c.pwrGetStatus)

/-- GROUP_CFG (R475). -/
def execGroupCfg (en : Bool) (lead : Bool) (id : Byte) (period : Nat) (s : State) : Host.Outcome State Fault Refusal :=
  ran s (s.onCore fun c => c.groupCfg en lead id.toNat period)

/-- THERMAL_SAMPLE (R471). -/
def execThermalSample (t : List Int) (stuck : List (Fin 26)) (s : State) : Host.Outcome State Fault Refusal :=
  ran s (s.onLive fun c => c.thermalSample t (stuck.map Fin.val))

/-- THERMTRIP (R473). -/
def execThermtrip (s : State) : Host.Outcome State Fault Refusal :=
  ran s s.thermtripNow

/-- THERM_CLR (R478). -/
def execThermClr (a : Agent) (v : Word) (s : State) : Host.Outcome State Fault Refusal :=
  ran s (s.put a Reg.therm_THERM_CLR v)

end Sys2Proof.Machine
end

