-- ==== Sys2Proof/Machine/CmdPrefix.lean ====
section
/-!
DEFINITION. Machine/CmdPrefix.lean: the meanings of the commands of the prefix tables and the masked CAM (R204 to R227), one definition per row of the table.
-/
namespace Sys2Proof.Machine

/-- A prefix or CAM command of an operation, from one of its sources (R222 to R226). The page's registers hold the whole
block: GO submits it, and the row is this one when the block's OP and KIND are its own. -/
def State.pfxRow (s : State) (src : TblSrc) (op kind : Nat) : State :=
  match src with
  | .page a _ =>
    let b := s.chip.pfxPageBlock
    if blkOp b = op ∧ blkKind b = kind then s.put a Reg.pfx_PFX_CMD 0x80000000 else s
  | .sluice r blk => s.onCore fun c =>
    c.pfxSubmit s.clk { agent := sluiceAgent r.val, dma := false, blk := rowBlock blk op kind, dest := .out }
  | .list f blk => s.onCore fun c =>
    c.pfxSubmit s.clk { agent := f.val + 1, dma := true, blk := rowBlock blk op kind, dest := .out }

/-! ## One meaning per row -/

/-- PFX_INSERT (R223). -/
def execPfxInsert (v6 : Bool) (src : TblSrc) (s : State) : Host.Outcome State Fault Refusal :=
  ran s (s.pfxRow src 1 (if v6 then 3 else 2))

/-- PFX_DELETE (R223). -/
def execPfxDelete (v6 : Bool) (src : TblSrc) (s : State) : Host.Outcome State Fault Refusal :=
  ran s (s.pfxRow src 2 (if v6 then 3 else 2))

/-- PFX_READ (R223). -/
def execPfxRead (v6 : Bool) (src : TblSrc) (s : State) : Host.Outcome State Fault Refusal :=
  ran s (s.pfxRow src 3 (if v6 then 3 else 2))

/-- PFX_UPDATE (R223). -/
def execPfxUpdate (v6 : Bool) (src : TblSrc) (s : State) : Host.Outcome State Fault Refusal :=
  ran s (s.pfxRow src 4 (if v6 then 3 else 2))

/-- PFX_SWAP (R223). -/
def execPfxSwap (v6 : Bool) (src : TblSrc) (s : State) : Host.Outcome State Fault Refusal :=
  ran s (s.pfxRow src 5 (if v6 then 3 else 2))

/-- PFX_SEARCH (R223). -/
def execPfxSearch (v6 : Bool) (src : TblSrc) (s : State) : Host.Outcome State Fault Refusal :=
  ran s (s.pfxRow src 6 (if v6 then 3 else 2))

/-- PIN (R223). -/
def execPfxPin (v6 : Bool) (src : TblSrc) (s : State) : Host.Outcome State Fault Refusal :=
  ran s (s.pfxRow src 12 (if v6 then 3 else 2))

/-- PFX_UNPIN (R223). -/
def execPfxUnpin (v6 : Bool) (src : TblSrc) (s : State) : Host.Outcome State Fault Refusal :=
  ran s (s.pfxRow src 13 (if v6 then 3 else 2))

/-- PFX_LOOKUP (R223). -/
def execPfxLookupCmd (v6 : Bool) (src : TblSrc) (s : State) : Host.Outcome State Fault Refusal :=
  ran s (s.pfxRow src 14 (if v6 then 3 else 2))

/-- CAM_READ (R224). -/
def execCamRead (src : TblSrc) (s : State) : Host.Outcome State Fault Refusal :=
  ran s (s.pfxRow src 3 4)

/-- CAM_WRITE_SLOT (R224). -/
def execCamWriteSlot (src : TblSrc) (s : State) : Host.Outcome State Fault Refusal :=
  ran s (s.pfxRow src 9 4)

/-- CAM_LOOKUP (R224). -/
def execCamLookupCmd (src : TblSrc) (s : State) : Host.Outcome State Fault Refusal :=
  ran s (s.pfxRow src 14 4)

/-- PFX_S3_DONE (R217). -/
def execPfxS3Done (v6 : Bool) (s : State) : Host.Outcome State Fault Refusal :=
  ran s (s.onCore fun c => c.pfxS3Done s.clk v6)

/-- PFX_OVERFLOW_RETURN (R218). -/
def execPfxOverflowReturn (v6 : Bool) (vrf : BitVec 12) (addr : BitVec 128) (len : Fin 129) (s : State) : Host.Outcome State Fault Refusal :=
  ran s (s.onCore fun c => c.pfxReturn v6 vrf.toNat (addr.toNat % 2 ^ famBits v6) len.val)

/-- PFX_FAMILY_ENABLE (R207). -/
def execPfxFamilyEnable (a : Agent) (v6 : Bool) (s : State) : Host.Outcome State Fault Refusal :=
  ran s (s.putF a (pfxCfg v6) 31 31 1)

/-- PFX_CLEAR_DONE (R207). -/
def execPfxClearDone (v6 : Bool) (s : State) : Host.Outcome State Fault Refusal :=
  ran s (s.onCore fun c => { c with tbl := { c.tbl with pfxClearing := c.tbl.pfxClearing.filter (· != famNum v6) } })

/-- PFX_REBUILD_DONE (R220). -/
def execPfxRebuildDone (s : State) : Host.Outcome State Fault Refusal :=
  ran s (s.onCore fun c => { c with tbl := { c.tbl with pfxRebuild := false } })

/-- CAM_BLK_WRITE (R215). -/
def execCamBlkWrite (a : Agent) (b : Fin 64) (v : Word) (s : State) : Host.Outcome State Fault Refusal :=
  ran s (s.put a (Reg.pfx_CAM_BLK b.val) v)

end Sys2Proof.Machine
end

