-- ==== Sys2Proof/Machine/CmdReg.lean ====
section
/-!
DEFINITION. Machine/CmdReg.lean: the meanings of the commands of the register space: accesses, captures, soft resets, scrub (R34 to R56), one definition per row of the table.
-/
namespace Sys2Proof.Machine

/-! ## One meaning per row -/

/-- REG_WRITE (R37). -/
def execRegWrite (a : Agent) (off : Nat) (be : Fin 16) (v : Word) (s : State) : Host.Outcome State Fault Refusal :=
  ran s (s.regWrite {} {} [] a.num off be.val v)

/-- RC_READ (R6). -/
def execRcRead (a : Agent) (off : Nat) (s : State) : Host.Outcome State Fault Refusal :=
  ran s (s.get a off)

/-- COUNTER_LO_READ (R36). -/
def execCounterLoRead (a : Agent) (off : Nat) (s : State) : Host.Outcome State Fault Refusal :=
  ran s (s.get a off)

/-- INT_CAUSE_CLEAR (R44). -/
def execIntCauseClear (a : Agent) (pg : Nat) (v : Word) (s : State) : Host.Outcome State Fault Refusal :=
  ran s (s.put a (Reg.INT_CAUSE pg) v)

/-- INT_FORCE (R38). -/
def execIntForce (a : Agent) (pg : Nat) (v : Word) (s : State) : Host.Outcome State Fault Refusal :=
  ran s (s.put a (Reg.INT_FORCE pg) v)

/-- ERR_ADDR_REARM (R46). -/
def execErrAddrRearm (a : Agent) (pg : Nat) (s : State) : Host.Outcome State Fault Refusal :=
  ran s (s.put a (Reg.ERR_ADDR pg) 0x80000000)

/-- ACC_INFO_REARM (R49). -/
def execAccInfoRearm (a : Agent) (s : State) : Host.Outcome State Fault Refusal :=
  ran s (s.put a Reg.chip_ACC_INFO 0x80000000)

/-- VEC_REARM (R54). -/
def execVecRearm (a : Agent) (v : Word) (s : State) : Host.Outcome State Fault Refusal :=
  ran s (s.put a Reg.chip_VEC_REARM v)

/-- SOFT_RST (R42). -/
def execSoftRst (a : Agent) (pg : Nat) (s : State) : Host.Outcome State Fault Refusal :=
  ran s (s.putF a (Reg.PAGE_CTL pg) 1 1 1)

/-- SOFT_RESET_DONE (R42). -/
def execSoftResetDone (pg : Nat) (s : State) : Host.Outcome State Fault Refusal :=
  ran s (s.onLive fun c => c.softResetDone pg)

/-- SCRUB_NOW (R47). -/
def execScrubNow (a : Agent) (pg : Nat) (s : State) : Host.Outcome State Fault Refusal :=
  ran s (s.putF a (Reg.SCRUB_CTL pg) 1 1 1)

/-- SCRUB_SLOT (R489). -/
def execScrubSlot (pg : Nat) (mem : Nat) (word : Nat) (last : Bool) (s : State) : Host.Outcome State Fault Refusal :=
  ran s (s.scrubSlot pg mem word last)

end Sys2Proof.Machine
end

