-- ==== Sys2Proof/Machine/CmdReset.lean ====
section
/-!
DEFINITION. Machine/CmdReset.lean: the meanings of the commands of resets, references and power states (R517 to R530), one definition per row of the table.
-/
namespace Sys2Proof.Machine

/-! ## One meaning per row -/

/-- AUX_POWER_ON (R519). -/
def execAuxPowerOn (s : State) : Host.Outcome State Fault Refusal :=
  ran s s.auxPowerOn

/-- POR_N (R519). -/
def execPorN (b : Boot) (s : State) : Host.Outcome State Fault Refusal :=
  ran s (s.porN b)

/-- SYS_RST_N (R519). -/
def execSysRstN (b : Boot) (s : State) : Host.Outcome State Fault Refusal :=
  ran s (s.sysRst b)

/-- SW_RST (R520). -/
def execSwRst (a : Agent) (slot : Fin 4) (b : Boot) (s : State) : Host.Outcome State Fault Refusal :=
  ran s (s.regWrite {} b [] a.num Reg.rstclk_RST_CTL 15 (wd (0x100 + slot.val)))

/-- PERST_N (R519). -/
def execPerstN (s : State) : Host.Outcome State Fault Refusal :=
  ran s s.perst

/-- REFCLK_LOSS (R521). -/
def execRefclkLoss (n : Fin 9) (s : State) : Host.Outcome State Fault Refusal :=
  ran s (s.onLive fun c => c.refclkLoss n.val)

/-- REFCLK_RETURN (R521). -/
def execRefclkReturn (n : Fin 9) (s : State) : Host.Outcome State Fault Refusal :=
  ran s (s.onLive fun c => c.refclkReturn n.val)

/-- USE_SPARE_WRITE (R521). -/
def execUseSpareWrite (a : Agent) (mask : Byte) (s : State) : Host.Outcome State Fault Refusal :=
  ran s (s.putF a Reg.rstclk_REFCLK_CTL 7 0 mask.toNat)

/-- QUIESCE (R526). -/
def execQuiesce (a : Agent) (s : State) : Host.Outcome State Fault Refusal :=
  ran s (s.put a Reg.rstclk_PWR_CMD (goWord 0 1))

/-- ACTIVE (R526). -/
def execActive (a : Agent) (s : State) : Host.Outcome State Fault Refusal :=
  ran s (s.put a Reg.rstclk_PWR_CMD (goWord 0 0))

/-- STANDBY (R526). -/
def execStandby (a : Agent) (s : State) : Host.Outcome State Fault Refusal :=
  ran s (s.put a Reg.rstclk_PWR_CMD (goWord 0 2))

/-- DRAIN_TMO (R526). -/
def execDrainTmo (s : State) : Host.Outcome State Fault Refusal :=
  ran s s.drainTmo

/-- POWER_REMOVAL (R518). -/
def execPowerRemoval (s : State) : Host.Outcome State Fault Refusal :=
  ran s s.powerRemoval

end Sys2Proof.Machine
end

