-- ==== Sys2Proof/Machine/CmdSched.lean ====
section
/-!
DEFINITION. Machine/CmdSched.lean: the meanings of the commands of scheduling, shaping, gates and queue samples (R279 to R305), one definition per row of the table.
-/
namespace Sys2Proof.Machine

/-! ## One meaning per row -/

/-- WHEEL_SERVICE (R290). -/
def execWheelService (r : Fin 16) (s : State) : Host.Outcome State Fault Refusal :=
  ran s (s.onCore fun c => c.wheelService s.clk r.val)

/-- WHEEL_REPLACE (R287). -/
def execWheelReplace (r : Fin 16) (s : State) : Host.Outcome State Fault Refusal :=
  ran s (s.onCore fun c => c.wheelReplace s.clk r.val)

/-- GATE_WRITE (R302). -/
def execGateWrite (a : Agent) (r : Fin 16) (s : State) : Host.Outcome State Fault Refusal :=
  ran s (s.put a (Reg.sched_GATE_CMD r.val) 1)

/-- GATE_READ (R302). -/
def execGateRead (a : Agent) (r : Fin 16) (s : State) : Host.Outcome State Fault Refusal :=
  ran s (s.put a (Reg.sched_GATE_CMD r.val) 2)

/-- GATE_SWITCH (R296). -/
def execGateSwitch (lp : Fin 1152) (s : State) : Host.Outcome State Fault Refusal :=
  ran s (s.onCore fun c => c.gateSwitch s.clk lp.val)

/-- GATE_CLOSE_PREEMPT (R295). -/
def execGateClosePreempt (lp : Fin 1152) (s : State) : Host.Outcome State Fault Refusal :=
  ran s (s.onCore fun c => c.gateClosePreempt lp.val)

/-- PREEMPT_RESUME (R295). -/
def execPreemptResume (lp : Fin 1152) (s : State) : Host.Outcome State Fault Refusal :=
  ran s (s.onCore fun c => c.preemptResume s.clk lp.val)

/-- PREEMPT_VERIFY_RESULT (R295). -/
def execPreemptVerifyResult (lp : Fin 1152) (ok : Bool) (s : State) : Host.Outcome State Fault Refusal :=
  ran s (s.onCore fun c => c.verifyResult lp.val ok)

/-- QUEUE_SAMPLE (R298). -/
def execQueueSample (r : Fin 16) (s : State) : Host.Outcome State Fault Refusal :=
  ran s (s.onCore fun c => c.queueSample s.clk r.val)

end Sys2Proof.Machine
end

