-- ==== Sys2Proof/Machine/CmdSluice.lean ====
section
/-!
DEFINITION. Machine/CmdSluice.lean: the meanings of the commands of the sluice engines (R147 to R170), one definition per row of the table.
-/
namespace Sys2Proof.Machine

/-! ## One meaning per row -/

/-- SLUICE_WORD (R148). -/
def execSluiceWord (r : Fin 16) (s : State) : Host.Outcome State Fault Refusal :=
  ran s (s.onCoreV fun cv => Machine.sluiceWord cv s.clk r.val)

/-- REG_RD (R150). -/
def execSluRegRd (r : Fin 16) (s : State) : Host.Outcome State Fault Refusal :=
  ran s (s.sluRegRd r.val)

/-- REG_WR (R150). -/
def execSluRegWr (r : Fin 16) (s : State) : Host.Outcome State Fault Refusal :=
  ran s (s.sluRegWr {} r.val)

/-- FLUME_RD (R150). -/
def execSluFlumeRd (r : Fin 16) (s : State) : Host.Outcome State Fault Refusal :=
  ran s (s.sluFlumeRd r.val)

/-- FLUME_WR (R150). -/
def execSluFlumeWr (r : Fin 16) (s : State) : Host.Outcome State Fault Refusal :=
  ran s (s.sluFlumeWr r.val)

/-- HOST_RD (R150). -/
def execSluHostRd (r : Fin 16) (data : List Byte) (s : State) : Host.Outcome State Fault Refusal :=
  ran s (s.sluHostRd r.val data)

/-- HOST_WR (R150). -/
def execSluHostWr (r : Fin 16) (s : State) : Host.Outcome State Fault Refusal :=
  ran s (s.sluHostWr r.val)

/-- TBL_CMD (R150). -/
def execSluTblCmd (r : Fin 16) (s : State) : Host.Outcome State Fault Refusal :=
  ran s (s.sluTblCmd r.val)

/-- VAULT_JOB (R150). -/
def execSluVaultJob (r : Fin 16) (s : State) : Host.Outcome State Fault Refusal :=
  ran s (s.sluVaultJob r.val)

/-- LOCK_TRY (R150). -/
def execSluLockTry (r : Fin 16) (s : State) : Host.Outcome State Fault Refusal :=
  ran s (s.sluLockTry r.val)

/-- LOCK_ACQ (R150). -/
def execSluLockAcq (r : Fin 16) (s : State) : Host.Outcome State Fault Refusal :=
  ran s (s.sluLockAcq r.val)

/-- MBX_POST (R150). -/
def execSluMbxPost (r : Fin 16) (s : State) : Host.Outcome State Fault Refusal :=
  ran s (s.sluMbxPost r.val)

/-- LEARN_POP (R150). -/
def execSluLearnPop (r : Fin 16) (s : State) : Host.Outcome State Fault Refusal :=
  ran s (s.sluLearnPop r.val)

/-- INJECT (R152). -/
def execSluInject (r : Fin 16) (s : State) : Host.Outcome State Fault Refusal :=
  ran s (s.sluInject r.val)

/-- REQUEST_COMPLETE (R150). -/
def execRequestComplete (r : Fin 16) (s : State) : Host.Outcome State Fault Refusal :=
  ran s (s.onCore fun c => c.requestComplete r.val)

/-- WAIT_TIMEOUT (R155). -/
def execWaitTimeout (r : Fin 16) (t : Fin 4) (s : State) : Host.Outcome State Fault Refusal :=
  ran s (s.onCore fun c => c.waitTimeout r.val t.val)

/-- TIMER_EXPIRY (R156). -/
def execTimerExpiry (r : Fin 16) (i : Fin 2) (s : State) : Host.Outcome State Fault Refusal :=
  ran s (s.onCore fun c => c.timerExpiry r.val i.val)

/-- TICK (R153). -/
def execTick (s : State) : Host.Outcome State Fault Refusal :=
  ran s (s.onCore fun c => c.sluTick)

/-- POLL_WATCHDOG (R160). -/
def execPollWatchdog (r : Fin 16) (t : Fin 4) (s : State) : Host.Outcome State Fault Refusal :=
  ran s (s.onCoreV fun cv => Machine.pollWatchdog cv s.clk r.val t.val)

/-- HEARTBEAT_WATCHDOG (R160). -/
def execHeartbeatWatchdog (r : Fin 16) (s : State) : Host.Outcome State Fault Refusal :=
  ran s (s.onCoreV fun cv => Machine.heartbeatWatchdog cv s.clk r.val)

/-- SLUICE_RESTART (R162). -/
def execSluiceRestart (r : Fin 16) (s : State) : Host.Outcome State Fault Refusal :=
  ran s (s.onCore fun c => c.sluRestart s.clk r.val)

/-- START (R163). -/
def execSluStart (a : Agent) (r : Fin 16) (s : State) : Host.Outcome State Fault Refusal :=
  ran s (s.putF a (Reg.sluice_SL_CTL r.val) 0 0 1)

/-- STOP (R163). -/
def execSluStop (a : Agent) (r : Fin 16) (s : State) : Host.Outcome State Fault Refusal :=
  ran s (s.putF a (Reg.sluice_SL_CTL r.val) 1 1 1)

/-- IMG_CMD_GO (R165). -/
def execImgCmdGo (a : Agent) (r : Fin 16) (flume : Bool) (s : State) : Host.Outcome State Fault Refusal :=
  ran s (s.put a (Reg.sluice_IMG_CMD r.val) (goWord 0 flume.toNat))

/-- IMG_LOAD_DONE (R165). -/
def execImgLoadDone (r : Fin 16) (host : Option (List Byte)) (s : State) : Host.Outcome State Fault Refusal :=
  ran s (s.whenCore fun s => s.imgLoadDone r.val host)

/-- SL_CS_WRITE (R167). -/
def execSluCsWrite (a : Agent) (r : Fin 16) (s : State) : Host.Outcome State Fault Refusal :=
  ran s (s.put a (Reg.sluice_CS_CMD r.val) 1)

/-- SL_CS_READ (R167). -/
def execSluCsRead (a : Agent) (r : Fin 16) (s : State) : Host.Outcome State Fault Refusal :=
  ran s (s.put a (Reg.sluice_CS_CMD r.val) 2)

/-- DS_DATA_ACCESS (R170). -/
def execDsDataAccess (a : Agent) (r : Fin 16) (w : Option Word) (s : State) : Host.Outcome State Fault Refusal :=
  ran s (
    match w with
        | some v => s.put a (Reg.sluice_DS_DATA r.val) v
        | none => s.get a (Reg.sluice_DS_DATA r.val))

/-- SLUICE_HALT_TIMEOUT (R163). -/
def execSluiceHaltTimeout (r : Fin 16) (t : Fin 4) (s : State) : Host.Outcome State Fault Refusal :=
  ran s (s.onCore fun c => c.haltTimeout r.val t.val)

end Sys2Proof.Machine
end

