-- ==== Sys2Proof/Machine/CmdSwitch.lean ====
section
/-!
DEFINITION. Machine/CmdSwitch.lean: the meanings of the commands of the switch core, queues and replication (R254 to R278), one definition per row of the table.
-/
namespace Sys2Proof.Machine

/-! ## One meaning per row -/

/-- WD_STORM (R271). -/
def execWdStorm (lp : Fin 1152) (k : Fin 3) (s : State) : Host.Outcome State Fault Refusal :=
  ran s (s.onCore fun c => c.wdStorm lp.val k.val)

/-- WD_RESTORE (R271). -/
def execWdRestore (lp : Fin 1152) (k : Fin 3) (s : State) : Host.Outcome State Fault Refusal :=
  ran s (s.onCore fun c => c.wdRestore lp.val k.val)

/-- WD_CLR (R271). -/
def execWdClr (a : Agent) (lp : Fin 1152) (k : Fin 3) (s : State) : Host.Outcome State Fault Refusal :=
  ran s (s.put a Reg.switch_WD_CLR (wd (k.val * 65536 + lp.val)))

/-- QCMD_READ (R275). -/
def execQcmdRead (a : Agent) (q : Fin 23056) (s : State) : Host.Outcome State Fault Refusal :=
  ran s (s.put a Reg.switch_QCMD (goWord 1 q.val))

/-- QCMD_WRITE (R275). -/
def execQcmdWrite (a : Agent) (q : Fin 23056) (s : State) : Host.Outcome State Fault Refusal :=
  ran s (s.put a Reg.switch_QCMD (goWord 2 q.val))

/-- QCMD_READ_CLEAR (R275). -/
def execQcmdReadClear (a : Agent) (q : Fin 23056) (s : State) : Host.Outcome State Fault Refusal :=
  ran s (s.put a Reg.switch_QCMD (goWord 3 q.val))

/-- WRITE_GROUP (R278). -/
def execMcWriteGroup (a : Agent) (i : BitVec 17) (s : State) : Host.Outcome State Fault Refusal :=
  ran s (s.put a Reg.mcast_MC_CMD (goWord 1 i.toNat))

/-- READ_GROUP (R278). -/
def execMcReadGroup (a : Agent) (i : BitVec 17) (s : State) : Host.Outcome State Fault Refusal :=
  ran s (s.put a Reg.mcast_MC_CMD (goWord 2 i.toNat))

/-- WRITE_MEMBER (R278). -/
def execMcWriteMember (a : Agent) (i : BitVec 17) (s : State) : Host.Outcome State Fault Refusal :=
  ran s (s.put a Reg.mcast_MC_CMD (goWord 3 i.toNat))

/-- READ_MEMBER (R278). -/
def execMcReadMember (a : Agent) (i : BitVec 17) (s : State) : Host.Outcome State Fault Refusal :=
  ran s (s.put a Reg.mcast_MC_CMD (goWord 4 i.toNat))

end Sys2Proof.Machine
end

