-- ==== Sys2Proof/Machine/CmdTel.lean ====
section
/-!
DEFINITION. Machine/CmdTel.lean: the meanings of the commands of telemetry and the ledger (R364 to R393), one definition per row of the table.
-/
namespace Sys2Proof.Machine

/-! ## One meaning per row -/

/-- SAMPLE_RING_WRITE (R371). -/
def execSampleRingWrite (s : State) : Host.Outcome State Fault Refusal :=
  ran s (s.onCore fun c => c.sampleRingWrite)

/-- HIST_CFG_WRITE (R372). -/
def execHistCfgWrite (a : Agent) (r : Fin 16) (h : Fin 16) (v : Word) (s : State) : Host.Outcome State Fault Refusal :=
  ran s (s.put a (Reg.trace_HIST_CFG r.val h.val) v)

/-- CAPTURE_RECORD_WRITE (R382). -/
def execCaptureRecordWrite (s : State) : Host.Outcome State Fault Refusal :=
  ran s (s.onCoreV fun cv => (cv.1.captureWrite cv.2 s.clk, cv.2))

/-- BLOCK_CLOSE_AGE (R382). -/
def execBlockCloseAge (s : State) : Host.Outcome State Fault Refusal :=
  ran s (s.onCoreV fun cv => (cv.1.ldgClose cv.2 s.clk, cv.2))

/-- TIME_TRACE_WRITE (R385). -/
def execTimeTraceWrite (s : State) : Host.Outcome State Fault Refusal :=
  ran s (s.whenCore fun s => s.timeTrace)

/-- STEP_RECORD_WRITE (R386). -/
def execStepRecordWrite (s : State) : Host.Outcome State Fault Refusal :=
  ran s (s.whenCore fun s => s.stepRecord)

/-- COLLECTOR_CFG (R375). -/
def execCollectorCfg (i : Byte) (egress : BitVec 16) (mtu : BitVec 16) (en : Bool) (v6 : Bool) (addrs : List Byte) (udp : BitVec 16) (dscp : BitVec 6) (s : State) : Host.Outcome State Fault Refusal :=
  ran s (s.onCore fun c => c.collectorCfg i.toNat egress.toNat mtu.toNat
    (beBytes 1 en.toNat ++ beBytes 1 v6.toNat ++ addrs ++ beBytes 2 udp.toNat ++ beBytes 1 dscp.toNat ++ beBytes 2 egress.toNat ++ beBytes 2 mtu.toNat))

/-- TEMPLATE_CFG (R375). -/
def execTemplateCfg (id : BitVec 16) (elems : List (BitVec 16)) (flow : Bool) (idle : Word) (active : Word) (refresh : Word) (s : State) : Host.Outcome State Fault Refusal :=
  ran s (s.onCore fun c => c.templateCfg id.toNat (elems.map BitVec.toNat) flow idle.toNat active.toNat refresh.toNat)

/-- SAMPLER_BIND (R375). -/
def execSamplerBind (n : Byte) (id : BitVec 16) (mask : Byte) (domain : Word) (s : State) : Host.Outcome State Fault Refusal :=
  ran s (s.onCore fun c => c.samplerBind n.toNat id.toNat mask.toNat domain.toNat)

/-- STATS (R375). -/
def execSamplerStats (n : Byte) (s : State) : Host.Outcome State Fault Refusal :=
  ran s (s.onCore fun c => c.samplerStats n.toNat)

/-- LEDGER_CFG (R387). -/
def execLedgerCfg (stop : Bool) (age : BitVec 16) (reserve : Byte) (s : State) : Host.Outcome State Fault Refusal :=
  ran s (s.onCore fun c => c.ledgerCfg stop age.toNat reserve.toNat)

/-- KEY_LOAD (R384). -/
def execKeyLoad (blob : List Byte) (s : State) : Host.Outcome State Fault Refusal :=
  ran s (s.onCoreV fun cv => Machine.keyLoad cv s.clk blob)

/-- LEDGER_START (R384). -/
def execLedgerStart (s : State) : Host.Outcome State Fault Refusal :=
  ran s (s.onCoreV fun cv => (cv.1.ledgerStart cv.2 s.clk, cv.2))

/-- LEDGER_STOP (R387). -/
def execLedgerStop (s : State) : Host.Outcome State Fault Refusal :=
  ran s (s.onCoreV fun cv => (cv.1.ledgerStop cv.2 s.clk, cv.2))

/-- EXTRACT (R388). -/
def execExtract (first : BitVec 64) (count : Word) (addr : BitVec 64) (len : BitVec 64) (s : State) : Host.Outcome State Fault Refusal :=
  ran s (s.onCoreV fun cv => Machine.extract cv s.clk first.toNat count.toNat addr.toNat len.toNat)

/-- RELEASE (R387). -/
def execLedgerRelease (seq : BitVec 64) (s : State) : Host.Outcome State Fault Refusal :=
  ran s (s.onCore fun c => c.ledgerRelease seq.toNat)

/-- NOTE (R387). -/
def execLedgerNote (bytes : List Byte) (s : State) : Host.Outcome State Fault Refusal :=
  ran s (s.onCoreV fun cv => (cv.1.ledgerNote cv.2 s.clk bytes, cv.2))

end Sys2Proof.Machine
end

