-- ==== Sys2Proof/Machine/CmdTime.lean ====
section
/-!
DEFINITION. Machine/CmdTime.lean: the meanings of the commands of the timebase and servo (R326 to R353), one definition per row of the table.
-/
namespace Sys2Proof.Machine

/-! ## One meaning per row -/

/-- TOD_VOTE_RELOAD (R332). -/
def execTodVoteReload (two : Bool) (s : State) : Host.Outcome State Fault Refusal :=
  ran s (s.whenLive fun s => s.todVote two)

/-- SYNC_WORD (R333). -/
def execSyncWord (bad : List (Fin 8)) (s : State) : Host.Outcome State Fault Refusal :=
  ran s (s.whenLive fun s => s.syncWord (bad.map Fin.val))

/-- REF_SEL_WRITE (R329). -/
def execRefSelWrite (a : Agent) (v : Word) (s : State) : Host.Outcome State Fault Refusal :=
  ran s (s.put a Reg.time_TIME_CLK_CTL v)

/-- REF_LOSS (R330). -/
def execRefLoss (s : State) : Host.Outcome State Fault Refusal :=
  ran s (s.onLive fun c => c.refLoss)

/-- TIME_REF_RETURN (R330). -/
def execTimeRefReturn (s : State) : Host.Outcome State Fault Refusal :=
  ran s (s.onLive fun c => c.refReturn)

/-- TXTS_READ (R339). -/
def execTxtsRead (a : Agent) (lp : Fin 1152) (s : State) : Host.Outcome State Fault Refusal :=
  ran s (s.get a (lpReg Reg.port_TXTS_NS lp.val))

/-- SAMPLE_SUBMIT (R340). -/
def execSampleSubmit (a : Agent) (v : Word) (s : State) : Host.Outcome State Fault Refusal :=
  ran s (s.put a Reg.time_SAMPLE_HI v)

/-- SAMPLE_TMO (R342). -/
def execSampleTmo (s : State) : Host.Outcome State Fault Refusal :=
  ran s (s.whenLive fun s => s.enterGlide)

/-- GLIDE (R342). -/
def execGlide (a : Agent) (s : State) : Host.Outcome State Fault Refusal :=
  ran s (s.putF a Reg.time_SERVO_CTL 0 0 1)

/-- SERVO_EN_SET (R342). -/
def execServoEnSet (a : Agent) (s : State) : Host.Outcome State Fault Refusal :=
  ran s (s.putF a Reg.time_SERVO_CTL 31 31 1)

/-- SERVO_EN_CLEAR (R342). -/
def execServoEnClear (a : Agent) (s : State) : Host.Outcome State Fault Refusal :=
  ran s (s.putF a Reg.time_SERVO_CTL 31 31 0)

/-- ADD (R344). -/
def execStepAdd (a : Agent) (neg : Bool) (s : State) : Host.Outcome State Fault Refusal :=
  ran s (s.put a Reg.time_STEP_CMD (goWord 0 (neg.toNat * 256 + 1)))

/-- SET (R344). -/
def execStepSet (a : Agent) (neg : Bool) (s : State) : Host.Outcome State Fault Refusal :=
  ran s (s.put a Reg.time_STEP_CMD (goWord 0 (neg.toNat * 256 + 2)))

/-- STEP_APPLY (R345). -/
def execStepApply (s : State) : Host.Outcome State Fault Refusal :=
  ran s (s.whenLive fun s => s.stepApply)

/-- PPS_IN_EDGE (R347). -/
def execPpsInEdge (sub : Fin 328) (s : State) : Host.Outcome State Fault Refusal :=
  ran s (s.whenLive fun s => s.ppsIn sub.val)

/-- PPS_IN_READ (R347). -/
def execPpsInRead (a : Agent) (s : State) : Host.Outcome State Fault Refusal :=
  ran s (s.get a Reg.time_PPS_IN_NS)

/-- PPS_OUT_EDGE (R348). -/
def execPpsOutEdge (s : State) : Host.Outcome State Fault Refusal :=
  ran s (s.whenLive fun s => s.ppsOutEdge)

/-- PPS_OUT_FALL (R348). -/
def execPpsOutFall (s : State) : Host.Outcome State Fault Refusal :=
  ran s (s.whenLive fun s => s.ppsOutFall)

/-- CLOCK_CFG (R350). -/
def execClockCfg (typ : Fin 4) (domain : Byte) (prio1 : Byte) (prio2 : Byte) (cls : Byte) (acc : Byte) (var : BitVec 16) (s : State) : Host.Outcome State Fault Refusal :=
  ran s (s.whenCore fun s => s.clockCfg [typ.val, domain.toNat, prio1.toNat, prio2.toNat, cls.toNat, acc.toNat, var.toNat])

/-- PORT_CFG (R350). -/
def execPortCfg (lp : Fin 1152) (en : Bool) (peer : Bool) (oneStep : Bool) (rates : List Int) (asym : Int) (forced : Byte) (s : State) : Host.Outcome State Fault Refusal :=
  ran s (s.whenCore fun s => s.portCfg lp.val en peer oneStep
    ((rates ++ [asym, (forced.toNat : Int)]) ++ [(en.toNat : Int), (peer.toNat : Int), (oneStep.toNat : Int)]))

/-- PTP_GET_STATUS (R350). -/
def execPtpGetStatus (lp : Option (Fin 1152)) (s : State) : Host.Outcome State Fault Refusal :=
  ran s (s.whenCore fun s => s.ptpStatus (lp.map Fin.val))

/-- SVC_STEP (R350). -/
def execSvcStep (kind : Fin 4) (neg : Bool) (sec : BitVec 64) (ns : BitVec 30) (frac : BitVec 16) (s : State) : Host.Outcome State Fault Refusal :=
  ran s (s.whenCore fun s => s.svcStep kind.val sec.toNat ns.toNat frac.toNat neg)

end Sys2Proof.Machine
end

