-- ==== Sys2Proof/Machine/CmdWeir.lean ====
section
/-!
DEFINITION. Machine/CmdWeir.lean: the meanings of the commands of weir control stores, meters, counters and the indirection table (R108, R139, R140, R146), one definition per row of the table.
-/
namespace Sys2Proof.Machine

/-! ## One meaning per row -/

/-- CS_WRITE (R139). -/
def execCsWrite (a : Agent) (r : Fin 16) (s : State) : Host.Outcome State Fault Refusal :=
  ran s (s.put a (Reg.weir_CS_CMD r.val) 1)

/-- CS_READ (R139). -/
def execCsRead (a : Agent) (r : Fin 16) (s : State) : Host.Outcome State Fault Refusal :=
  ran s (s.put a (Reg.weir_CS_CMD r.val) 2)

/-- REPAIR (R140). -/
def execCsRepair (a : Agent) (r : Fin 16) (s : State) : Host.Outcome State Fault Refusal :=
  ran s (s.put a (Reg.weir_CS_CMD r.val) 4)

/-- MTR_WRITE (R146). -/
def execMtrWrite (a : Agent) (r : Fin 16) (i : BitVec 15) (s : State) : Host.Outcome State Fault Refusal :=
  ran s (s.put a (Reg.weir_MTR_CMD r.val) (goWord 1 i.toNat))

/-- MTR_READ (R146). -/
def execMtrRead (a : Agent) (r : Fin 16) (i : BitVec 15) (s : State) : Host.Outcome State Fault Refusal :=
  ran s (s.put a (Reg.weir_MTR_CMD r.val) (goWord 2 i.toNat))

/-- CNT_READ (R146). -/
def execCntRead (a : Agent) (r : Fin 16) (i : BitVec 16) (s : State) : Host.Outcome State Fault Refusal :=
  ran s (s.put a (Reg.weir_CNT_CMD r.val) (goWord 1 i.toNat))

/-- CNT_READ_CLEAR (R146). -/
def execCntReadClear (a : Agent) (r : Fin 16) (i : BitVec 16) (s : State) : Host.Outcome State Fault Refusal :=
  ran s (s.put a (Reg.weir_CNT_CMD r.val) (goWord 2 i.toNat))

/-- CNT_CLEAR (R146). -/
def execCntClear (a : Agent) (r : Fin 16) (i : BitVec 16) (s : State) : Host.Outcome State Fault Refusal :=
  ran s (s.put a (Reg.weir_CNT_CMD r.val) (goWord 3 i.toNat))

/-- IND_WRITE_ENTRY (R108). -/
def execIndWriteEntry (a : Agent) (g : BitVec 12) (i : BitVec 9) (s : State) : Host.Outcome State Fault Refusal :=
  ran s (s.put a Reg.lb_IND_CMD (goWord 1 (g.toNat * 4096 + i.toNat)))

/-- IND_READ_ENTRY (R108). -/
def execIndReadEntry (a : Agent) (g : BitVec 12) (i : BitVec 9) (s : State) : Host.Outcome State Fault Refusal :=
  ran s (s.put a Reg.lb_IND_CMD (goWord 2 (g.toNat * 4096 + i.toNat)))

/-- IND_WRITE_GROUP (R108). -/
def execIndWriteGroup (a : Agent) (g : BitVec 12) (s : State) : Host.Outcome State Fault Refusal :=
  ran s (s.put a Reg.lb_IND_CMD (goWord 3 (g.toNat * 4096)))

/-- IND_READ_GROUP (R108). -/
def execIndReadGroup (a : Agent) (g : BitVec 12) (s : State) : Host.Outcome State Fault Refusal :=
  ran s (s.put a Reg.lb_IND_CMD (goWord 4 (g.toNat * 4096)))

end Sys2Proof.Machine
end

