-- ==== Sys2Proof/Machine/Dispatch.lean ====
section
/-!
DEFINITION. Machine/Dispatch.lean: one arm per constructor of `Instr`; each is one call of its meaning.
-/
namespace Sys2Proof.Machine

def exec (i : Instr) (s : State) : Host.Outcome State Fault Refusal :=
  match i with
  | .regWrite a off be v => Sys2Proof.Machine.execRegWrite a off be v s
  | .rcRead a off => Sys2Proof.Machine.execRcRead a off s
  | .counterLoRead a off => Sys2Proof.Machine.execCounterLoRead a off s
  | .intCauseClear a pg v => Sys2Proof.Machine.execIntCauseClear a pg v s
  | .intForce a pg v => Sys2Proof.Machine.execIntForce a pg v s
  | .errAddrRearm a pg => Sys2Proof.Machine.execErrAddrRearm a pg s
  | .accInfoRearm a => Sys2Proof.Machine.execAccInfoRearm a s
  | .vecRearm a v => Sys2Proof.Machine.execVecRearm a v s
  | .softRst a pg => Sys2Proof.Machine.execSoftRst a pg s
  | .softResetDone pg => Sys2Proof.Machine.execSoftResetDone pg s
  | .scrubNow a pg => Sys2Proof.Machine.execScrubNow a pg s
  | .scrubSlot pg mem word last => Sys2Proof.Machine.execScrubSlot pg mem word last s
  | .portModeWrite a p v => Sys2Proof.Machine.execPortModeWrite a p v s
  | .txEqWrite a l v => Sys2Proof.Machine.execTxEqWrite a l v s
  | .brdDlyWrite a l tx v => Sys2Proof.Machine.execBrdDlyWrite a l tx v s
  | .adaptRestart a l => Sys2Proof.Machine.execAdaptRestart a l s
  | .adaptDone l ctle taps => Sys2Proof.Machine.execAdaptDone l ctle taps s
  | .contAdaptTick l moves vert horiz => Sys2Proof.Machine.execContAdaptTick l moves vert horiz s
  | .fecCodeword lp errs => Sys2Proof.Machine.execFecCodeword lp errs s
  | .fecDegradeWindow lp => Sys2Proof.Machine.execFecDegradeWindow lp s
  | .hiSer lp => Sys2Proof.Machine.execHiSer lp s
  | .hostReqWrite a lp req => Sys2Proof.Machine.execHostReqWrite a lp req s
  | .pmReqWrite a lp quiet => Sys2Proof.Machine.execPmReqWrite a lp quiet s
  | .quietIdleExpiry lp => Sys2Proof.Machine.execQuietIdleExpiry lp s
  | .laneTransitionDone lp => Sys2Proof.Machine.execLaneTransitionDone lp s
  | .pllStopDone k => Sys2Proof.Machine.execPllStopDone k s
  | .pllUnlock k high => Sys2Proof.Machine.execPllUnlock k high s
  | .pllLocked k high => Sys2Proof.Machine.execPllLocked k high s
  | .rawEnSet a l => Sys2Proof.Machine.execRawEnSet a l s
  | .rawEnClear a lp => Sys2Proof.Machine.execRawEnClear a lp s
  | .slip a l => Sys2Proof.Machine.execSlip a l s
  | .slipDone l => Sys2Proof.Machine.execSlipDone l s
  | .prbsWordCheck l errs => Sys2Proof.Machine.execPrbsWordCheck l errs s
  | .prbsLock l => Sys2Proof.Machine.execPrbsLock l s
  | .prbsLockLost l => Sys2Proof.Machine.execPrbsLockLost l s
  | .adminUpSet a lp => Sys2Proof.Machine.execAdminUpSet a lp s
  | .adminUpClear a lp => Sys2Proof.Machine.execAdminUpClear a lp s
  | .anComplete lp => Sys2Proof.Machine.execAnComplete lp s
  | .anFail lp => Sys2Proof.Machine.execAnFail lp s
  | .trainDone lp => Sys2Proof.Machine.execTrainDone lp s
  | .trainTmo lp => Sys2Proof.Machine.execTrainTmo lp s
  | .adaptTimeout lp => Sys2Proof.Machine.execAdaptTimeout lp s
  | .alignLock lp => Sys2Proof.Machine.execAlignLock lp s
  | .alignTimeout lp => Sys2Proof.Machine.execAlignTimeout lp s
  | .calDone lp rx tx => Sys2Proof.Machine.execCalDone lp rx tx s
  | .lossCondition lp j kind => Sys2Proof.Machine.execLossCondition lp j kind s
  | .linkDownHoldExpiry lp => Sys2Proof.Machine.execLinkDownHoldExpiry lp s
  | .remoteFault lp => Sys2Proof.Machine.execRemoteFault lp s
  | .remoteFaultClear lp => Sys2Proof.Machine.execRemoteFaultClear lp s
  | .flushDone lp => Sys2Proof.Machine.execFlushDone lp s
  | .frameReceive lp bytes => Sys2Proof.Machine.execFrameReceive lp bytes s
  | .parseWalk src => Sys2Proof.Machine.execParseWalk src s
  | .frameEnd lp => Sys2Proof.Machine.execFrameEnd lp s
  | .lengthMismatch src => Sys2Proof.Machine.execLengthMismatch src s
  | .beatBoundary => Sys2Proof.Machine.execBeatBoundary s
  | .recircReady r => Sys2Proof.Machine.execRecircReady r s
  | .csWrite a r => Sys2Proof.Machine.execCsWrite a r s
  | .csRead a r => Sys2Proof.Machine.execCsRead a r s
  | .csRepair a r => Sys2Proof.Machine.execCsRepair a r s
  | .mtrWrite a r ix => Sys2Proof.Machine.execMtrWrite a r ix s
  | .mtrRead a r ix => Sys2Proof.Machine.execMtrRead a r ix s
  | .cntRead a r ix => Sys2Proof.Machine.execCntRead a r ix s
  | .cntReadClear a r ix => Sys2Proof.Machine.execCntReadClear a r ix s
  | .cntClear a r ix => Sys2Proof.Machine.execCntClear a r ix s
  | .indWriteEntry a g ix => Sys2Proof.Machine.execIndWriteEntry a g ix s
  | .indReadEntry a g ix => Sys2Proof.Machine.execIndReadEntry a g ix s
  | .indWriteGroup a g => Sys2Proof.Machine.execIndWriteGroup a g s
  | .indReadGroup a g => Sys2Proof.Machine.execIndReadGroup a g s
  | .sluiceWord r => Sys2Proof.Machine.execSluiceWord r s
  | .sluRegRd r => Sys2Proof.Machine.execSluRegRd r s
  | .sluRegWr r => Sys2Proof.Machine.execSluRegWr r s
  | .sluFlumeRd r => Sys2Proof.Machine.execSluFlumeRd r s
  | .sluFlumeWr r => Sys2Proof.Machine.execSluFlumeWr r s
  | .sluHostRd r data => Sys2Proof.Machine.execSluHostRd r data s
  | .sluHostWr r => Sys2Proof.Machine.execSluHostWr r s
  | .sluTblCmd r => Sys2Proof.Machine.execSluTblCmd r s
  | .sluVaultJob r => Sys2Proof.Machine.execSluVaultJob r s
  | .sluLockTry r => Sys2Proof.Machine.execSluLockTry r s
  | .sluLockAcq r => Sys2Proof.Machine.execSluLockAcq r s
  | .sluMbxPost r => Sys2Proof.Machine.execSluMbxPost r s
  | .sluLearnPop r => Sys2Proof.Machine.execSluLearnPop r s
  | .sluInject r => Sys2Proof.Machine.execSluInject r s
  | .requestComplete r => Sys2Proof.Machine.execRequestComplete r s
  | .waitTimeout r t => Sys2Proof.Machine.execWaitTimeout r t s
  | .timerExpiry r ix => Sys2Proof.Machine.execTimerExpiry r ix s
  | .tick => Sys2Proof.Machine.execTick s
  | .pollWatchdog r t => Sys2Proof.Machine.execPollWatchdog r t s
  | .heartbeatWatchdog r => Sys2Proof.Machine.execHeartbeatWatchdog r s
  | .sluiceRestart r => Sys2Proof.Machine.execSluiceRestart r s
  | .sluStart a r => Sys2Proof.Machine.execSluStart a r s
  | .sluStop a r => Sys2Proof.Machine.execSluStop a r s
  | .imgCmdGo a r flume => Sys2Proof.Machine.execImgCmdGo a r flume s
  | .imgLoadDone r host => Sys2Proof.Machine.execImgLoadDone r host s
  | .sluCsWrite a r => Sys2Proof.Machine.execSluCsWrite a r s
  | .sluCsRead a r => Sys2Proof.Machine.execSluCsRead a r s
  | .dsDataAccess a r w => Sys2Proof.Machine.execDsDataAccess a r w s
  | .emInsert src => Sys2Proof.Machine.execEmInsert src s
  | .emInsertRelocate ix => Sys2Proof.Machine.execEmInsertRelocate ix s
  | .emDelete src => Sys2Proof.Machine.execEmDelete src s
  | .emRead src => Sys2Proof.Machine.execEmRead src s
  | .emUpdate src => Sys2Proof.Machine.execEmUpdate src s
  | .emSwap src => Sys2Proof.Machine.execEmSwap src s
  | .emSearch src => Sys2Proof.Machine.execEmSearch src s
  | .emAge src => Sys2Proof.Machine.execEmAge src s
  | .emLockBucket src => Sys2Proof.Machine.execEmLockBucket src s
  | .emWriteSlot src => Sys2Proof.Machine.execEmWriteSlot src s
  | .emUnlock src => Sys2Proof.Machine.execEmUnlock src s
  | .emRelocate src => Sys2Proof.Machine.execEmRelocate src s
  | .bucketLockTimeout ix b => Sys2Proof.Machine.execBucketLockTimeout ix b s
  | .emGeomWrite a ix v => Sys2Proof.Machine.execEmGeomWrite a ix v s
  | .emClearDone ix => Sys2Proof.Machine.execEmClearDone ix s
  | .learnHandle => Sys2Proof.Machine.execLearnHandle s
  | .ageWalk ix => Sys2Proof.Machine.execAgeWalk ix s
  | .pinHoldExpiry ix key => Sys2Proof.Machine.execPinHoldExpiry ix key s
  | .setPolicy ix period limit hold => Sys2Proof.Machine.execSetPolicy ix period limit hold s
  | .getPolicy ix => Sys2Proof.Machine.execGetPolicy ix s
  | .unpin ix key => Sys2Proof.Machine.execUnpin ix key s
  | .emFlush ix lp => Sys2Proof.Machine.execEmFlush ix lp s
  | .pfxInsert v6 src => Sys2Proof.Machine.execPfxInsert v6 src s
  | .pfxDelete v6 src => Sys2Proof.Machine.execPfxDelete v6 src s
  | .pfxRead v6 src => Sys2Proof.Machine.execPfxRead v6 src s
  | .pfxUpdate v6 src => Sys2Proof.Machine.execPfxUpdate v6 src s
  | .pfxSwap v6 src => Sys2Proof.Machine.execPfxSwap v6 src s
  | .pfxSearch v6 src => Sys2Proof.Machine.execPfxSearch v6 src s
  | .pfxPin v6 src => Sys2Proof.Machine.execPfxPin v6 src s
  | .pfxUnpin v6 src => Sys2Proof.Machine.execPfxUnpin v6 src s
  | .pfxLookupCmd v6 src => Sys2Proof.Machine.execPfxLookupCmd v6 src s
  | .camRead src => Sys2Proof.Machine.execCamRead src s
  | .camWriteSlot src => Sys2Proof.Machine.execCamWriteSlot src s
  | .camLookupCmd src => Sys2Proof.Machine.execCamLookupCmd src s
  | .pfxS3Done v6 => Sys2Proof.Machine.execPfxS3Done v6 s
  | .pfxOverflowReturn v6 vrf addr len => Sys2Proof.Machine.execPfxOverflowReturn v6 vrf addr len s
  | .pfxFamilyEnable a v6 => Sys2Proof.Machine.execPfxFamilyEnable a v6 s
  | .pfxClearDone v6 => Sys2Proof.Machine.execPfxClearDone v6 s
  | .pfxRebuildDone => Sys2Proof.Machine.execPfxRebuildDone s
  | .camBlkWrite a b v => Sys2Proof.Machine.execCamBlkWrite a b v s
  | .carveWrite a v => Sys2Proof.Machine.execCarveWrite a v s
  | .bmEnable a => Sys2Proof.Machine.execBmEnable a s
  | .bmBuildDone => Sys2Proof.Machine.execBmBuildDone s
  | .bufferAlloc src => Sys2Proof.Machine.execBufferAlloc src s
  | .chainBufferRequest src => Sys2Proof.Machine.execChainBufferRequest src s
  | .poolEmptyGrant p => Sys2Proof.Machine.execPoolEmptyGrant p s
  | .noBufferTimeout src => Sys2Proof.Machine.execNoBufferTimeout src s
  | .bitmapRebuildDone p n => Sys2Proof.Machine.execBitmapRebuildDone p n s
  | .bufRead a p n => Sys2Proof.Machine.execBufRead a p n s
  | .bufFree a p n => Sys2Proof.Machine.execBufFree a p n s
  | .xoffChange lp k => Sys2Proof.Machine.execXoffChange lp k s
  | .pfcRefresh lp => Sys2Proof.Machine.execPfcRefresh lp s
  | .pfcReceive lp bytes => Sys2Proof.Machine.execPfcReceive lp bytes s
  | .pauseExpiry lp cls => Sys2Proof.Machine.execPauseExpiry lp cls s
  | .macctlOtherReceive lp bytes => Sys2Proof.Machine.execMacctlOtherReceive lp bytes s
  | .fcCtlWrite a lp v => Sys2Proof.Machine.execFcCtlWrite a lp v s
  | .copyLink => Sys2Proof.Machine.execCopyLink s
  | .transmitStart lp => Sys2Proof.Machine.execTransmitStart lp s
  | .copyTransmitEnd lp => Sys2Proof.Machine.execCopyTransmitEnd lp s
  | .wdStorm lp k => Sys2Proof.Machine.execWdStorm lp k s
  | .wdRestore lp k => Sys2Proof.Machine.execWdRestore lp k s
  | .wdClr a lp k => Sys2Proof.Machine.execWdClr a lp k s
  | .qcmdRead a q => Sys2Proof.Machine.execQcmdRead a q s
  | .qcmdWrite a q => Sys2Proof.Machine.execQcmdWrite a q s
  | .qcmdReadClear a q => Sys2Proof.Machine.execQcmdReadClear a q s
  | .mcWriteGroup a ix => Sys2Proof.Machine.execMcWriteGroup a ix s
  | .mcReadGroup a ix => Sys2Proof.Machine.execMcReadGroup a ix s
  | .mcWriteMember a ix => Sys2Proof.Machine.execMcWriteMember a ix s
  | .mcReadMember a ix => Sys2Proof.Machine.execMcReadMember a ix s
  | .wheelService r => Sys2Proof.Machine.execWheelService r s
  | .wheelReplace r => Sys2Proof.Machine.execWheelReplace r s
  | .gateWrite a r => Sys2Proof.Machine.execGateWrite a r s
  | .gateRead a r => Sys2Proof.Machine.execGateRead a r s
  | .gateSwitch lp => Sys2Proof.Machine.execGateSwitch lp s
  | .gateClosePreempt lp => Sys2Proof.Machine.execGateClosePreempt lp s
  | .preemptVerifyResult lp ok => Sys2Proof.Machine.execPreemptVerifyResult lp ok s
  | .queueSample r => Sys2Proof.Machine.execQueueSample r s
  | .flPartWrite a v => Sys2Proof.Machine.execFlPartWrite a v s
  | .spillWrite q => Sys2Proof.Machine.execSpillWrite q s
  | .spillReturn q => Sys2Proof.Machine.execSpillReturn q s
  | .spillReturnDone q => Sys2Proof.Machine.execSpillReturnDone q s
  | .patrolRead => Sys2Proof.Machine.execPatrolRead s
  | .flumeLinkFail d => Sys2Proof.Machine.execFlumeLinkFail d s
  | .flumeDrainDone => Sys2Proof.Machine.execFlumeDrainDone s
  | .flumeDrainTimeout => Sys2Proof.Machine.execFlumeDrainTimeout s
  | .todVoteReload two => Sys2Proof.Machine.execTodVoteReload two s
  | .syncWord bad => Sys2Proof.Machine.execSyncWord bad s
  | .refSelWrite a v => Sys2Proof.Machine.execRefSelWrite a v s
  | .refLoss => Sys2Proof.Machine.execRefLoss s
  | .txtsRead a lp => Sys2Proof.Machine.execTxtsRead a lp s
  | .sampleSubmit a v => Sys2Proof.Machine.execSampleSubmit a v s
  | .sampleTmo => Sys2Proof.Machine.execSampleTmo s
  | .glide a => Sys2Proof.Machine.execGlide a s
  | .servoEnSet a => Sys2Proof.Machine.execServoEnSet a s
  | .servoEnClear a => Sys2Proof.Machine.execServoEnClear a s
  | .stepAdd a neg => Sys2Proof.Machine.execStepAdd a neg s
  | .stepSet a neg => Sys2Proof.Machine.execStepSet a neg s
  | .stepApply => Sys2Proof.Machine.execStepApply s
  | .ppsInEdge sub => Sys2Proof.Machine.execPpsInEdge sub s
  | .ppsInRead a => Sys2Proof.Machine.execPpsInRead a s
  | .ppsOutEdge => Sys2Proof.Machine.execPpsOutEdge s
  | .ppsOutFall => Sys2Proof.Machine.execPpsOutFall s
  | .clockCfg typ domain prio1 prio2 cls acc var => Sys2Proof.Machine.execClockCfg typ domain prio1 prio2 cls acc var s
  | .portCfg lp en peer oneStep rates asym forced => Sys2Proof.Machine.execPortCfg lp en peer oneStep rates asym forced s
  | .ptpGetStatus lp => Sys2Proof.Machine.execPtpGetStatus lp s
  | .svcStep kind neg sec ns frac => Sys2Proof.Machine.execSvcStep kind neg sec ns frac s
  | .levelHoldRelease lp => Sys2Proof.Machine.execLevelHoldRelease lp s
  | .sampleRingWrite => Sys2Proof.Machine.execSampleRingWrite s
  | .histCfgWrite a r h v => Sys2Proof.Machine.execHistCfgWrite a r h v s
  | .captureRecordWrite => Sys2Proof.Machine.execCaptureRecordWrite s
  | .blockCloseAge => Sys2Proof.Machine.execBlockCloseAge s
  | .timeTraceWrite => Sys2Proof.Machine.execTimeTraceWrite s
  | .stepRecordWrite => Sys2Proof.Machine.execStepRecordWrite s
  | .collectorCfg ix egress mtu en v6 addrs udp dscp => Sys2Proof.Machine.execCollectorCfg ix egress mtu en v6 addrs udp dscp s
  | .templateCfg id elems flow idle active refresh => Sys2Proof.Machine.execTemplateCfg id elems flow idle active refresh s
  | .samplerBind n id mask domain => Sys2Proof.Machine.execSamplerBind n id mask domain s
  | .samplerStats n => Sys2Proof.Machine.execSamplerStats n s
  | .ledgerCfg stop age reserve => Sys2Proof.Machine.execLedgerCfg stop age reserve s
  | .keyLoad blob => Sys2Proof.Machine.execKeyLoad blob s
  | .ledgerStart => Sys2Proof.Machine.execLedgerStart s
  | .ledgerStop => Sys2Proof.Machine.execLedgerStop s
  | .extract first count addr len => Sys2Proof.Machine.execExtract first count addr len s
  | .ledgerRelease seq => Sys2Proof.Machine.execLedgerRelease seq s
  | .ledgerNote bytes => Sys2Proof.Machine.execLedgerNote bytes s
  | .postCmd a m => Sys2Proof.Machine.execPostCmd a m s
  | .mbxTake a m => Sys2Proof.Machine.execMbxTake a m s
  | .mbxAck a m st => Sys2Proof.Machine.execMbxAck a m st s
  | .ackTimeout m => Sys2Proof.Machine.execAckTimeout m s
  | .lockRead a ix => Sys2Proof.Machine.execLockRead a ix s
  | .lockRelease a ix v => Sys2Proof.Machine.execLockRelease a ix v s
  | .lockBreak a ix => Sys2Proof.Machine.execLockBreak a ix s
  | .saInstall a p rx k sc an keysrc => Sys2Proof.Machine.execSaInstall a p rx k sc an keysrc s
  | .saRead a p rx k sc an => Sys2Proof.Machine.execSaRead a p rx k sc an s
  | .saRetire a p rx k sc an => Sys2Proof.Machine.execSaRetire a p rx k sc an s
  | .txAnWrite a lp an => Sys2Proof.Machine.execTxAnWrite a lp an s
  | .upOwnerWrite a u v => Sys2Proof.Machine.execUpOwnerWrite a u v s
  | .jobSubmit a u => Sys2Proof.Machine.execJobSubmit a u s
  | .gcmEnc inp agree => Sys2Proof.Machine.execGcmEnc inp agree s
  | .gcmDec inp agree => Sys2Proof.Machine.execGcmDec inp agree s
  | .gmac inp agree => Sys2Proof.Machine.execGmac inp agree s
  | .sha384 inp agree => Sys2Proof.Machine.execSha384 inp agree s
  | .hmac384 inp agree => Sys2Proof.Machine.execHmac384 inp agree s
  | .ecdsaSign inp agree => Sys2Proof.Machine.execEcdsaSign inp agree s
  | .ecdsaVerify inp agree => Sys2Proof.Machine.execEcdsaVerify inp agree s
  | .unwrap inp agree => Sys2Proof.Machine.execUnwrap inp agree s
  | .wrap agree => Sys2Proof.Machine.execWrap agree s
  | .keygen agree => Sys2Proof.Machine.execKeygen agree s
  | .zero agree => Sys2Proof.Machine.execZero agree s
  | .random agree => Sys2Proof.Machine.execRandom agree s
  | .advance agree => Sys2Proof.Machine.execAdvance agree s
  | .healthTestFail => Sys2Proof.Machine.execHealthTestFail s
  | .zeroizeAll a readBackOk => Sys2Proof.Machine.execZeroizeAll a readBackOk s
  | .katDone fail => Sys2Proof.Machine.execKatDone fail s
  | .kekIssue a u exportable => Sys2Proof.Machine.execKekIssue a u exportable s
  | .epochOpen a e => Sys2Proof.Machine.execEpochOpen a e s
  | .epochAbort a e => Sys2Proof.Machine.execEpochAbort a e s
  | .epochCommit a e => Sys2Proof.Machine.execEpochCommit a e s
  | .epochRollback a e => Sys2Proof.Machine.execEpochRollback a e s
  | .epochCopyDone => Sys2Proof.Machine.execEpochCopyDone s
  | .commitBeat => Sys2Proof.Machine.execCommitBeat s
  | .retireDone => Sys2Proof.Machine.execRetireDone s
  | .retireTimeout => Sys2Proof.Machine.execRetireTimeout s
  | .retireDropsDone => Sys2Proof.Machine.execRetireDropsDone s
  | .journalReplay => Sys2Proof.Machine.execJournalReplay s
  | .cfgWrite slot flume addr len host => Sys2Proof.Machine.execCfgWrite slot flume addr len host s
  | .cfgRead slot addr len => Sys2Proof.Machine.execCfgRead slot addr len s
  | .cfgSaveActive slot => Sys2Proof.Machine.execCfgSaveActive slot s
  | .jnlSave => Sys2Proof.Machine.execJnlSave s
  | .flashErase slot => Sys2Proof.Machine.execFlashErase slot s
  | .estimateTick raw => Sys2Proof.Machine.execEstimateTick raw s
  | .pmbusWindow meas mean => Sys2Proof.Machine.execPmbusWindow meas mean s
  | .calClr a => Sys2Proof.Machine.execCalClr a s
  | .fracApply a => Sys2Proof.Machine.execFracApply a s
  | .paceInstant idle => Sys2Proof.Machine.execPaceInstant idle s
  | .pacePllLock => Sys2Proof.Machine.execPacePllLock s
  | .droopStart => Sys2Proof.Machine.execDroopStart s
  | .droopEnd => Sys2Proof.Machine.execDroopEnd s
  | .paceDeferResume => Sys2Proof.Machine.execPaceDeferResume s
  | .groupFrameReceive frame => Sys2Proof.Machine.execGroupFrameReceive frame s
  | .groupLoss => Sys2Proof.Machine.execGroupLoss s
  | .groupExit => Sys2Proof.Machine.execGroupExit s
  | .capSet en capW fr => Sys2Proof.Machine.execCapSet en capW fr s
  | .pwrGetStatus => Sys2Proof.Machine.execPwrGetStatus s
  | .groupCfg en lead id period => Sys2Proof.Machine.execGroupCfg en lead id period s
  | .thermalSample t stuck => Sys2Proof.Machine.execThermalSample t stuck s
  | .thermtrip => Sys2Proof.Machine.execThermtrip s
  | .thermClr a v => Sys2Proof.Machine.execThermClr a v s
  | .fatalFault pg lookup => Sys2Proof.Machine.execFatalFault pg lookup s
  | .dieLinkFail d => Sys2Proof.Machine.execDieLinkFail d s
  | .dlinkCmd a v trained => Sys2Proof.Machine.execDlinkCmd a v trained s
  | .provision a arg => Sys2Proof.Machine.execProvision a arg s
  | .deploy a arg => Sys2Proof.Machine.execDeploy a arg s
  | .challenge a arg => Sys2Proof.Machine.execChallenge a arg s
  | .unlock a arg => Sys2Proof.Machine.execUnlock a arg s
  | .relock a arg => Sys2Proof.Machine.execRelock a arg s
  | .rma a arg => Sys2Proof.Machine.execRma a arg s
  | .disable a arg => Sys2Proof.Machine.execDisable a arg s
  | .addKey a arg => Sys2Proof.Machine.execAddKey a arg s
  | .revokeKey a arg => Sys2Proof.Machine.execRevokeKey a arg s
  | .svnAdvance a arg => Sys2Proof.Machine.execSvnAdvance a arg s
  | .challengeExpiry => Sys2Proof.Machine.execChallengeExpiry s
  | .dbgWarn => Sys2Proof.Machine.execDbgWarn s
  | .debugSessionExpiry => Sys2Proof.Machine.execDebugSessionExpiry s
  | .recovCmd a img b => Sys2Proof.Machine.execRecovCmd a img b s
  | .freezeN => Sys2Proof.Machine.execFreezeN s
  | .frzNow a => Sys2Proof.Machine.execFrzNow a s
  | .frozenRead t => Sys2Proof.Machine.execFrozenRead t s
  | .frzClr a v => Sys2Proof.Machine.execFrzClr a v s
  | .auxPowerOn => Sys2Proof.Machine.execAuxPowerOn s
  | .porN b => Sys2Proof.Machine.execPorN b s
  | .sysRstN b => Sys2Proof.Machine.execSysRstN b s
  | .swRst a slot b => Sys2Proof.Machine.execSwRst a slot b s
  | .perstN => Sys2Proof.Machine.execPerstN s
  | .refclkLoss n => Sys2Proof.Machine.execRefclkLoss n s
  | .useSpareWrite a mask => Sys2Proof.Machine.execUseSpareWrite a mask s
  | .quiesce a => Sys2Proof.Machine.execQuiesce a s
  | .active a => Sys2Proof.Machine.execActive a s
  | .standby a => Sys2Proof.Machine.execStandby a s
  | .drainTmo => Sys2Proof.Machine.execDrainTmo s
  | .ringDoorbell a ring v => Sys2Proof.Machine.execRingDoorbell a ring v s
  | .txDescriptor ring desc frame => Sys2Proof.Machine.execTxDescriptor ring desc frame s
  | .rxDescriptor h addrs => Sys2Proof.Machine.execRxDescriptor h addrs s
  | .tableDescriptor ring desc blocks => Sys2Proof.Machine.execTableDescriptor ring desc blocks s
  | .dmaReadError ring kind desc addr => Sys2Proof.Machine.execDmaReadError ring kind desc addr s
  | .cplTmo ring desc addr => Sys2Proof.Machine.execCplTmo ring desc addr s
  | .coalTime ring => Sys2Proof.Machine.execCoalTime ring s
  | .ringCfgWrite a ring v => Sys2Proof.Machine.execRingCfgWrite a ring v s
  | .flr f => Sys2Proof.Machine.execFlr f s
  | .vfEnableChange en num => Sys2Proof.Machine.execVfEnableChange en num s
  | .smbusReadWord cmd => Sys2Proof.Machine.execSmbusReadWord cmd s
  | .storageUpset pg mem word unc stuck bitpos synd => Sys2Proof.Machine.execStorageUpset pg mem word unc stuck bitpos synd s
  | .powerRemoval => Sys2Proof.Machine.execPowerRemoval s
  | .timeRefReturn => Sys2Proof.Machine.execTimeRefReturn s
  | .refclkReturn n => Sys2Proof.Machine.execRefclkReturn n s
  | .lossConditionClear lp => Sys2Proof.Machine.execLossConditionClear lp s
  | .linkTrainingRequest l coef up => Sys2Proof.Machine.execLinkTrainingRequest l coef up s
  | .preemptResume lp => Sys2Proof.Machine.execPreemptResume lp s
  | .sluiceHaltTimeout r t => Sys2Proof.Machine.execSluiceHaltTimeout r t s
  | .boundaryScan ir => Sys2Proof.Machine.execBoundaryScan ir s

end Sys2Proof.Machine
end

