-- ==== Sys2Proof/Safety.lean ====
section
/-!
DEFINITION. Safety.lean: the terms that claims about the block are stated in: when a command completes, a device that
is ready for commands, what a command leaves as it was, and the invariants.
-/
namespace Sys2Proof.Machine

/-! ## Completion -/

/-- The command answers a next state, and `P` holds of it. -/
def Completes (i : Instr) (s : State) (P : State → Prop) : Prop := ∃ t, exec i s = .next t ∧ P t

/-! ## A device ready for commands -/

/-- Nothing that the end of a command settles is waiting: no table list runs, no injected header is on its way, no
sluice watches a page, and no freeze trigger is armed (R541, R152, R153, R511). -/
def Chip.settled (c : Chip) : Bool :=
  c.dma.lists.isEmpty && (c.slu.s.all fun u => u.reqs.all fun q => q.op != 13 || q.at_ == 0 || q.status.isSome) &&
    !c.watches && (c.regs.all fun kv => !(kv.1 % 65536 == 8 && decide (kv.1 < 0x10000000) && bit kv.2 2)) &&
    !c.rdB Reg.life_FRZ_CTL 0

/-- The device is up, in ACTIVE, not frozen, and nothing waits to be settled. -/
def Active (s : State) : Prop := s.coreOn = true ∧ s.aux.pstate = 0 ∧ s.chip.settled = true

/-- An agent may write a page, and the page is not in reset (R42, R49, R533). -/
def MayWrite (s : State) (a : Agent) (pg : Nat) : Prop := s.mayReach a.num pg true = true ∧ s.chip.inReset pg = false

/-- An agent may read a page, and the page is not in reset. -/
def MayRead (s : State) (a : Agent) (pg : Nat) : Prop := s.mayReach a.num pg false = true ∧ s.chip.inReset pg = false

/-! ## What stays -/

/-- Outside the chip nothing changes: the queue, the AUX domain, the TIME domain, the Vault. -/
def OnlyChip (s t : State) : Prop := t.pending = s.pending ∧ t.aux = s.aux ∧ t.clk = s.clk ∧ t.vault = s.vault

/-- Registers keep their values outside a list of pages (bank B included: its keys lie on pages of their own). -/
def KeepsRegs (s t : State) (pages : List Nat) : Prop := ∀ x : Nat, x / 65536 ∉ pages → t.chip.rd x = s.chip.rd x

/-- Registers keep their values, in both banks, on every page but those of some kinds. -/
def KeepsKinds (s t : State) (kinds : List Reg.Kind) : Prop :=
  ∀ x : Nat, ((Reg.kindOf (x / 65536 % 4096)).any fun k => kinds.contains k) = false → t.chip.rd x = s.chip.rd x

/-! ## Values that statements name -/

/-- The pages whose registers from 0x100 on have no write or read of their own: an access acts by the access codes of R6
alone. -/
def plainPage (pg : Nat) : Bool :=
  match Reg.kindOf pg with
  | some .reachCommon | some .parser | some .wheel | some .level | some .spill | some .telemetry | some .dma => true
  | _ => false

/-- PRE, MAIN and POST after a training request of one step of coefficient 0, 1 or 2; none at a limit (R65, R67). -/
def stepTaps (t : Nat × Nat × Nat) (coef : Nat) (up : Bool) : Option (Nat × Nat × Nat) :=
  let (pre, main, post) := t
  let move (n : Nat) : Option Nat := if up then some (n + 1) else if n = 0 then none else some (n - 1)
  let r : Option (Nat × Nat × Nat) := match coef with
    | 0 => (move pre).map fun x => (x, main, post)
    | 1 => (move main).map fun x => (pre, x, post)
    | _ => (move post).map fun x => (pre, main, x)
  r.bind fun x => if tapsOk x.1 x.2.1 x.2.2 then some x else none

/-! ## What a table command hands over and gets back -/

/-- The exact-match command that a row's source hands to the command unit: the registers of the page with INSTANCE, or a
block, with OP and KIND set (R181, R202). -/
def State.emCmdOf (s : State) (src : TblSrc) (op : Nat) : TblCmd :=
  match src with
  | .page a i => { agent := a.num, dma := false, blk := blkPut s.chip.emPageBlock 0 (beBytes 1 op ++ beBytes 1 1 ++ beBytes 1 i.val ++ [0])
                   dest := .page }
  | .sluice r b => { agent := sluiceAgent r.val, dma := false, blk := rowBlock b op 1, dest := .out }
  | .list f b => { agent := f.val + 1, dma := true, blk := rowBlock b op 1, dest := .out }

/-- The prefix or CAM command that a row's source hands to the command unit (R222 to R226). -/
def State.pfxCmdOf (s : State) (src : TblSrc) (op kind : Nat) : TblCmd :=
  match src with
  | .page a _ => { agent := a.num, dma := false, blk := s.chip.pfxPageBlock, dest := .page }
  | .sluice r b => { agent := sluiceAgent r.val, dma := false, blk := rowBlock b op kind, dest := .out }
  | .list f b => { agent := f.val + 1, dma := true, blk := rowBlock b op kind, dest := .out }

/-- The unit of a table page takes a command from a source: it has not failed and is not in reset, and at the page itself the
agent may write and GO reads 0 (R202, R226, R491). -/
def State.tblOpen (s : State) (src : TblSrc) (pg cmdReg : Nat) : Bool :=
  !s.chip.faulted pg && !s.chip.inReset pg &&
    (match src with
     | .page a _ => s.mayReach a.num pg true && !s.chip.rdB cmdReg 31
     | _ => true)

/-- The last block handed back outside the page. -/
def Chip.lastBlk (c : Chip) : List Byte := match c.out.getLast? with | some (.data 1 r) => r | _ => []

/-- The value of the last read handed back. -/
def Chip.lastRead (c : Chip) : Word := match c.out.getLast? with | some (.read _ _ w) => w | _ => 0

/-- An entry as a block of 64 bytes carries it. -/
def Slot.word (e : Slot) : Slot := { key := slice e.key 0 16, data := slice e.data 0 16, ctl := e.ctl }

/-- STATUS, entry and LOC as the source of an exact-match command receives them (R181, R202). -/
def Chip.emAnswer (c : Chip) (src : TblSrc) : Nat × Slot × Nat :=
  match src with
  | .page _ _ => ((c.rd Reg.em_TBL_STATUS).toNat,
      { key := ((List.range 4).map fun n => wordBytesBE (c.rd (Reg.em_TBL_KEY n))).flatten
        data := ((List.range 4).map fun n => wordBytesBE (c.rd (Reg.em_TBL_DATA n))).flatten
        ctl := c.rd Reg.em_TBL_CTL_HI ++ c.rd Reg.em_TBL_CTL_LO }, (c.rd Reg.em_TBL_LOC).toNat)
  | _ => (blkNat c.lastBlk 3 1, { key := slice c.lastBlk 8 16, data := slice c.lastBlk 24 16
                                  ctl := BitVec.ofNat 64 (blkNat c.lastBlk 40 8) }, blkLoc c.lastBlk)

/-- The block as the source of a prefix command receives it (R222, R226). -/
def Chip.pfxAnswer (c : Chip) (src : TblSrc) : List Byte :=
  match src with
  | .page _ _ => c.pfxPageBlock
  | _ => c.lastBlk

/-- A record of the journal is free, and no replay runs (R446, R447). -/
def Chip.jnlOpen (c : Chip) : Bool := !c.rdB Reg.epoch_JNL_STAT 30 && decide (c.ep.journal.length + c.ep.reserved < jnlMax)

/-- Two states agree on every exact-match slot but those listed. -/
def EmOthers (s t : State) (l : List Nat) : Prop := ∀ n : Nat, n ∉ l → mrd {} t.chip.tbl.em n = mrd {} s.chip.tbl.em n

/-- The request of a sluice with a serial number, as it stands now (R150). -/
def Chip.reqNow (c : Chip) (r : Nat) (q : SluReq) : Option SluReq := (c.slu1 r).reqs.find? fun p => p.serial == q.serial

/-- The status with which a request of a sluice has been carried out, if it has. -/
def Chip.reqStatus (c : Chip) (r : Nat) (q : SluReq) : Option Nat := (c.reqNow r q).bind (·.status)

/-- A sluice has aborted: its state and cause, its threads idle, its requests discarded (R161). -/
def Chip.sluAborted (c : Chip) (r cause : Nat) : Bool :=
  c.sluState r == 4 && c.rdF (Reg.sluice_SL_STAT r) 11 8 == cause && ((c.slu1 r).threads.all fun th => th.st == 0) &&
    (c.slu1 r).reqs.isEmpty

/-- The job that the Vault runs next, with its page (R424). -/
def Vault.front (v : Vault) : Option (Nat × VJob) := v.nextPage.bind fun u => ((v.queueOf u).head?).map fun j => (u, j)

/-- The Vault is READY and its next job is a host job of an operation, with a whole descriptor, reading and writing host memory
at up to 16 MiB; its page belongs to no customer sluice (R422 to R426). -/
def State.jobReady (s : State) (op : Nat) (uj : Nat × VJob) : Bool :=
  s.vault.state == 1 && jF uj.2.desc 0 1 == op && uj.2.sluice.isNone && uj.2.desc.length == 64 && jF uj.2.desc 4 1 == 0 &&
    decide (jF uj.2.desc 16 4 ≤ 16777216) && decide (s.chip.upOwner uj.1 < 25) && s.chip.upsets.isEmpty

/-- The writes to host memory among the outputs, oldest first: where and what. -/
def hostWrites (l : List Output) : List (Nat × List Byte) :=
  l.filterMap fun x => match x with | .host a b => some (a, b) | _ => none

/-- The host job at the front has ended with a status and an output (R424, R425). -/
def JobEnded (s t : State) (uj : Nat × VJob) (st : Nat) (out : List Byte) : Prop :=
  t.pending = s.pending ∧ t.aux = s.aux ∧ t.clk = s.clk ∧ t.chip.rd (Reg.upage_JOB_STATUS uj.1) = wd st ∧
    t.vault.queueOf uj.1 = (s.vault.queueOf uj.1).drop 1 ∧ t.vault.lastPage = uj.1 ∧
    t.chip.rdB (Reg.INT_CAUSE (0x020 + uj.1)) 0 = true ∧
    hostWrites t.chip.out = hostWrites s.chip.out ++ (if out = [] then [] else [(jF uj.2.desc 24 8, out)])

/-- No key slot changes but those listed, by 16·page + slot (R423). -/
def SlotsKept (s t : State) (l : List Nat) : Prop := ∀ n : Nat, n ∉ l → mget t.vault.slots n = mget s.vault.slots n

/-- The key slot of a job: S and DST are those of its page. -/
def Vault.jobKey (v : Vault) (uj : Nat × VJob) (typ : Nat) : Option KeySlot :=
  (v.slot uj.1 (jF uj.2.desc 1 1 % 16)).filter fun k => k.typ == typ && k.half.isNone

/-! ## The form of the stores -/

/-- A sparse store is canonical: its keys rise strictly and no entry holds what an unlisted key reads as. -/
def smapWf {α : Type} [DecidableEq α] (d : α) (m : SMap α) : Bool := mwf (fun _ v => decide (v = d)) m

/-- The registers are canonical: their keys rise strictly, and none is listed at its reset value. -/
def Chip.regsWf (c : Chip) : Bool := mwf (fun a v => decide (v = rstVal a)) c.regs

/-! ## Invariants -/

/-- The rate of device time, in force or about to be, is within 1,000,000 ppb (R331). -/
def Clk.rateOk (k : Clk) : Prop := k.freq.natAbs ≤ 256000000 ∧ ∀ f ∈ k.nextFreq, f.natAbs ≤ 256000000

/-- Every mode stands at a value that the spec gives it, and every set of like parts has its number of parts: power state, boot
phase, servo, STEP_SEQ, Vault, Flume, the 16 reaches, the 16 sluices and their 4 threads. -/
def State.modesLegal (s : State) : Bool :=
  decide (s.aux.pstate ≤ 2) && ([0, 1, 6, 15] : List Nat).contains s.aux.phase && decide (s.clk.servo ≤ 3) && decide (s.clk.stepSeq < 256) &&
    decide (s.vault.state ≤ 2) && decide (s.chip.flm.pstate ≤ 2) && s.chip.reaches.length == 16 && s.chip.slu.s.length == 16 &&
    s.chip.slu.s.all fun u => u.threads.length == 4

/-- Every FIFO holds at most its depth: PPS_IN 4 (R347), a transmit timestamp FIFO 64 (R339), a Vault page's jobs 4 (R422), samples
1,024 (R371), captures 4,096 (R377), learn events 65,536 (R195). -/
def State.fifosWithin (s : State) : Bool :=
  decide (s.clk.ppsFifo.length ≤ 4) && (s.clk.txts.all fun kv => decide (kv.2.length ≤ 64)) && (s.vault.jobs.all fun kv => decide (kv.2.length ≤ 4)) &&
    decide (s.chip.tel.smpFifo.length ≤ 1024) && decide (s.chip.tel.capFifo.length ≤ 4096) && decide (s.chip.tbl.learnQ.length ≤ 65536)

/-- A debug session is open only on a device whose fuses say DEPLOYED (R500). -/
def Aux.sessionOk (a : Aux) : Prop := a.session.isSome = true → a.otp.fuse = some 2

/-- The lifecycle transitions of R500, by LC_STAT.STATE. -/
def lifecycleMoves : List (Nat × Nat) :=
  [(0, 1), (1, 2), (2, 3), (3, 2), (1, 4), (2, 4), (3, 4), (0, 5), (4, 5), (1, 5), (2, 5), (3, 5)]

end Sys2Proof.Machine
end

