-- ==== Sys2Proof/Certificates/Slice0/Obligations.lean ====
section
/-!
DEFINITION. Certificates/Slice0/Obligations.lean: the statements for the provers: the completion of every command with its effect, rules of the
spec, frames, and invariants of the whole machine.
-/
open Sys2Proof Sys2Proof.Machine

/-- On an active device: a whole-word REG_WRITE by an agent that may write the page gives an ordinary register its RW bits and
clears the W1C bits written 1, and goes to the staging bank for an RWE register while an epoch is staging; a write without all
byte enables leaves the register as it was and captures nothing but an access error; a read returns the value and clears the RC
bits; a read of the low half of a counter pair captures the high half for that agent and clears the pair; INT_CAUSE, INT_FORCE, ERR_ADDR and
ACC_INFO act as their bits say; VEC_REARM sends the vector's message again exactly when it is pending and not masked. -/
def Obligations.RegisterAccessCompletes : Prop :=
  ∀ (s : State) (a : Agent), Active s →
    (∀ (off : Nat) (v : Word), MayWrite s a (off / 65536) → plainPage (off / 65536) = true → 0x100 ≤ off % 65536 →
      ∀ row ∈ Reg.rowAt off,
        (row.rwe = 0 → Completes (.regWrite a off 15 v) s fun t => OnlyChip s t ∧
          t.chip.rd off = ((s.chip.rd off &&& ~~~ wd row.rw) ||| (v &&& wd row.rw)) &&& ~~~ (v &&& wd row.w1c)) ∧
        (row.rwe ≠ 0 → s.chip.staging = true → Completes (.regWrite a off 15 v) s fun t => OnlyChip s t ∧
          t.chip.rdE (!s.chip.bankB) off =
            ((s.chip.rdE (!s.chip.bankB) off &&& ~~~ wd row.rwe) ||| (v &&& wd row.rwe)) ∧
          t.chip.rdE s.chip.bankB off = s.chip.rdE s.chip.bankB off) ∧
        (∀ be : Fin 16, be.val ≠ 15 → Completes (.regWrite a off be v) s fun t => OnlyChip s t ∧
          t.chip.rd off = s.chip.rd off ∧ t.chip.rdB (Reg.INT_CAUSE (off / 65536)) 28 = true)) ∧
    (∀ off : Nat, MayRead s a (off / 65536) → plainPage (off / 65536) = true → 0x100 ≤ off % 65536 →
      ∀ row ∈ Reg.rowAt off, ∀ k ∈ Reg.kindOf (off / 65536),
        (row.half = 0 → row.rwe = 0 → Completes (.rcRead a off) s fun t => OnlyChip s t ∧
          t.chip.rd off = s.chip.rd off &&& ~~~ wd row.rc ∧
          t.chip.out = s.chip.out ++ [.read a.num off (s.peek k row off)]) ∧
        (row.half = 1 → Completes (.counterLoRead a off) s fun t => OnlyChip s t ∧
          t.chip.rd off = 0 ∧ t.chip.rd (off + 4) = 0 ∧
          mget t.chip.shadow (shadowKey a.num off) = some (s.chip.rd (off + 4)) ∧
          t.chip.out = s.chip.out ++ [.read a.num off (s.peek k row off)])) ∧
    (∀ (pg : Nat) (v : Word), MayWrite s a pg → ∀ k ∈ Reg.kindOf pg,
      v &&& ~~~ wd (0xF0000000 + Reg.evMask k + Reg.levelMask k) = 0 →
      Completes (.intCauseClear a pg v) s (fun t => OnlyChip s t ∧
        t.chip.rd (Reg.INT_CAUSE pg) = s.chip.rd (Reg.INT_CAUSE pg) &&& ~~~ v) ∧
      Completes (.intForce a pg v) s (fun t => OnlyChip s t ∧
        t.chip.rd (Reg.INT_CAUSE pg) =
          s.chip.rd (Reg.INT_CAUSE pg) ||| (v &&& wd (0xF0000000 + Reg.evMask k)))) ∧
    (∀ pg : Nat, MayWrite s a pg → (Reg.kindOf pg).isSome = true →
      Completes (.errAddrRearm a pg) s fun t => OnlyChip s t ∧ t.chip.rdB (Reg.ERR_ADDR pg) 31 = false) ∧
    (MayWrite s a 0 →
      Completes (.accInfoRearm a) s fun t => OnlyChip s t ∧ t.chip.rdB Reg.chip_ACC_INFO 31 = false) ∧
    (∀ v : Word, MayWrite s a 0 → v &&& ~~~ 0x0007007F = 0 →
      Completes (.vecRearm a v) s fun t => OnlyChip s t ∧
        t.chip.out = s.chip.out ++
          (if s.chip.vecPending (fld v 18 16, fld v 6 0) ∧ ¬ s.chip.dma.masked.contains (128 * fld v 18 16 + fld v 6 0) then
            [.msix (fld v 18 16) (fld v 6 0)] else []))

/-- On an active device: SOFT_RST of an existing page that is not in reset puts it in reset and keeps PAGE_CTL.EN, and the
registers of a parser, weir or reach common page return to reset; the end of the reset clears SOFT_RST and FAULT; SCRUB_NOW
restarts the pass of a page with storage; a scrub slot on a word without an upset only moves the pass, one on a word with a
correctable upset counts it and mends it unless the bit is stuck, and the last slot counts the pass. -/
def Obligations.PageResetAndScrubComplete : Prop :=
  ∀ s : State, Active s →
    (∀ (a : Agent) (pg : Nat), MayWrite s a pg → ∀ k ∈ Reg.kindOf pg,
      Completes (.softRst a pg) s fun t =>
        t.chip.inReset pg = true ∧ (pg ≠ 0x221 → t.chip.enabled pg = s.chip.enabled pg) ∧
        (k = .parser ∨ k = .weir ∨ k = .reachCommon →
          ∀ off : Nat, 0x100 ≤ off → off < 65536 → t.chip.rd (65536 * pg + off) = rstVal (65536 * pg + off))) ∧
    (∀ pg : Nat, (Reg.kindOf pg).isSome = true → s.chip.inReset pg = true →
      Completes (.softResetDone pg) s fun t => OnlyChip s t ∧
        t.chip.inReset pg = false ∧ t.chip.faulted pg = false ∧ t.chip.enabled pg = s.chip.enabled pg) ∧
    (∀ (a : Agent) (pg : Nat), MayWrite s a pg → ∀ k ∈ Reg.kindOf pg, noSram k = false →
      Completes (.scrubNow a pg) s fun t => OnlyChip s t ∧ t.chip.rdB (Reg.SCRUB_STAT pg) 0 = true) ∧
    (∀ (pg mem word : Nat) (last : Bool), mem < 64 → word < 0x1000000 → s.chip.inReset pg = false →
      s.chip.rdB (Reg.SCRUB_CTL pg) 0 = true → ∀ k ∈ Reg.kindOf pg, noSram k = false →
      (mget s.chip.upsets (upKey pg mem word) = none → Completes (.scrubSlot pg mem word last) s fun t => OnlyChip s t ∧
        t.chip.upsets = s.chip.upsets ∧ t.chip.rdB (Reg.SCRUB_STAT pg) 0 = !last ∧
        t.chip.rdF (Reg.SCRUB_STAT pg) 15 8 = (s.chip.rdF (Reg.SCRUB_STAT pg) 15 8 + last.toNat) % 256) ∧
      (∀ u ∈ mget s.chip.upsets (upKey pg mem word), u.unc = false →
        Completes (.scrubSlot pg mem word last) s fun t => OnlyChip s t ∧
          mget t.chip.upsets (upKey pg mem word) = (if u.stuck then some u else none) ∧
          t.chip.rd (Reg.ERR_CE_CNT pg) = satAdd (s.chip.rd (Reg.ERR_CE_CNT pg)) 1 ∧
          t.chip.rdB (Reg.SCRUB_STAT pg) 0 = !last))
/-- On an active device: a valid TX_EQ write sets the taps of the lane (and the live taps where link training is off), an
invalid one changes no tap and sets TX_EQ_ERR_EV; a BRD_DLY write sets the board delay; RESTART starts an adaptation from the
mid-range codes; ADAPT_DONE stores the codes found and sets LN_EV bit 0; a continuous-adaptation tick updates EYE_MARGIN and,
where it is enabled, moves the taps; a training request in TRAIN moves one coefficient of the live taps, or leaves them at a
limit. -/
def Obligations.LaneCommandsComplete : Prop :=
  ∀ s : State, Active s →
    (∀ (a : Agent) (l : Fin 1152) (v : Word), MayWrite s a (0x040 + l / 16) →
      Completes (.txEqWrite a l v) s fun t => OnlyChip s t ∧
        if tapsOk (fld v 21 16) (fld v 13 8) (fld v 5 0) then
          t.chip.rd (laneReg Reg.lane_TX_EQ l) = v &&& 0x003F3F3F ∧
          t.chip.rd (laneReg Reg.lane_TX_EQ_LIVE l) =
            (if s.chip.ltEn l then s.chip.rd (laneReg Reg.lane_TX_EQ_LIVE l) else v &&& 0x003F3F3F)
        else
          t.chip.rd (laneReg Reg.lane_TX_EQ l) = s.chip.rd (laneReg Reg.lane_TX_EQ l) ∧
          t.chip.rdB (Reg.INT_CAUSE (0x040 + l / 16)) 25 = true) ∧
    (∀ (a : Agent) (l : Fin 1152) (tx : Bool) (v : Word), MayWrite s a (0x040 + l / 16) →
      Completes (.brdDlyWrite a l tx v) s fun t => OnlyChip s t ∧
        t.chip.rd (laneReg (if tx then Reg.lane_BRD_TX_DLY else Reg.lane_BRD_RX_DLY) l) = v &&& 0xFFFF) ∧
    (∀ (a : Agent) (l : Fin 1152), MayWrite s a (0x040 + l / 16) →
      Completes (.adaptRestart a l) s fun t => OnlyChip s t ∧
        t.chip.rdF (laneReg Reg.lane_LN_STAT l) 1 0 = 1 ∧ mget t.chip.links.dfe l = none) ∧
    (∀ (l : Fin 1152) (ctle : Fin 32) (taps : List Int), taps.length = 12 →
      s.chip.rdB (laneReg Reg.lane_LN_STAT l) 0 = true →
      Completes (.adaptDone l ctle taps) s fun t =>
        t.chip.rdF (laneReg Reg.lane_LN_STAT l) 3 0 = 14 ∧ t.chip.rdF (laneReg Reg.lane_EYE_MARGIN l) 28 24 = ctle ∧
        mrd [] t.chip.links.dfe l = taps ∧ t.chip.rdB (laneReg Reg.lane_LN_EV l) 0 = true) ∧
    (∀ (l : Fin 1152) (moves : List Int) (vert horiz : Byte),
      Completes (.contAdaptTick l moves vert horiz) s fun t => OnlyChip s t ∧
        t.chip.rdF (laneReg Reg.lane_EYE_MARGIN l) 15 0 = vert.toNat * 256 + horiz.toNat ∧
        (s.chip.rdB (laneReg Reg.lane_RX_ADAPT l) 8 = true → s.chip.rdB (laneReg Reg.lane_RX_ADAPT l) 4 = false →
          s.chip.lanePwr l < 2 → s.chip.rdB (laneReg Reg.lane_LN_STAT l) 0 = false →
          mrd [] t.chip.links.dfe l = tapMove ((mget s.chip.links.dfe l).getD (List.replicate 12 0)) moves)) ∧
    (∀ (l : Fin 1152) (coef : Fin 3) (up : Bool), s.chip.ltEn l = true → s.chip.linkSt (s.chip.lpOfLane l) = 3 →
      Completes (.linkTrainingRequest l coef up) s fun t => OnlyChip s t ∧
        (t.chip.rd (laneReg Reg.lane_TX_EQ_LIVE l),  mget t.chip.links.trainLimit l) =
          (stepTaps (tapsOf (s.chip.rd (laneReg Reg.lane_TX_EQ_LIVE l))) coef up).elim
            (s.chip.rd (laneReg Reg.lane_TX_EQ_LIVE l), some 1)
            fun x => (wd (x.1 * 65536 + x.2.1 * 256 + x.2.2), none))

/-- On an active device: setting RAW_EN of a lane takes its port to RAW (or leaves it in DEEP); clearing it on every lane of a
port in RAW leads to DISABLED, or on to WAIT_PLL where ADMIN_UP is set and the power target allows it; SLIP queues one slip of
a raw lane and raises SLIP_OVF_EV when 63 wait; SLIP_DONE moves the word boundary by one UI; a checked word counts its errors
while locked, 64 clean words lock the checker and 16 bad ones unlock it. -/
def Obligations.RawLaneCommandsComplete : Prop :=
  ∀ s : State, Active s →
    (∀ (a : Agent) (l : Fin 1152), MayWrite s a (0x040 + l / 16) →
      Completes (.rawEnSet a l) s fun t =>
        t.chip.rdB (laneReg Reg.lane_LN_CFG l) 31 = true ∧
        t.chip.linkSt (s.chip.lpOfLane l) = (if s.chip.linkSt (s.chip.lpOfLane l) = 9 then 9 else 10)) ∧
    (∀ (a : Agent) (lp : Fin 1152), MayWrite s a (0x040 + lp / 16) → s.chip.lpActive lp = true → s.chip.linkSt lp = 10 →
      Completes (.rawEnClear a lp) s fun t =>
        t.chip.rawLanes lp = false ∧
        t.chip.linkSt lp = (if s.chip.adminUp lp ∧ s.chip.pwrTarget lp < 2 then 1 else 0)) ∧
    (∀ (a : Agent) (l : Fin 1152), MayWrite s a (0x040 + l / 16) → s.chip.rdB (laneReg Reg.lane_LN_CFG l) 31 = true →
      Completes (.slip a l) s fun t => OnlyChip s t ∧
        if s.chip.rdF (laneReg Reg.lane_SLIP_STAT l) 5 0 < 63 then
          t.chip.rdF (laneReg Reg.lane_SLIP_STAT l) 5 0 = s.chip.rdF (laneReg Reg.lane_SLIP_STAT l) 5 0 + 1
        else t.chip.rdF (laneReg Reg.lane_SLIP_STAT l) 5 0 = 63 ∧ t.chip.rdB (Reg.INT_CAUSE (0x040 + l / 16)) 24 = true) ∧
    (∀ l : Fin 1152, s.chip.rdF (laneReg Reg.lane_SLIP_STAT l) 5 0 ≠ 0 →
      Completes (.slipDone l) s fun t => OnlyChip s t ∧
        t.chip.rdF (laneReg Reg.lane_SLIP_STAT l) 5 0 = s.chip.rdF (laneReg Reg.lane_SLIP_STAT l) 5 0 - 1 ∧
        mrd 0 t.chip.links.boundary l = (mrd 0 s.chip.links.boundary l + 1) % 64) ∧
    (∀ (l : Fin 1152) (errs : Fin 65), s.chip.checks l = true →
      Completes (.prbsWordCheck l errs) s fun t => OnlyChip s t ∧
        mrd 0 t.chip.links.cleanRun l = (if errs.val = 0 then min (mrd 0 s.chip.links.cleanRun l + 1) 64 else 0) ∧
        mrd 0 t.chip.links.badRun l = (if 8 < errs.val then min (mrd 0 s.chip.links.badRun l + 1) 16 else 0) ∧
        t.chip.rd (laneReg Reg.lane_PRBS_ERR_CNT l) =
          (if s.chip.rdB (laneReg Reg.lane_PRBS_STAT l) (if s.chip.rxPat l = 9 then 1 else 0) then
            satAdd (s.chip.rd (laneReg Reg.lane_PRBS_ERR_CNT l)) errs
          else s.chip.rd (laneReg Reg.lane_PRBS_ERR_CNT l))) ∧
    (∀ l : Fin 1152, s.chip.checks l = true → s.chip.rxPat l ≠ 9 → mrd 0 s.chip.links.cleanRun l = 64 →
      Completes (.prbsLock l) s fun t => OnlyChip s t ∧ t.chip.rdB (laneReg Reg.lane_PRBS_STAT l) 0 = true) ∧
    (∀ l : Fin 1152, s.chip.rdB (laneReg Reg.lane_PRBS_STAT l) 0 = true → mrd 0 s.chip.links.badRun l = 16 →
      Completes (.prbsLockLost l) s fun t => OnlyChip s t ∧
        t.chip.rdB (laneReg Reg.lane_PRBS_STAT l) 0 = false ∧ t.chip.rdB (laneReg Reg.lane_LN_EV l) 3 = true)

/-- On an active device: a PORT_MODE write of an idle port is taken and of a port in use raises MODE_ERR_EV; a codeword within
the correction limit adds its errors to FEC_CORR_CNT, one beyond it counts FEC_UNCORR_CNT; the end of a 1 ms window raises
FEC_DEG_EV above the threshold and clears the window; hi_ser raises its event; HOST_REQ and PM_REQ are stored, PM_REQ for S6
alone; an idle port whose target is QUIET reaches it; a lane transition ends with PWR_DONE_EV; a stopping PLL stops; an unlocked
PLL raises its event; a started PLL locks. -/
def Obligations.LanePowerCommandsComplete : Prop :=
  ∀ s : State, Active s →
    (∀ (a : Agent) (p : Fin 144) (v : Word), MayWrite s a (0x090 + p) →
      Completes (.portModeWrite a p v) s fun t =>
        if (∃ j ∈ List.range 8, s.chip.lpActive (8 * p + j) = true ∧
            (s.chip.adminUp (8 * p + j) = true ∨ s.chip.linkSt (8 * p + j) ≠ 0)) ∨ fld v 2 0 = 7 then
          t.chip.rd (Reg.port_PORT_MODE p) = s.chip.rd (Reg.port_PORT_MODE p) ∧
          t.chip.rdB (Reg.INT_CAUSE (0x090 + p)) 27 = true
        else t.chip.rd (Reg.port_PORT_MODE p) = v &&& 0x17) ∧
    (∀ (lp : Fin 1152) (errs limit : Nat), s.chip.fecLimit lp = some limit → s.chip.lpActive lp = true →
      5 ≤ s.chip.linkSt lp → s.chip.linkSt lp ≤ 8 →
      Completes (.fecCodeword lp errs) s fun t => OnlyChip s t ∧
        if errs ≤ limit then
          t.chip.rd (Reg.port_FEC_CORR_CNT (lp / 8) (lp % 8)) = satAdd (s.chip.rd (Reg.port_FEC_CORR_CNT (lp / 8) (lp % 8))) errs ∧
          mrd 0 t.chip.links.fecWin lp = mrd 0 s.chip.links.fecWin lp + errs
        else
          t.chip.rd (Reg.port_FEC_UNCORR_CNT (lp / 8) (lp % 8)) =
            satAdd (s.chip.rd (Reg.port_FEC_UNCORR_CNT (lp / 8) (lp % 8))) 1) ∧
    (∀ lp : Fin 1152,
      Completes (.fecDegradeWindow lp) s fun t => OnlyChip s t ∧ mget t.chip.links.fecWin lp = none ∧
        (s.chip.rdF (Reg.port_FEC_CTL (lp / 8)) 31 16 < mrd 0 s.chip.links.fecWin lp →
          t.chip.rdB (Reg.INT_CAUSE (0x090 + lp / 8)) 26 = true)) ∧
    (∀ lp : Fin 1152, s.chip.lpActive lp = true →
      Completes (.hiSer lp) s fun t => OnlyChip s t ∧ t.chip.rdB (Reg.INT_CAUSE (0x090 + lp / 8)) 25 = true) ∧
    (∀ (a : Agent) (lp : Fin 1152) (req : Fin 4), MayWrite s a (0x090 + lp / 8) → a.num ≠ 23 →
      Completes (.hostReqWrite a lp req) s fun t => fld (t.chip.pwrReq lp) 1 0 = req) ∧
    (∀ (a : Agent) (lp : Fin 1152) (quiet : Bool), MayWrite s a (0x090 + lp / 8) → a.num = 23 →
      Completes (.pmReqWrite a lp quiet) s fun t => fld (t.chip.pwrReq lp) 8 8 = quiet.toNat) ∧
    (∀ lp : Fin 1152, s.chip.lpActive lp = true → s.chip.lpPower lp = 0 → s.chip.pwrTarget lp = 1 →
      mget s.chip.links.moving lp = none → s.chip.lpIdle lp = true →
      Completes (.quietIdleExpiry lp) s fun t =>
        t.chip.lpPower lp = 1 ∧ t.chip.rdB (Reg.INT_CAUSE (0x090 + lp / 8)) (lp % 8) = true) ∧
    (∀ (lp : Fin 1152) (st : Nat), s.chip.lpActive lp = true → mget s.chip.links.moving lp = some st → st < 4 →
      Completes (.laneTransitionDone lp) s fun t =>
        t.chip.lpPower lp = st ∧ t.chip.rdB (Reg.INT_CAUSE (0x090 + lp / 8)) (lp % 8) = true) ∧
    (∀ k : Fin 72, s.chip.links.pllStopping.contains k.val = true →
      Completes (.pllStopDone k) s fun t =>
        t.chip.links.pllStopping.contains k.val = false ∧ fld (t.chip.rd (Reg.lane_LB_STAT k)) 3 2 = 0) ∧
    (∀ (k : Fin 72) (high : Bool), s.chip.rdB (Reg.lane_LB_STAT k) (if high then 2 else 3) = true →
      Completes (.pllUnlock k high) s fun t => OnlyChip s t ∧
        t.chip.rdB (Reg.lane_LB_STAT k) (if high then 2 else 3) = false ∧
        t.chip.rdB (Reg.INT_CAUSE (0x040 + k)) (if high then 27 else 26) = true) ∧
    (∀ (k : Fin 72) (high : Bool), s.chip.rdB (Reg.lane_LB_STAT k) (if high then 0 else 1) = true →
      Completes (.pllLocked k high) s fun t => t.chip.rdB (Reg.lane_LB_STAT k) (if high then 2 else 3) = true)

/-- For an active logical port without a raw lane, on an active device: setting ADMIN_UP of a DISABLED port whose power target
is ACTIVE or QUIET leads to WAIT_PLL, clearing it to DISABLED; negotiation ends in TRAIN or ADAPT, or counts a failure;
training ends in ALIGN, a training timeout counts and restarts; an adaptation timeout restarts ADAPT; lock leads from ALIGN to
CAL and a timeout restarts; calibration leads to UP, sets LINK_UP and computes both delays. -/
def Obligations.LinkBringUpCompletes : Prop :=
  ∀ (s : State) (lp : Fin 1152), Active s → s.chip.lpActive lp = true → s.chip.rawLanes lp = false →
    (∀ a : Agent, MayWrite s a (0x090 + lp / 8) → s.chip.linkSt lp = 0 → s.chip.pwrTarget lp < 2 →
      Completes (.adminUpSet a lp) s fun t => t.chip.adminUp lp = true ∧ t.chip.linkSt lp = 1) ∧
    (∀ a : Agent, MayWrite s a (0x090 + lp / 8) → s.chip.linkSt lp ≠ 9 → s.chip.linkSt lp ≠ 10 →
      Completes (.adminUpClear a lp) s fun t => t.chip.adminUp lp = false ∧ t.chip.linkSt lp = 0) ∧
    (s.chip.linkSt lp = 2 →
      Completes (.anComplete lp) s fun t => t.chip.linkSt lp = (if s.chip.ltEn lp then 3 else 4)) ∧
    (s.chip.linkSt lp = 2 →
      Completes (.anFail lp) s fun t => OnlyChip s t ∧ t.chip.linkSt lp = 2 ∧
        t.chip.rdF (Reg.port_LINK_CNT (lp / 8) (lp % 8)) 7 0 =
          min 255 (s.chip.rdF (Reg.port_LINK_CNT (lp / 8) (lp % 8)) 7 0 + 1)) ∧
    (s.chip.linkSt lp = 3 →
      Completes (.trainDone lp) s fun t => t.chip.linkSt lp = 5) ∧
    (s.chip.linkSt lp = 3 →
      Completes (.trainTmo lp) s fun t => t.chip.linkSt lp = (if s.chip.anEn lp then 2 else 3) ∧
        t.chip.rdF (Reg.port_LINK_CNT (lp / 8) (lp % 8)) 15 8 =
          min 255 (s.chip.rdF (Reg.port_LINK_CNT (lp / 8) (lp % 8)) 15 8 + 1)) ∧
    (s.chip.linkSt lp = 4 →
      Completes (.adaptTimeout lp) s fun t => t.chip.linkSt lp = 4 ∧
        ∀ l ∈ s.chip.lanesOf lp, t.chip.rdF (laneReg Reg.lane_LN_STAT l) 1 0 = 1) ∧
    (s.chip.linkSt lp = 5 → s.chip.links.dieFail.contains (lp.val / 144) = false →
      Completes (.alignLock lp) s fun t => t.chip.linkSt lp = 6 ∧ fld (t.chip.rd (Reg.port_LINK_STAT (lp / 8) (lp % 8))) 2 1 = 3) ∧
    (s.chip.linkSt lp = 5 →
      Completes (.alignTimeout lp) s fun t => t.chip.linkSt lp = s.chip.bringUp lp) ∧
    (∀ rx tx : BitVec 24, s.chip.linkSt lp = 6 →
      Completes (.calDone lp rx tx) s fun t => t.chip.linkSt lp = 7 ∧ t.chip.linkBit lp 8 = true ∧
        t.chip.rd (Reg.port_PORT_RX_DLY (lp / 8) (lp % 8)) =
          wd (portDelay (Config.laneRxDelay lp) rx.toNat (s.chip.rdF (laneReg Reg.lane_BRD_RX_DLY lp) 15 0)) ∧
        t.chip.rd (Reg.port_PORT_TX_DLY (lp / 8) (lp % 8)) =
          wd (portDelay (Config.laneTxDelay lp) tx.toNat (s.chip.rdF (laneReg Reg.lane_BRD_TX_DLY lp) 15 0)))

/-- For an active logical port without a raw lane, on an active device: a loss condition on a port that is UP or FAULT is held
and takes away the lock; its end restores the locks; a hold that expires counts a retrain and restarts adaptation; a remote
fault takes UP to FAULT and its end back to UP; a die link that fails sets its FAIL bit and holds a loss on the ports of its die
that are UP. -/
def Obligations.LinkLossCompletes : Prop :=
  ∀ (s : State) (lp : Fin 1152), Active s → s.chip.lpActive lp = true → s.chip.rawLanes lp = false →
    (∀ (j : Fin 8) (kind : Fin 4), s.chip.linkSt lp = 7 ∨ s.chip.linkSt lp = 8 →
      Completes (.lossCondition lp j kind) s fun t => OnlyChip s t ∧ t.chip.links.loss.contains lp.val = true ∧
        t.chip.linkSt lp = s.chip.linkSt lp ∧ t.chip.linkBit lp (if kind.val = 3 then 2 else 1) = false ∧
        t.chip.linkBit lp 3 = true) ∧
    (s.chip.links.loss.contains lp.val = true → s.chip.links.dieFail.contains (lp.val / 144) = false →
      Completes (.lossConditionClear lp) s fun t => OnlyChip s t ∧ t.chip.links.loss.contains lp.val = false ∧
        t.chip.linkBit lp 1 = true ∧ t.chip.linkBit lp 2 = true ∧ t.chip.linkBit lp 3 = false) ∧
    (s.chip.links.loss.contains lp.val = true → s.chip.linkSt lp = 7 ∨ s.chip.linkSt lp = 8 →
      Completes (.linkDownHoldExpiry lp) s fun t => t.chip.linkSt lp = 4 ∧ t.chip.linkBit lp 8 = false ∧
        t.chip.rdF (Reg.port_LINK_CNT (lp / 8) (lp % 8)) 31 16 =
          min 65535 (s.chip.rdF (Reg.port_LINK_CNT (lp / 8) (lp % 8)) 31 16 + 1)) ∧
    (s.chip.linkSt lp = 7 →
      Completes (.remoteFault lp) s fun t => t.chip.linkSt lp = 8 ∧ t.chip.linkBit lp 4 = true ∧
        t.chip.rdB (Reg.INT_CAUSE (0x090 + lp / 8)) (16 + lp % 8) = true) ∧
    (s.chip.linkSt lp = 8 → s.chip.links.loss.contains lp.val = false →
      Completes (.remoteFaultClear lp) s fun t => t.chip.linkSt lp = 7 ∧ t.chip.linkBit lp 4 = false ∧
        t.chip.rdB (Reg.INT_CAUSE (0x090 + lp / 8)) (16 + lp % 8) = true) ∧
    (∀ d : Fin 8, s.chip.links.dieFail.contains d.val = false →
      Completes (.dieLinkFail d) s fun t => t.chip.links.dieFail.contains d.val = true ∧
        t.chip.rdB Reg.fault_DLINK_STAT d = true ∧ t.chip.rdB (Reg.INT_CAUSE 0x008) 26 = true ∧
        (lp.val / 144 = d.val → s.chip.linkSt lp = 7 → t.chip.links.loss.contains lp.val = true))
/-- On an active device: CARVE is taken while EN is 0 and no buffer is allocated, and otherwise raises CARVE_ERR_EV; setting EN
with a legal carve starts the build and sets the capacities of the three pools, and with another one leaves EN at 0; the end of
the build makes the pools ready; a rebuilt bitmap word serves again; BUF_CMD READ reports a buffer's owner, FREE gives it back
when the tag is right and is DENIED otherwise, and both answer BAD_ARG outside the pools. -/
def Obligations.BufferManagerCommandsComplete : Prop :=
  ∀ s : State, Active s →
    (∀ (a : Agent) (v : Word), MayWrite s a 0x221 →
      Completes (.carveWrite a v) s fun t => OnlyChip s t ∧
        if s.chip.enabled 0x221 = false ∧ s.chip.buf.bufs = [] then t.chip.rd Reg.bufmgr_CARVE = v &&& 0x1FF7FDFF
        else t.chip.rd Reg.bufmgr_CARVE = s.chip.rd Reg.bufmgr_CARVE ∧ t.chip.rdB (Reg.INT_CAUSE 0x221) 23 = true) ∧
    (∀ a : Agent, MayWrite s a 0x221 → s.chip.enabled 0x221 = false →
      Completes (.bmEnable a) s fun t => OnlyChip s t ∧
        if s.chip.rdF Reg.bufmgr_CARVE 8 0 + s.chip.rdF Reg.bufmgr_CARVE 18 10 + s.chip.rdF Reg.bufmgr_CARVE 28 20 = 320 ∧
            s.chip.rdF Reg.bufmgr_CARVE 28 20 ≠ 0 then
          t.chip.enabled 0x221 = true ∧ t.chip.buf.building = true ∧
          t.chip.poolCap 0 = 8192 * s.chip.rdF Reg.bufmgr_CARVE 8 0 ∧
          t.chip.poolCap 1 = 2048 * s.chip.rdF Reg.bufmgr_CARVE 18 10 ∧
          t.chip.poolCap 2 = 512 * s.chip.rdF Reg.bufmgr_CARVE 28 20
        else t.chip.enabled 0x221 = false ∧ t.chip.rdB (Reg.INT_CAUSE 0x221) 23 = true) ∧
    (s.chip.enabled 0x221 = true →
      Completes .bmBuildDone s fun t => OnlyChip s t ∧ t.chip.buf.building = false ∧
        (s.chip.faulted 0x221 = false → s.chip.inReset 0x221 = false → t.chip.bmReady = true)) ∧
    (∀ (p : Fin 3) (n : BitVec 22),
      Completes (.bitmapRebuildDone p n) s fun t => OnlyChip s t ∧ t.chip.bmHeld p n.toNat = false) ∧
    (∀ (a : Agent) (p : Fin 4) (n : BitVec 22), MayWrite s a 0x221 →
      mget s.chip.upsets (upKey 0x221 1 (bufKey p n.toNat)) = none →
      (p.val ≠ 3 → n.toNat < s.chip.poolCap p →
        Completes (.bufRead a p n) s (fun t => OnlyChip s t ∧ t.chip.rd Reg.bufmgr_BUF_STATUS = wd stOk ∧
          t.chip.buf = s.chip.buf ∧
          t.chip.rd Reg.bufmgr_BUF_DATA = wd ((mget s.chip.buf.bufs (bufKey p n.toNat)).elim 0 fun b => 0x1000 + b.tag)) ∧
        Completes (.bufFree a p n) s (fun t => OnlyChip s t ∧
          if (mget s.chip.buf.bufs (bufKey p n.toNat)).any
              (fun b => b.tag == s.chip.rdF Reg.bufmgr_BUF_DATA 11 0 || b.tag == 0xFFF) then
            t.chip.rd Reg.bufmgr_BUF_STATUS = wd stOk ∧ mget t.chip.buf.bufs (bufKey p n.toNat) = none
          else
            t.chip.rd Reg.bufmgr_BUF_STATUS = wd stDenied ∧ t.chip.buf = s.chip.buf ∧
            t.chip.rd Reg.bufmgr_FREE_ERR_CNT = satAdd (s.chip.rd Reg.bufmgr_FREE_ERR_CNT) 1)) ∧
      (p.val = 3 ∨ s.chip.poolCap p ≤ n.toNat →
        Completes (.bufRead a p n) s (fun t => OnlyChip s t ∧ t.chip.rd Reg.bufmgr_BUF_STATUS = wd stBadArg ∧ t.chip.buf = s.chip.buf) ∧
        Completes (.bufFree a p n) s (fun t => OnlyChip s t ∧ t.chip.rd Reg.bufmgr_BUF_STATUS = wd stBadArg ∧ t.chip.buf = s.chip.buf)))

/-- On an active device: XOFF of a lossless slot takes the value its levels ask for, and an UP port in PFC mode sends one frame
for it; a refresh sends the frame again; a good PFC or pause frame is consumed, counted, and pauses the classes it names; another
MAC Control frame is counted; a pause that runs out ends; a FC_CTL write is stored and a slot it disables leaves XOFF. -/
def Obligations.FlowControlCommandsComplete : Prop :=
  ∀ (s : State) (lp : Fin 1152), Active s →
    (∀ k : Fin 3, s.chip.xoff lp k ≠ (s.chip.slotActs lp k && s.chip.xoffWanted lp) →
      Completes (.xoffChange lp k) s fun t => OnlyChip s t ∧
        t.chip.xoff lp k = (s.chip.slotActs lp k && s.chip.xoffWanted lp) ∧
        (s.chip.fcMode lp = 2 → s.chip.linkSt lp = 7 → t.chip.out.length = s.chip.out.length + 1 ∧
          t.chip.rd (Reg.port_PFC_TX_CNT (lp / 8) (lp % 8)) = satAdd (s.chip.rd (Reg.port_PFC_TX_CNT (lp / 8) (lp % 8))) 1)) ∧
    (s.chip.xoffTimes lp ≠ [] → s.chip.fcMode lp ≠ 0 → s.chip.linkSt lp = 7 →
      Completes (.pfcRefresh lp) s fun t => OnlyChip s t ∧
        t.chip.out = s.chip.out ++ [.flow lp (s.chip.fcFrame lp (s.chip.xoffTimes lp))] ∧
        t.chip.rd (Reg.port_PFC_TX_CNT (lp / 8) (lp % 8)) = satAdd (s.chip.rd (Reg.port_PFC_TX_CNT (lp / 8) (lp % 8))) 1) ∧
    (∀ b : List Byte, s.chip.lpActive lp = true → s.chip.linkSt lp = 7 ∨ s.chip.linkSt lp = 8 → s.chip.receiving lp = none →
      s.chip.links.loss.contains lp.val = false → fcsGood b = true → 64 ≤ b.length → b.length ≤ s.chip.maxLen lp →
      beNat (slice b 12 2) = 0x8808 →
      (beNat (slice b 14 2) = 0x0101 → Completes (.pfcReceive lp b) s fun t => OnlyChip s t ∧
        t.chip.rd (Reg.port_PFC_RX_CNT (lp / 8) (lp % 8)) = satAdd (s.chip.rd (Reg.port_PFC_RX_CNT (lp / 8) (lp % 8))) 1 ∧
        ∀ cl : Fin 8, t.chip.rxPaused lp cl =
          if s.chip.rdB (Reg.port_FC_CTL (lp / 8) (lp % 8)) 0 && (beNat (slice b 16 2)).testBit cl then
            decide (beNat (slice b (18 + 2 * cl.val) 2) ≠ 0) else s.chip.rxPaused lp cl) ∧
      (beNat (slice b 14 2) = 0x0001 → Completes (.pfcReceive lp b) s fun t => OnlyChip s t ∧
        ∀ cl : Fin 8, t.chip.rxPaused lp cl =
          if s.chip.rdB (Reg.port_FC_CTL (lp / 8) (lp % 8)) 0 then decide (beNat (slice b 16 2) ≠ 0)
          else s.chip.rxPaused lp cl) ∧
      (beNat (slice b 14 2) ≠ 0x0101 → beNat (slice b 14 2) ≠ 0x0001 →
        Completes (.macctlOtherReceive lp b) s fun t => OnlyChip s t ∧
          t.chip.rd (Reg.port_MACCTL_OTHER_CNT (lp / 8) (lp % 8)) =
            satAdd (s.chip.rd (Reg.port_MACCTL_OTHER_CNT (lp / 8) (lp % 8))) 1 ∧
          t.chip.rd (Reg.port_FC_STAT (lp / 8) (lp % 8)) = s.chip.rd (Reg.port_FC_STAT (lp / 8) (lp % 8)))) ∧
    (∀ cls : Fin 8, Completes (.pauseExpiry lp cls) s fun t => OnlyChip s t ∧ t.chip.rxPaused lp cls = false ∧
      t.chip.linkSt lp = s.chip.linkSt lp) ∧
    (∀ (a : Agent) (v : Word), MayWrite s a (0x090 + lp / 8) →
      Completes (.fcCtlWrite a lp v) s fun t => OnlyChip s t ∧
        t.chip.rd (Reg.port_FC_CTL (lp / 8) (lp % 8)) = v &&& 0xC0FFF001 ∧
        ∀ k : Fin 3, bit v (15 + 4 * k.val) = false → t.chip.xoff lp k = false)
/-- On an active device: WHEEL_SERVICE shows the present fine tick and, where no coarse entry is due, leaves no entry whose tick
has begun; WHEEL_REPLACE leaves every shaper of the reach that is on a wheel not conforming at the present time; GATE_WRITE
stores an entry of the inactive bank while an epoch stages and is DENIED otherwise; GATE_READ loads the data registers; a due
GATE_SWITCH ends the old configuration; a PREEMPT window that closes suspends the copy in transmission or counts an overrun; a
suspended copy resumes on an ungated queue; the verify result is shown; QUEUE_SAMPLE records the depth of every queue. -/
def Obligations.SchedulerCommandsComplete : Prop :=
  ∀ s : State, Active s →
    (∀ r : Fin 16,
      Completes (.wheelService r) s (fun t => OnlyChip s t ∧
        t.chip.rd (Reg.wheel_WHEEL_STAT r) = wd (s.clk.tod / fineU / 1024 % 1024 * 65536 + s.clk.tod / fineU % 1024) ∧
        ((∀ e ∈ s.chip.sw.wheel, e.reach = r → e.coarse = false) →
          ∀ e ∈ t.chip.sw.wheel, e.reach = r → s.clk.tod < e.tick * fineU)) ∧
      Completes (.wheelReplace r) s (fun t => OnlyChip s t ∧ (∀ e ∈ t.chip.sw.released, e.reach ≠ r) ∧
        ∀ e ∈ t.chip.sw.wheel, e.reach = r →
          (mget t.chip.sw.tat (shpKey r e.idx e.port)).any
            (fun x => decide ((s.clk.tod : Int) < x - shapeTime (t.chip.shaper r e.idx e.port).1 (t.chip.shaper r e.idx e.port).2)) = true) ∧
      Completes (.queueSample r) s (fun t => OnlyChip s t ∧
        ∀ l : Fin 1456, l.val < 1440 ∨ r.val = 0 → t.chip.rdF (Reg.gauge_LAST_DEPTH r l) 23 0 =
          if l.val ∈ s.chip.sampled r then
            min 16777215 (s.chip.qDepth (if l.val < 1440 then 1440 * r.val + l.val else 23040 + (l.val - 1440)))
          else s.chip.rdF (Reg.gauge_LAST_DEPTH r l) 23 0)) ∧
    (∀ (a : Agent) (r : Fin 16), MayWrite s a (Reg.pg_sched r) → s.chip.rdF (Reg.sched_GATE_ADDR r) 14 8 ≤ 71 →
      (s.chip.staging = true → Completes (.gateWrite a r) s fun t => OnlyChip s t ∧
        t.chip.rd (Reg.sched_GATE_STATUS r) = wd stOk ∧
        mrd ⟨0, 0, 0⟩ t.chip.sw.gates (gateKey (!s.chip.bankB) r (s.chip.rdF (Reg.sched_GATE_ADDR r) 14 8) (s.chip.rdF (Reg.sched_GATE_ADDR r) 5 0)) =
          ⟨s.chip.rdF (Reg.sched_GATE_DATA_OPEN r) 29 0, s.chip.rdF (Reg.sched_GATE_DATA_CLOSE r) 29 0, s.chip.rd (Reg.sched_GATE_DATA_MASK r)⟩) ∧
      (s.chip.staging = false → Completes (.gateWrite a r) s (fun t => OnlyChip s t ∧
          t.chip.rd (Reg.sched_GATE_STATUS r) = wd stDenied ∧ t.chip.sw = s.chip.sw) ∧
        Completes (.gateRead a r) s (fun t => OnlyChip s t ∧ t.chip.rd (Reg.sched_GATE_STATUS r) = wd stOk ∧ t.chip.sw = s.chip.sw ∧
          let g := mrd ⟨0, 0, 0⟩ s.chip.sw.gates (gateKey s.chip.bankB r (s.chip.rdF (Reg.sched_GATE_ADDR r) 14 8) (s.chip.rdF (Reg.sched_GATE_ADDR r) 5 0))
          t.chip.rd (Reg.sched_GATE_DATA_OPEN r) = wd g.open_ ∧ t.chip.rd (Reg.sched_GATE_DATA_CLOSE r) = wd g.close ∧
          t.chip.rd (Reg.sched_GATE_DATA_MASK r) = g.ctl))) ∧
    (∀ lp : Fin 1152,
      (∀ g ∈ mget s.chip.sw.oldGates lp, g.switchAt ≤ s.clk.tod →
        Completes (.gateSwitch lp) s fun t => OnlyChip s t ∧ mget t.chip.sw.oldGates lp = none ∧
          t.chip.rdB (Reg.INT_CAUSE (Reg.pg_sched (reachOf lp))) 22 = true) ∧
      (∀ cid ∈ mget s.chip.sw.sending lp, ∀ cp ∈ mget s.chip.sw.copies cid, ∀ e ∈ cp.close, cp.pre = true → cp.tOut < e →
        e < mrd 0 s.chip.sw.wireEnd lp →
        Completes (.gateClosePreempt lp) s fun t => OnlyChip s t ∧
          if s.chip.preemptActive lp then
            (mget t.chip.sw.copies cid).any (fun x => x.pos == .suspended && x.left == mrd 0 s.chip.sw.wireEnd lp - e) = true ∧
            mget t.chip.sw.sending lp = none
          else t.chip.rd (Reg.sched_GATE_OVERRUN_CNT (reachOf lp)) = satAdd (s.chip.rd (Reg.sched_GATE_OVERRUN_CNT (reachOf lp))) 1 ∧
            mget t.chip.sw.sending lp = some cid) ∧
      (∀ x ∈ s.chip.suspendedCopy lp, mget s.chip.sw.sending lp = none → s.chip.fwdUp lp = true →
        (s.chip.gateAt lp (s.clk.tod + s.chip.txDly lp : Nat)).1.holds (lpk x.2.q).2 = false →
        Completes (.preemptResume lp) s fun t => OnlyChip s t ∧ mget t.chip.sw.sending lp = some x.1 ∧
          mrd 0 t.chip.sw.wireEnd lp = ((s.clk.tod + s.chip.txDly lp : Nat) : Int) + x.2.left) ∧
      (∀ ok : Bool, Completes (.preemptVerifyResult lp ok) s fun t => OnlyChip s t ∧
        t.chip.rdF (Reg.sched_PMAC_STAT (reachOf lp) (localOf lp)) 2 0 = (if ok then 3 else 4)))
/-- On an active device: the watchdog of a paused slot with a queued frame storms, shows in PSTAT and counts; a stormed slot
returns by the timer only where WD_RESTORE is not 0, and by WD_CLR always; QCMD loads a queue's QMAX, depth, entries and drops,
stores a QMAX of at most 2^23, clears the drops with READ_CLEAR, and answers BAD_ARG to a greater QMAX; MC_CMD stores a legal
word of the group or member table, journals it, leaves every other word, and loads a word; a word it may not store is BAD_ARG. -/
def Obligations.SwitchCommandsComplete : Prop :=
  ∀ s : State, Active s →
    (∀ (lp : Fin 1152) (k : Fin 3),
      (s.chip.rdB (Reg.switch_PCFG lp) 1 = true → s.chip.slotActs lp k = true →
        s.chip.rxPaused lp (s.chip.slotClass lp k) = true → s.chip.rdB (Reg.switch_PSTAT lp) (16 + k) = false →
        (∃ kc ∈ s.chip.sw.copies, kc.2.lp = lp ∧ kc.2.pos = .queued ∧ cClass kc.2.carry % 8 = s.chip.slotClass lp k) →
        Completes (.wdStorm lp k) s fun t => OnlyChip s t ∧ t.chip.rdB (Reg.switch_PSTAT lp) (16 + k) = true ∧
          t.chip.rd Reg.switch_WD_STORM_CNT = satAdd (s.chip.rd Reg.switch_WD_STORM_CNT) 1 ∧ bit (t.chip.cause 0x220) 26 = true) ∧
      (s.chip.rdB (Reg.switch_PSTAT lp) (16 + k) = true →
        Completes (.wdRestore lp k) s (fun t => OnlyChip s t ∧
          t.chip.rdB (Reg.switch_PSTAT lp) (16 + k) = decide (s.chip.rdF Reg.switch_WD_TIME 31 16 = 0)) ∧
        ∀ a : Agent, MayWrite s a 0x220 → Completes (.wdClr a lp k) s fun t => OnlyChip s t ∧
          t.chip.rdB (Reg.switch_PSTAT lp) (16 + k) = false ∧ t.chip.rdB (Reg.INT_CAUSE 0x220) 25 = true)) ∧
    (∀ (a : Agent) (q : Fin 23056), MayWrite s a 0x220 →
      Completes (.qcmdRead a q) s (fun t => OnlyChip s t ∧ t.chip.sw = s.chip.sw ∧ t.chip.rd Reg.switch_QSTATUS = wd stOk ∧
        t.chip.rd Reg.switch_QDATA0 = wd (s.chip.queue q).qmax ∧ t.chip.rd Reg.switch_QDATA1 = wd (s.chip.qDepth q % 16777216) ∧
        t.chip.rd Reg.switch_QDATA2 = wd (s.chip.queue q).entries.length ∧ t.chip.rd Reg.switch_QDATA3 = wd (s.chip.queue q).drops) ∧
      Completes (.qcmdReadClear a q) s (fun t => OnlyChip s t ∧ t.chip.rd Reg.switch_QSTATUS = wd stOk ∧
        t.chip.rd Reg.switch_QDATA3 = wd (s.chip.queue q).drops ∧ (t.chip.queue q).drops = 0 ∧
        (t.chip.queue q).entries = (s.chip.queue q).entries ∧ (t.chip.queue q).qmax = (s.chip.queue q).qmax) ∧
      Completes (.qcmdWrite a q) s (fun t => OnlyChip s t ∧
        (t.chip.queue q).entries = (s.chip.queue q).entries ∧
        if s.chip.rdF Reg.switch_QDATA0 23 0 ≤ 0x800000 then
          t.chip.rd Reg.switch_QSTATUS = wd stOk ∧ (t.chip.queue q).qmax = s.chip.rdF Reg.switch_QDATA0 23 0
        else t.chip.rd Reg.switch_QSTATUS = wd stBadArg ∧ t.chip.sw = s.chip.sw)) ∧
    (∀ (a : Agent) (ix : BitVec 17), MayWrite s a 0x222 → s.chip.faulted 0x222 = false →
      (mcBad true ix.toNat (s.chip.rd Reg.mcast_MC_DATA) = true →
        Completes (.mcWriteGroup a ix) s fun t => OnlyChip s t ∧ t.chip.rd Reg.mcast_MC_STATUS = wd stBadArg ∧ t.chip.sw = s.chip.sw) ∧
      (mcBad false ix.toNat (s.chip.rd Reg.mcast_MC_DATA) = true →
        Completes (.mcWriteMember a ix) s fun t => OnlyChip s t ∧ t.chip.rd Reg.mcast_MC_STATUS = wd stBadArg ∧ t.chip.sw = s.chip.sw) ∧
      (s.chip.rdB Reg.epoch_JNL_STAT 30 = false → s.chip.ep.journal.length + s.chip.ep.reserved < jnlMax →
        (mcBad true ix.toNat (s.chip.rd Reg.mcast_MC_DATA) = false →
          Completes (.mcWriteGroup a ix) s fun t => OnlyChip s t ∧ t.chip.rd Reg.mcast_MC_STATUS = wd stOk ∧
            t.chip.ep.journal.length = s.chip.ep.journal.length + 1 ∧ t.chip.sw.members = s.chip.sw.members ∧
            ∀ j : BitVec 17, mrd 0 t.chip.sw.groups j.toNat =
              if j = ix then s.chip.rd Reg.mcast_MC_DATA else mrd 0 s.chip.sw.groups j.toNat) ∧
        (mcBad false ix.toNat (s.chip.rd Reg.mcast_MC_DATA) = false →
          Completes (.mcWriteMember a ix) s fun t => OnlyChip s t ∧ t.chip.rd Reg.mcast_MC_STATUS = wd stOk ∧
            t.chip.ep.journal.length = s.chip.ep.journal.length + 1 ∧ t.chip.sw.groups = s.chip.sw.groups ∧
            ∀ j : BitVec 17, mrd 0 t.chip.sw.members j.toNat =
              if j = ix then s.chip.rd Reg.mcast_MC_DATA else mrd 0 s.chip.sw.members j.toNat)) ∧
      (ix.toNat < 16384 → mget s.chip.upsets (upKey 0x222 0 ix.toNat) = none →
        Completes (.mcReadGroup a ix) s fun t => OnlyChip s t ∧ t.chip.rd Reg.mcast_MC_STATUS = wd stOk ∧ t.chip.sw = s.chip.sw ∧
          t.chip.rd Reg.mcast_MC_DATA = mrd 0 s.chip.sw.groups ix.toNat) ∧
      (mget s.chip.upsets (upKey 0x222 1 ix.toNat) = none →
        Completes (.mcReadMember a ix) s fun t => OnlyChip s t ∧ t.chip.rd Reg.mcast_MC_STATUS = wd stOk ∧ t.chip.sw = s.chip.sw ∧
          t.chip.rd Reg.mcast_MC_DATA = mrd 0 s.chip.sw.members ix.toNat))
/-- On an active device: a fatal fault of a block that has none sets FAULT and FATAL_EV, counts, and is captured by FIRST_FATAL
when no capture is held; a weir takes none; a running sluice aborts; a fault of a table's lookup path is remembered; DLINK_CMD is DENIED to
an agent other than 1, and for agent 1 it restores a die link that trains, answers TIMEOUT where it does not, and BAD_ARG to a
link above 7; an upset is remembered by page, memory and word. -/
def Obligations.FaultCommandsComplete : Prop :=
  ∀ s : State, Active s →
    (∀ (pg : Nat) (lookup : Bool), ∀ k ∈ Reg.kindOf pg,
      (k = .weir → Completes (.fatalFault pg lookup) s fun t => t = s) ∧
      (k ≠ .weir → k ≠ .sluice → s.chip.faulted pg = false → Completes (.fatalFault pg lookup) s fun t =>
        t.chip.faulted pg = true ∧ t.chip.rdB (Reg.INT_CAUSE pg) 31 = true ∧
        (s.chip.rdB Reg.fault_FIRST_FATAL 31 = false → t.chip.rdB Reg.fault_FIRST_FATAL 31 = true ∧
          t.chip.rdF Reg.fault_FIRST_FATAL 11 0 = pg ∧ t.chip.rd Reg.fault_FIRST_FATAL_NS = wd (todNs s.clk.tod)) ∧
        (k = .em ∨ k = .pfx ∨ k = .lb ∨ k = .mcast →
          t.chip.tbl.lookupFault.contains pg = (lookup || s.chip.tbl.lookupFault.contains pg))) ∧
      (k = .sluice → s.chip.faulted pg = false → s.chip.sluState ((pg - 0x120) / 16) = 3 → s.chip.slu.s.length = 16 →
        Completes (.fatalFault pg lookup) s fun t => t.chip.sluState ((pg - 0x120) / 16) = 4 ∧ t.chip.faulted pg = true)) ∧
    (∀ (v : Word) (trained : Bool), bit v 31 = true → v &&& ~~~ 0x8000000F = 0 →
      (∀ a : Agent, a.num ≠ 1 → MayWrite s a 0x008 →
        Completes (.dlinkCmd a v trained) s fun t => OnlyChip s t ∧ t.chip.rd Reg.fault_DLINK_STATUS = wd stDenied ∧
          t.chip.links = s.chip.links) ∧
      (∀ a : Agent, a.num = 1 → MayWrite s a 0x008 →
        Completes (.dlinkCmd a v trained) s fun t =>
          if 7 < fld v 3 0 then t.chip.rd Reg.fault_DLINK_STATUS = wd stBadArg ∧ t.chip.links = s.chip.links
          else if trained then t.chip.rd Reg.fault_DLINK_STATUS = wd stOk ∧
            t.chip.links.dieFail.contains (fld v 3 0) = false ∧ t.chip.rdB Reg.fault_DLINK_STAT (fld v 3 0) = false ∧
            t.chip.rdB Reg.fault_DLINK_STAT (16 + fld v 3 0) = true
          else t.chip.rd Reg.fault_DLINK_STATUS = wd stTimeout ∧ t.chip.links = s.chip.links)) ∧
    (∀ (pg mem word : Nat) (unc stuck : Bool) (bitpos : Byte) (synd : BitVec 16),
      Completes (.storageUpset pg mem word unc stuck bitpos synd) s fun t => OnlyChip s t ∧ t.chip.regs = s.chip.regs ∧
        if pg = 0x240 ∧ mem = 2 then
          mrd 0 t.chip.flm.errs word = (if unc ∨ mrd 0 s.chip.flm.errs word ≠ 0 then 2 else 1) ∧ t.chip.upsets = s.chip.upsets
        else (mget t.chip.upsets (upKey pg mem word)).any
            (fun u => u.synd == synd.toNat && (u.unc || !unc) && (u.stuck || !stuck)) = true ∧
          t.chip.flm = s.chip.flm)
/-- On an active device: FL_PART takes a legal partition and keeps the service region, and refuses another with PART_ERR_EV; a
marked copy whose frame is complete leaves the marked state, and is written with its buffers freed where its buffers hold no
error and pages are free; a written copy of a queue below its low threshold asks for buffers; a returning copy that has its
buffers comes back with the bytes its cells hold; patrol moves one unit; the failure of D8 or D9 faults the controller and
drops every spilled copy; a drained or timed-out controller enters self-refresh. -/
def Obligations.FlumeCommandsComplete : Prop :=
  ∀ s : State, Active s →
    (∀ (a : Agent) (v : Word), MayWrite s a 0x240 → v &&& ~~~ 0x3F3F3F3F = 0 →
      Completes (.flPartWrite a v) s fun t => OnlyChip s t ∧
        if s.chip.partOk v then t.chip.rd Reg.flume_FL_PART = v &&& 0x3F3F3F3F ∧
          ∀ u < 64 * s.chip.flBase 1, mget t.chip.flm.mem u = mget s.chip.flm.mem u
        else t.chip.rd Reg.flume_FL_PART = s.chip.rd Reg.flume_FL_PART ∧ t.chip.flm = s.chip.flm ∧
          t.chip.rdB (Reg.INT_CAUSE 0x240) 25 = true) ∧
    (∀ q : Fin 23056,
      (∀ x ∈ s.chip.segFirst q (· == .marked), ∀ f ∈ mget s.chip.frames x.2.fid, f.complete = true → s.chip.flReady = true →
        Completes (.spillWrite q) s fun t => OnlyChip s t ∧
          (∀ y ∈ mget t.chip.sw.copies x.1, y.spill ≠ .marked ∧
            (y.spill.isWritten = true → ∀ g ∈ mget t.chip.frames y.fid, g.bufs = [])) ∧
          (s.chip.upsets = [] → s.chip.flm.pages = [] → s.chip.flGib 3 ≠ 0 → f.stored ≤ 16383 →
            (mget t.chip.sw.copies x.1).any (·.spill.isWritten) = true)) ∧
      (q.val < 23040 → s.chip.flReady = true → ∀ x ∈ s.chip.segFirst q SpillPos.isWritten, (mget s.chip.frames x.2.fid).isSome = true →
        s.chip.onDie q < s.chip.rdF (Reg.spill_SPILL_TH_LO (s.chip.rdF (Reg.spill_SPILL_PROF (q / 20)) 18 16)) 23 0 →
        Completes (.spillReturn q) s fun t => OnlyChip s t ∧ t.chip.flm.returning.contains q.val = true ∧
          (mget t.chip.sw.copies x.1).any (·.spill.isReturning) = true) ∧
      (∀ x ∈ s.chip.segFirst q SpillPos.isReturning, ∀ f ∈ mget s.chip.frames x.2.fid, s.chip.flReady = true →
        s.chip.waits x.2.fid = false → f.bufs ≠ [] → f.stored ≤ f.room → s.chip.flm.errs = [] →
        Completes (.spillReturnDone q) s fun t => OnlyChip s t ∧
          (mget t.chip.sw.copies x.1).any (·.spill == .none) = true ∧
          ∀ pg c n : Nat, x.2.spill = .returning [(pg, c, n)] → f.stored ≤ 64 * n →
            (mget t.chip.frames x.2.fid).any
              (fun g => g.bytes.take f.stored == (s.chip.flBytes (s.chip.spillAddr pg c) (64 * n)).take f.stored) = true)) ∧
    (s.chip.rdB Reg.flume_PATROL_CTL 31 = true → s.chip.flReady = true → s.chip.pwr.flStep = 0 → s.chip.pwr.flumeHot = false →
      s.chip.flm.patrol < 0x30000000 →
      Completes .patrolRead s fun t => OnlyChip s t ∧ t.chip.flm.patrol = (s.chip.flm.patrol + 1) % 0x30000000 ∧
        (mrd 0 s.chip.flm.errs s.chip.flm.patrol = 1 → mrd 0 t.chip.flm.errs s.chip.flm.patrol = 0)) ∧
    (∀ d : Fin 2,
      Completes (.flumeLinkFail d) s fun t => OnlyChip s t ∧ t.chip.flm.linkFail = true ∧ t.chip.faulted 0x240 = true ∧
        t.chip.rdB Reg.fault_DLINK_STAT (8 + d) = true ∧
        ∀ kc ∈ t.chip.sw.copies, kc.2.spill.isWritten = false ∧ kc.2.spill.isReturning = false) ∧
    (s.chip.flm.pstate = 1 →
      Completes .flumeDrainDone s (fun t => OnlyChip s t ∧ t.chip.flm.pstate = 2 ∧ t.chip.rdF Reg.flume_FL_STAT 9 8 = 3) ∧
      Completes .flumeDrainTimeout s (fun t => OnlyChip s t ∧ t.chip.flm.pstate = 2 ∧
        ∀ u ∈ t.chip.slu.s, ∀ r ∈ u.reqs, (r.op = 3 ∨ r.op = 4) → r.status.isSome = true))
/-- On an active device: a frame at an UP port that receives none is counted when too short or too long, and otherwise enters
the device as received, stamped, waiting for its walk; its walk puts the header in the header queue unless an exception drops
it; its first buffer and its chain are requested; a waiting request is granted, or times out and counts; a frame longer than its
length fails; its end is counted good or bad; a due header leaves recirculation; a beat moves every ingress bundle one weir on
and counts the beats passed. -/
def Obligations.IngressCommandsComplete : Prop :=
  ∀ s : State, Active s →
    (∀ (lp : Fin 1152) (b : List Byte), s.chip.lpActive lp = true → s.chip.linkSt lp = 7 ∨ s.chip.linkSt lp = 8 →
      s.chip.receiving lp = none →
      (b.length < 64 → Completes (.frameReceive lp b) s fun t => OnlyChip s t ∧ t.chip.frames = s.chip.frames ∧
        t.chip.rd (Reg.port_RX_UNDERSIZE_CNT (lp / 8) (lp % 8)) = satAdd (s.chip.rd (Reg.port_RX_UNDERSIZE_CNT (lp / 8) (lp % 8))) 1) ∧
      (64 ≤ b.length → s.chip.maxLen lp < b.length → Completes (.frameReceive lp b) s fun t => OnlyChip s t ∧ t.chip.frames = s.chip.frames ∧
        t.chip.rd (Reg.port_RX_OVERSIZE_CNT (lp / 8) (lp % 8)) = satAdd (s.chip.rd (Reg.port_RX_OVERSIZE_CNT (lp / 8) (lp % 8))) 1) ∧
      (64 ≤ b.length → b.length ≤ s.chip.maxLen lp → beNat (slice b 12 2) ≠ 0x8808 → s.chip.msc lp 30 30 = 0 →
        Completes (.frameReceive lp b) s fun t => OnlyChip s t ∧ t.chip.nextFrame = s.chip.nextFrame + 1 ∧
          (mget t.chip.frames s.chip.nextFrame).any (fun f => f.inLp == lp.val && f.bytes == b && f.pos == .mac && !f.ended &&
            f.reach == reachOf lp && f.tIn == s.chip.ingressTime s.clk lp) = true)) ∧
    (∀ lp : Fin 1152, ∀ fid ∈ s.chip.receiving lp, ∀ f ∈ mget s.chip.frames fid,
      Completes (.frameEnd lp) s fun t => t.pending = s.pending ∧ t.aux = s.aux ∧ t.clk = s.clk ∧
        (∀ g ∈ mget t.chip.frames fid, g.ended = true) ∧
        if f.fecBad then
          t.chip.rd (Reg.port_RX_FCS_ERR_CNT (lp / 8) (lp % 8)) = satAdd (s.chip.rd (Reg.port_RX_FCS_ERR_CNT (lp / 8) (lp % 8))) 1
        else t.chip.rd (Reg.port_RX_OK_CNT_LO (lp / 8) (lp % 8)) = s.chip.rd (Reg.port_RX_OK_CNT_LO (lp / 8) (lp % 8)) + 1) ∧
    (∀ src : Fin 1169,
      (∀ kf ∈ s.chip.frames.find? (fun kf => kf.2.inLp == src.val && kf.2.pos == .mac), src.val < 1152 → kf.2.reach < 16 →
        s.chip.reaches.length = 16 → (s.chip.reach kf.2.reach).hq.length < 512 → s.chip.upsets = [] →
        s.chip.faulted (Reg.pg_parser kf.2.reach) = false → s.chip.inReset (Reg.pg_parser kf.2.reach) = false →
        Completes (.parseWalk src) s fun t => OnlyChip s t ∧
          (∀ g ∈ mget t.chip.frames kf.1, g.pos = .queue ∧ (t.chip.reach kf.2.reach).hq.contains kf.1 = true ∨ g.pos = .done) ∧
          ((s.chip.walk s.chip.bankB kf.2).exc = 0 → (mget t.chip.frames kf.1).any (·.pos == .queue) = true)) ∧
      (∀ fid ∈ s.chip.frameOf src s.chip.isLong, ∀ f ∈ mget s.chip.frames fid, s.chip.isLong f = true →
        Completes (.lengthMismatch src) s fun t => OnlyChip s t ∧
          t.chip.rd Reg.bufmgr_LEN_LONG_CNT = satAdd (s.chip.rd Reg.bufmgr_LEN_LONG_CNT) 1 ∧
          (mget t.chip.frames fid).all (·.failed == some drLength) = true) ∧
      (∀ fid ∈ s.chip.frameOf src (fun f => !f.asked && (f.pos != .mac || decide (1152 ≤ src.val)) && f.pos != .done),
        ∀ f ∈ mget s.chip.frames fid, s.chip.bmReady = true → s.chip.upsets = [] → f.asked = false → f.pos = .queue → f.ended = false → f.inLp = src →
        s.chip.slotOf f.inLp f.arrClass = none → s.chip.grantable (s.chip.poolOf f) false = true →
        (f.inLp < 1152 ∨ s.chip.fbOn (s.chip.poolOf f) 1 = false) →
        Completes (.bufferAlloc src) s fun t => OnlyChip s t ∧
          (mget t.chip.frames fid).any (fun g => g.asked && g.bufs != f.bufs) = true) ∧
      (∀ fid ∈ s.chip.frameOf src (fun f => !f.bufs.isEmpty && !f.ended), ∀ f ∈ mget s.chip.frames fid,
        f.bufs ≠ [] → f.ended = false → f.arrived ≤ f.room →
        Completes (.chainBufferRequest src) s fun t => OnlyChip s t ∧
          (mget t.chip.frames fid).all (fun g => g.arrived == f.room + 1) = true) ∧
      (∀ fid ∈ s.chip.waitingOf src, (mget s.chip.frames fid).isSome = true →
        Completes (.noBufferTimeout src) s fun t => OnlyChip s t ∧
          t.chip.rd Reg.bufmgr_NO_BUF_CNT = satAdd (s.chip.rd Reg.bufmgr_NO_BUF_CNT) 1 ∧
          t.chip.buf.waiting.length < s.chip.buf.waiting.length)) ∧
    (∀ p : Fin 3, (∃ r ∈ s.chip.buf.waiting, r.pool = p ∧ s.chip.reqReady r = true) → s.chip.upsets = [] →
      (∀ r ∈ s.chip.buf.waiting, (mget s.chip.frames r.fid).isSome = true) →
      Completes (.poolEmptyGrant p) s fun t => OnlyChip s t ∧
        ∃ r ∈ s.chip.buf.waiting, r.pool = p ∧ (mget t.chip.frames r.fid).any
          (fun g => (mget s.chip.frames r.fid).any fun f => decide (f.bufs.length < g.bufs.length)) = true) ∧
    (∀ r : Fin 16, ∀ kf ∈ s.chip.frames.find? (fun kf => kf.2.reach == r.val && kf.2.pos == .recirc && decide (kf.2.readyAt ≤ s.chip.clockIx s.clk)),
      s.chip.reaches.length = 16 → (s.chip.reach r).hq.length < 512 →
      Completes (.recircReady r) s fun t => OnlyChip s t ∧ (mget t.chip.frames kf.1).all (·.pos == .queue) = true ∧
        (t.chip.reach r).hq = (s.chip.reach r).hq ++ [kf.1]) ∧
    Completes .beatBoundary s (fun t => t.pending = s.pending ∧ t.aux = s.aux ∧ t.vault = s.vault ∧
      t.chip.beat = s.chip.beat + (t.chip.lastBeat - s.chip.lastBeat) / s.chip.beatUnits ∧
      s.chip.lastBeat < t.chip.lastBeat ∧ t.chip.lastBeat ≤ t.clk.now ∧ s.clk.now ≤ t.clk.now ∧
      ∀ (r : Fin 16) (w : Fin 9), (t.chip.reach r).ing[w.val + 1]? = (s.chip.reach r).ing[w.val]?)

/-- On an active device: the oldest admitted copy joins the tail of its queue where its port is forwarding up, and is dropped
otherwise; the next copy of a port whose wire is free starts with its bytes as they are where neither MACsec, PTP nor an error
acts on it; the end of a transmission sends the frame, counts it and ends the copy; the earliest held copy leaves the hold when
its boundary has come; a flush ends every copy of the port that is queued or begun and clears FLUSHING. -/
def Obligations.EgressCommandsComplete : Prop :=
  ∀ s : State, Active s →
    (∀ cid ∈ s.chip.toLink, ∀ cp ∈ mget s.chip.sw.copies cid, cp.pos = .linking →
      Completes .copyLink s fun t => OnlyChip s t ∧
        if s.chip.fwdUp cp.lp then
          (t.chip.queue cp.q).entries = (s.chip.queue cp.q).entries ++ [cid] ∧
          (mget t.chip.sw.copies cid).any (fun x => x.pos == .queued && x.linkTime == s.clk.tod) = true
        else mget t.chip.sw.copies cid = none ∧ (t.chip.queue cp.q).drops = clampTo 0xFFFFFFFF ((s.chip.queue cp.q).drops + 1)) ∧
    (∀ lp : Fin 1152,
      (∀ x ∈ s.chip.nextOut lp, ∀ f ∈ mget s.chip.frames x.2.fid, mget s.chip.sw.copies x.1 = some x.2 → x.2.pos = .ready →
        s.chip.lpActive lp = true → s.chip.asleep lp = false → s.chip.levelOf x.2 = none → mget s.chip.sw.sending lp = none →
        s.chip.mscTx lp = false → ptpHeader (x.2.out.take (x.2.out.length - 4)) = none → s.chip.upsets = [] → f.failed = none →
        Completes (.transmitStart lp) s fun t => OnlyChip s t ∧ mget t.chip.sw.sending lp = some x.1 ∧
          (mget t.chip.sw.copies x.1).any (fun y => y.pos == .sending &&
            y.out == x.2.out.take (x.2.out.length - 4) ++ fcsOf (x.2.out.take (x.2.out.length - 4))) = true) ∧
      (∀ cid ∈ mget s.chip.sw.sending lp, ∀ cp ∈ mget s.chip.sw.copies cid, cp.lp = lp →
        Completes (.copyTransmitEnd lp) s fun t => OnlyChip s t ∧ mget t.chip.sw.copies cid = none ∧
          mget t.chip.sw.sending lp = none ∧ t.chip.out.contains (.frame lp cp.out false) = true ∧
          t.chip.rd (Reg.port_TX_OK_CNT_LO (lp / 8) (lp % 8)) = s.chip.rd (Reg.port_TX_OK_CNT_LO (lp / 8) (lp % 8)) + 1) ∧
      (∀ x ∈ s.chip.heldCopy lp, ∀ g ∈ x.2.level, mget s.chip.sw.copies x.1 = some x.2 →
        g.2 < ((s.clk.tod + s.chip.delta s.clk lp : Nat) : Int) + 2 * (s.chip.beatT s.clk : Nat) →
        Completes (.levelHoldRelease lp) s fun t => OnlyChip s t ∧ t.chip.sw.hold.contains x.1 = false ∧
          (mget t.chip.sw.copies x.1).all (fun y => y.pos == .ready) = true) ∧
      (s.chip.flushing lp = true →
        Completes (.flushDone lp) s fun t => OnlyChip s t ∧ t.chip.flushing lp = false ∧ bit (t.chip.cause 0x220) 27 = true ∧
          ∀ kc ∈ t.chip.sw.copies, kc.2.lp = lp → kc.2.pos ≠ .queued ∧ kc.2.begun = false))
/-- On an active device, for a command whose instance serves it and hands no INSERT to S3, with candidate buckets not locked and
a free journal record: INSERT of an absent key puts KEY and DATA in the free slot of R182 and changes no other slot, or is FULL or
goes to S3 where there is none; DELETE frees the slot; READ answers the entry; UPDATE stores DATA under CTL_MASK and SWAP
answers the old entry too; SEARCH answers the next valid entry from LOC or NOT_FOUND; AGE makes the aging step; on an absent
key each of them answers NOT_FOUND. -/
def Obligations.ExactMatchKeyedCommandsComplete : Prop :=
  ∀ (s : State) (src : TblSrc), Active s → s.tblOpen src 0x231 Reg.em_TBL_CMD = true → s.chip.jnlOpen = true →
    (∀ op : Fin 8, s.chip.emAdmit (s.emCmdOf src op) = stOk → mget s.chip.tbl.emPend (blkInst (s.emCmdOf src op).blk) = none →
      let blk := (s.emCmdOf src op).blk
      let ix := blkInst blk
      let key := slice blk 8 16
      (op.val = 1 → s.chip.emKeyLocked ix key = false → s.chip.emFind ix key = none →
        (∀ p ∈ s.chip.emFree ix key, Completes (.emInsert src) s fun t => OnlyChip s t ∧
          t.chip.emFind ix key = some p ∧ (t.chip.emSlot ix p.1 p.2).data = slice blk 24 16 ∧
          (t.chip.emAnswer src).1 = stOk ∧ (t.chip.emAnswer src).2.2 = mkLoc p.1 p.2 ∧
          EmOthers s t [s.chip.emGlobal ix p.1 * 8 + p.2]) ∧
        (s.chip.emFree ix key = none → Completes (.emInsert src) s fun t => OnlyChip s t ∧ EmOthers s t [] ∧
          if s.chip.rdB (Reg.em_EM_CFG ix) 28 ∨ s.chip.serves 3 = false then
            (t.chip.emAnswer src).1 = stFull ∧
            t.chip.rd Reg.em_INSERT_FULL_CNT = satAdd (s.chip.rd Reg.em_INSERT_FULL_CNT) 1
          else (mget t.chip.tbl.emPend ix).isSome = true)) ∧
      (s.chip.emKeyLocked ix key = false → s.chip.emFind ix key = none →
        (op.val = 2 → Completes (.emDelete src) s fun t => OnlyChip s t ∧ EmOthers s t [] ∧ (t.chip.emAnswer src).1 = stNotFound) ∧
        (op.val = 3 → Completes (.emRead src) s fun t => OnlyChip s t ∧ EmOthers s t [] ∧ (t.chip.emAnswer src).1 = stNotFound) ∧
        (op.val = 4 → Completes (.emUpdate src) s fun t => OnlyChip s t ∧ EmOthers s t [] ∧ (t.chip.emAnswer src).1 = stNotFound) ∧
        (op.val = 5 → Completes (.emSwap src) s fun t => OnlyChip s t ∧ EmOthers s t [] ∧ (t.chip.emAnswer src).1 = stNotFound) ∧
        (op.val = 7 → Completes (.emAge src) s fun t => OnlyChip s t ∧ EmOthers s t [] ∧ (t.chip.emAnswer src).1 = stNotFound)) ∧
      (s.chip.emKeyLocked ix key = false → ∀ p ∈ s.chip.emFind ix key,
        (op.val = 2 → Completes (.emDelete src) s fun t => OnlyChip s t ∧ (t.chip.emSlot ix p.1 p.2).valid = false ∧
          t.chip.emAnswer src = (stOk, (s.chip.emSlot ix p.1 p.2).word, mkLoc p.1 p.2) ∧
          EmOthers s t [s.chip.emGlobal ix p.1 * 8 + p.2]) ∧
        (op.val = 3 → Completes (.emRead src) s fun t => OnlyChip s t ∧ EmOthers s t [] ∧
          t.chip.emAnswer src = (stOk, (s.chip.emSlot ix p.1 p.2).word, mkLoc p.1 p.2)) ∧
        (op.val = 4 → Completes (.emUpdate src) s fun t => OnlyChip s t ∧ (t.chip.emAnswer src).1 = stOk ∧
          t.chip.emSlot ix p.1 p.2 = ⟨(s.chip.emSlot ix p.1 p.2).key, slice blk 24 16,
            ctlMasked (s.chip.emSlot ix p.1 p.2).ctl (BitVec.ofNat 64 (blkNat blk 40 8)) (BitVec.ofNat 64 (blkNat blk 48 8))⟩ ∧
          EmOthers s t [s.chip.emGlobal ix p.1 * 8 + p.2]) ∧
        (op.val = 5 → Completes (.emSwap src) s fun t => OnlyChip s t ∧
          t.chip.emAnswer src = (stOk, (s.chip.emSlot ix p.1 p.2).word, mkLoc p.1 p.2) ∧
          (t.chip.emSlot ix p.1 p.2).data = slice blk 24 16 ∧ EmOthers s t [s.chip.emGlobal ix p.1 * 8 + p.2]) ∧
        (op.val = 7 → Completes (.emAge src) s fun t => OnlyChip s t ∧ (t.chip.emAnswer src).1 = stOk ∧
          t.chip.emSlot ix p.1 p.2 = (ageStep (blkArg blk % 256) (s.chip.emSlot ix p.1 p.2)).1.getD {} ∧
          EmOthers s t [s.chip.emGlobal ix p.1 * 8 + p.2])) ∧
      (op.val = 6 → s.chip.emLockOf ix (locBucket (blkLoc blk)) = none → Completes (.emSearch src) s fun t => OnlyChip s t ∧ EmOthers s t [] ∧
        (firstValid (s.chip.emGlobal ix 0 * 8 + blkLoc blk) (s.chip.emGlobal ix 0 * 8 + s.chip.emN ix * 16) s.chip.tbl.em).elim
          ((t.chip.emAnswer src).1 = stNotFound)
          fun kv => t.chip.emAnswer src = (stOk, kv.2.word, kv.1 - s.chip.emGlobal ix 0 * 8)))

/-- On an active device, for a command whose instance serves it: LOCK of a free bucket with fewer than 16 held takes the lock and
keeps the image that lookups read; WRITE_SLOT by the holder, in a candidate bucket of its key and with the key nowhere else, writes the
slot and leaves what lookups read; UNLOCK by the holder releases the bucket; RELOCATE by S3 moves the entry to a free slot of its
other bucket; an INSERT that S3 holds completes; a lock held too long returns its bucket to the image and owes its agent TIMEOUT;
EM_GEOM enables a legal range, cleared, and refuses another; the clear ends. -/
def Obligations.ExactMatchLockCommandsComplete : Prop :=
  ∀ s : State, Active s →
    (∀ (src : TblSrc) (op : Fin 12), s.tblOpen src 0x231 Reg.em_TBL_CMD = true → s.chip.jnlOpen = true →
      s.chip.emAdmit (s.emCmdOf src op) = stOk → mget s.chip.tbl.emPend (blkInst (s.emCmdOf src op).blk) = none →
      let blk := (s.emCmdOf src op).blk
      let who := (s.emCmdOf src op).agent
      let ix := blkInst blk
      let b := locBucket (blkLoc blk)
      let sl := locSlot (blkLoc blk)
      (op.val = 8 → s.chip.emLockOf ix b = none → s.chip.emLocks ix < 16 → Completes (.emLockBucket src) s fun t => OnlyChip s t ∧
        (t.chip.emAnswer src).1 = stOk ∧ EmOthers s t [] ∧
        t.chip.emLockOf ix b = some ⟨who, (List.range 8).map (s.chip.emSlot ix b)⟩) ∧
      (op.val = 9 → s.chip.emHolds ix b who = true → (blkNat blk 40 8).testBit 63 = true →
        b = s.chip.emCand ix 0 (slice blk 8 16) ∨ b = s.chip.emCand ix 1 (slice blk 8 16) →
        s.chip.emFind ix (slice blk 8 16) = none ∨ s.chip.emFind ix (slice blk 8 16) = some (b, sl) →
        Completes (.emWriteSlot src) s fun t => OnlyChip s t ∧ (t.chip.emAnswer src).1 = stOk ∧
          t.chip.emSlot ix b sl = ⟨slice blk 8 16, slice blk 24 16, BitVec.ofNat 64 (blkNat blk 40 8)⟩ ∧
          (∀ m : Fin 8, t.chip.emView ix b m = s.chip.emView ix b m) ∧ EmOthers s t [s.chip.emGlobal ix b * 8 + sl]) ∧
      (op.val = 10 → s.chip.emHolds ix b who = true → blkArg blk < 0x80000000 → Completes (.emUnlock src) s fun t => OnlyChip s t ∧
        (t.chip.emAnswer src).1 = stOk ∧ t.chip.emLockOf ix b = none ∧ EmOthers s t []) ∧
      (op.val = 11 → s.chip.emLockOf ix b = none → s.chip.emLockOf ix (locBucket (blkArg blk)) = none →
        (s.chip.emSlot ix b sl).valid = true → locBucket (blkArg blk) = s.chip.emOther ix b (s.chip.emSlot ix b sl) →
        (s.chip.emSlot ix (locBucket (blkArg blk)) (locSlot (blkArg blk))).valid = false →
        Completes (.emRelocate src) s fun t => OnlyChip s t ∧ (t.chip.emAnswer src).1 = stOk ∧
          (t.chip.emSlot ix (locBucket (blkArg blk)) (locSlot (blkArg blk))).key = (s.chip.emSlot ix b sl).key ∧
          (t.chip.emSlot ix (locBucket (blkArg blk)) (locSlot (blkArg blk))).data = (s.chip.emSlot ix b sl).data ∧
          (t.chip.emSlot ix (locBucket (blkArg blk)) (locSlot (blkArg blk))).valid = true ∧
          (t.chip.emSlot ix b sl).valid = false ∧
          t.chip.rd Reg.em_RELOC_CNT = satAdd (s.chip.rd Reg.em_RELOC_CNT) 1)) ∧
    (∀ ix : Fin 16, (mget s.chip.tbl.emPend ix).isSome = true → mget s.chip.tbl.emWait ix = none →
      Completes (.emInsertRelocate ix) s fun t => OnlyChip s t ∧ mget t.chip.tbl.emPend ix = none ∧
        (∀ cmd ∈ mget s.chip.tbl.emPend ix, s.chip.serves 3 = true → s.chip.emKeyLocked ix (slice cmd.blk 8 16) = false →
          ∀ p ∈ s.chip.emFree ix (slice cmd.blk 8 16),
            (t.chip.emSlot ix p.1 p.2).key = slice cmd.blk 8 16 ∧ (t.chip.emSlot ix p.1 p.2).valid = true)) ∧
    (∀ (ix : Fin 16) (b : Nat), b < 262144 → ∀ l ∈ s.chip.emLockOf ix b,
      Completes (.bucketLockTimeout ix b) s fun t => OnlyChip s t ∧ t.chip.emLockOf ix b = none ∧
        (∀ m : Fin 8, t.chip.emSlot ix b m = l.image[m.val]?.getD {}) ∧
        t.chip.tbl.owed.contains (lockKey ix b, l.agent) = true ∧
        t.chip.rd Reg.em_LOCK_TMO_CNT = satAdd (s.chip.rd Reg.em_LOCK_TMO_CNT) 1) ∧
    (∀ (a : Agent) (ix : Fin 16) (v : Word), MayWrite s a 0x231 → v &&& ~~~ 0x81FF00FF = 0 →
      (s.chip.emEn ix = false → Completes (.emGeomWrite a ix v) s fun t => OnlyChip s t ∧
        if bit v 31 = false then t.chip.rd (Reg.em_EM_GEOM ix) = v
        else if fld v 24 16 = 0 ∨ 256 < fld v 7 0 + fld v 24 16 ∨ s.chip.emOverlap ix (fld v 7 0) (fld v 24 16) then
          t.chip.rd (Reg.em_EM_GEOM ix) = s.chip.rd (Reg.em_EM_GEOM ix) ∧ t.chip.rdB (Reg.INT_CAUSE 0x231) 23 = true
        else t.chip.rd (Reg.em_EM_GEOM ix) = v ∧ t.chip.tbl.emClearing.contains ix.val = true ∧
          ∀ n : Nat, mrd {} t.chip.tbl.em n =
            if fld v 7 0 * 8192 ≤ n ∧ n < (fld v 7 0 + fld v 24 16) * 8192 then {} else mrd {} s.chip.tbl.em n) ∧
      (s.chip.emEn ix = true → bit v 31 = false → Completes (.emGeomWrite a ix v) s fun t => OnlyChip s t ∧
        t.chip.emEn ix = false ∧ t.chip.emSize ix = s.chip.emSize ix ∧ t.chip.emBase ix = s.chip.emBase ix)) ∧
    (∀ ix : Fin 16, Completes (.emClearDone ix) s fun t => OnlyChip s t ∧ t.chip.tbl.emClearing.contains ix.val = false ∧
      t.chip.emReady ix = s.chip.emEn ix)

/-- On an active device with S2 running: the event at the head of the learn queue is taken, and where its key is absent and a
slot is free the entry is inserted with the event's port; a walk makes the aging step on every entry of a learning instance
without locks; a pin that has been held long enough is released; SET_POLICY stores a legal policy and answers OK, BAD_ARG
otherwise; GET_POLICY answers the policy; UNPIN clears the pin of a key or answers NOT_FOUND; FLUSH frees every entry
of the port that is not static. -/
def Obligations.LearningCommandsComplete : Prop :=
  ∀ s : State, Active s → s.chip.serves 2 = true →
    (∀ ev ∈ s.chip.tbl.learnQ.head?, mget s.chip.tbl.emPend (blkNat ev 20 1) = none →
      Completes .learnHandle s fun t => OnlyChip s t ∧ t.chip.tbl.learnQ = s.chip.tbl.learnQ.drop 1 ∧
        (s.chip.emReady (blkNat ev 20 1) = true → s.chip.emKeyLocked (blkNat ev 20 1) (slice ev 0 16) = false →
          s.chip.emFind (blkNat ev 20 1) (slice ev 0 16) = none → ∀ p ∈ s.chip.emFree (blkNat ev 20 1) (slice ev 0 16),
          t.chip.emFind (blkNat ev 20 1) (slice ev 0 16) = some p ∧
          t.chip.emPort (blkNat ev 20 1) (t.chip.emSlot (blkNat ev 20 1) p.1 p.2) = blkNat ev 16 2 % 2048)) ∧
    (∀ ix : Fin 16, s.chip.emReady ix = true → s.chip.rdB (Reg.em_EM_CFG ix) 29 = true → mget s.chip.tbl.emPend ix = none →
      (s.chip.emPolicy ix).period ≠ 0 → s.chip.tbl.locks = [] → smapWf {} s.chip.tbl.em = true →
      Completes (.ageWalk ix) s fun t => OnlyChip s t ∧
        ∀ kv ∈ s.chip.emEntries ix, mrd {} t.chip.tbl.em kv.1 = (ageStep (s.chip.emPolicy ix).limit kv.2).1.getD {}) ∧
    (∀ (ix : Fin 16) (key : List Byte), s.chip.tbl.pins = [(ix.val, key)] → s.chip.tbl.locks = [] →
      Completes (.pinHoldExpiry ix key) s fun t => OnlyChip s t ∧ t.chip.tbl.pins = [] ∧
        ∀ p ∈ s.chip.emFind ix key, ctlStatic (s.chip.emSlot ix p.1 p.2).ctl = false →
          ctlPinned (t.chip.emSlot ix p.1 p.2).ctl = false) ∧
    (∀ (ix : Fin 16) (period : Word) (limit : Byte) (hold : BitVec 16),
      Completes (.setPolicy ix period limit hold) s fun t => OnlyChip s t ∧
        if limit = 0 ∨ hold = 0 ∨ 3600 < hold.toNat then
          t.chip.out = s.chip.out ++ [.reply 5 1 stBadArg []] ∧ t.chip.tbl = s.chip.tbl
        else t.chip.out = s.chip.out ++ [.reply 5 1 stOk []] ∧
          t.chip.emPolicy ix = ⟨period.toNat, limit.toNat, hold.toNat⟩) ∧
    (∀ ix : Fin 16, Completes (.getPolicy ix) s fun t => OnlyChip s t ∧ t.chip.tbl = s.chip.tbl ∧
      t.chip.out = s.chip.out ++ [.reply 5 2 stOk (pad16 (beBytes 1 ix ++ beBytes 4 (s.chip.emPolicy ix).period ++
        beBytes 1 (s.chip.emPolicy ix).limit ++ beBytes 2 (s.chip.emPolicy ix).hold))]) ∧
    (∀ (ix : Fin 16) (key : List Byte), s.chip.emReady ix = true → s.chip.emKeyLocked ix key = false →
      Completes (.unpin ix key) s fun t => OnlyChip s t ∧
        (s.chip.emFind ix key).elim (t.chip.out = s.chip.out ++ [.reply 5 3 stNotFound []] ∧ t.chip.tbl = s.chip.tbl) fun p =>
          t.chip.out = s.chip.out ++ [.reply 5 3 stOk []] ∧ ctlPinned (t.chip.emSlot ix p.1 p.2).ctl = false ∧
          EmOthers s t [s.chip.emGlobal ix p.1 * 8 + p.2]) ∧
    (∀ (ix : Fin 16) (lp : BitVec 16), s.chip.emReady ix = true → s.chip.tbl.locks = [] → smapWf {} s.chip.tbl.em = true →
      Completes (.emFlush ix lp) s fun t => OnlyChip s t ∧ t.chip.out = s.chip.out ++ [.reply 5 4 stOk []] ∧
        ∀ kv ∈ t.chip.emEntries ix, ctlStatic kv.2.ctl = true ∨ (lp.toNat ≠ 0xFFFF ∧ s.chip.emPort ix kv.2 ≠ lp.toNat))
/-- On an active device, for a well-formed command of either family whose family S3 is not busy with, with a journal record free:
INSERT, DELETE, SEARCH, PIN and UNPIN, and UPDATE and SWAP of an expanded length, are handed to S3; READ answers the record of the
prefix or NOT_FOUND; UPDATE and SWAP of another length replace its data, SWAP answering the old; LOOKUP answers the data of the
hit, or NOT_FOUND on a miss. When S3 ends the command it holds, an INSERT leaves the record with the block's data, EXISTS where it
was there, a DELETE leaves none, UPDATE and SWAP leave the block's data, PIN leaves it pinned in the CAM, UNPIN unpinned. -/
def Obligations.PrefixCommandsComplete : Prop :=
  ∀ s : State, Active s →
    (∀ (src : TblSrc) (v6 : Bool) (op : Fin 15), s.tblOpen src 0x232 Reg.pfx_PFX_CMD = true → s.chip.jnlOpen = true →
      let kind := if v6 then 3 else 2
      let cmd := s.pfxCmdOf src op kind
      let key := pfxKey v6 (pfxVrf cmd.blk) (pfxAddr v6 cmd.blk) (pfxLen cmd.blk)
      blkOp cmd.blk = op → blkKind cmd.blk = kind → mget s.chip.tbl.pfxPend (famNum v6) = none → s.chip.pfxAdmit cmd = stOk →
      (pfxToS3 cmd.blk = true →
        (op.val = 1 → Completes (.pfxInsert v6 src) s fun t => OnlyChip s t ∧
          (mget t.chip.tbl.pfxPend (famNum v6)).any (fun x => x.blk == cmd.blk && x.dest == cmd.dest) = true) ∧
        (op.val = 2 → Completes (.pfxDelete v6 src) s fun t => OnlyChip s t ∧
          (mget t.chip.tbl.pfxPend (famNum v6)).any (fun x => x.blk == cmd.blk && x.dest == cmd.dest) = true) ∧
        (op.val = 4 → Completes (.pfxUpdate v6 src) s fun t => OnlyChip s t ∧
          (mget t.chip.tbl.pfxPend (famNum v6)).any (fun x => x.blk == cmd.blk && x.dest == cmd.dest) = true) ∧
        (op.val = 5 → Completes (.pfxSwap v6 src) s fun t => OnlyChip s t ∧
          (mget t.chip.tbl.pfxPend (famNum v6)).any (fun x => x.blk == cmd.blk && x.dest == cmd.dest) = true) ∧
        (op.val = 6 → Completes (.pfxSearch v6 src) s fun t => OnlyChip s t ∧
          (mget t.chip.tbl.pfxPend (famNum v6)).any (fun x => x.blk == cmd.blk && x.dest == cmd.dest) = true) ∧
        (op.val = 12 → Completes (.pfxPin v6 src) s fun t => OnlyChip s t ∧
          (mget t.chip.tbl.pfxPend (famNum v6)).any (fun x => x.blk == cmd.blk && x.dest == cmd.dest) = true) ∧
        (op.val = 13 → Completes (.pfxUnpin v6 src) s fun t => OnlyChip s t ∧
          (mget t.chip.tbl.pfxPend (famNum v6)).any (fun x => x.blk == cmd.blk && x.dest == cmd.dest) = true)) ∧
      (op.val = 3 → Completes (.pfxRead v6 src) s fun t => OnlyChip s t ∧ t.chip.tbl = s.chip.tbl ∧
        (mget s.chip.tbl.pfx key).elim (blkNat (t.chip.pfxAnswer src) 3 1 = stNotFound) fun r =>
          blkNat (t.chip.pfxAnswer src) 3 1 = stOk ∧ slice (t.chip.pfxAnswer src) 24 8 = slice r.data 0 8) ∧
      (expanded v6 (pfxLen cmd.blk) = false → ∀ r ∈ mget s.chip.tbl.pfx key,
        (op.val = 4 → Completes (.pfxUpdate v6 src) s fun t => OnlyChip s t ∧ blkNat (t.chip.pfxAnswer src) 3 1 = stOk ∧
          (mget t.chip.tbl.pfx key).any (fun x => x.data == slice cmd.blk 24 8 && x.cam == r.cam) = true) ∧
        (op.val = 5 → Completes (.pfxSwap v6 src) s fun t => OnlyChip s t ∧ blkNat (t.chip.pfxAnswer src) 3 1 = stOk ∧
          slice (t.chip.pfxAnswer src) 24 8 = slice r.data 0 8 ∧
          (mget t.chip.tbl.pfx key).any (fun x => x.data == slice cmd.blk 24 8 && x.cam == r.cam) = true)) ∧
      (op.val = 14 → s.chip.pfxReady v6 = true →
        ∀ h ∈ (s.chip.pfxFind v6 (pfxVrf cmd.blk) (pfxAddr v6 cmd.blk)).1,
          Completes (.pfxLookupCmd v6 src) s fun t => OnlyChip s t ∧ t.chip.tbl = s.chip.tbl ∧
            blkNat (t.chip.pfxAnswer src) 3 1 = (if h = .miss then stNotFound else stOk) ∧
            (h ≠ .miss → slice (t.chip.pfxAnswer src) 24 8 = slice h.slot 0 8))) ∧
    (∀ v6 : Bool, ∀ cmd ∈ mget s.chip.tbl.pfxPend (famNum v6), mget s.chip.tbl.pfxWait (famNum v6) = none → s.chip.serves 3 = true →
      cmd.dest = .out → blkKind cmd.blk = (if v6 then 3 else 2) → pfxWf cmd.blk = true →
      let key := pfxKey v6 (pfxVrf cmd.blk) (pfxAddr v6 cmd.blk) (pfxLen cmd.blk)
      Completes (.pfxS3Done v6) s fun t => OnlyChip s t ∧ mget t.chip.tbl.pfxPend (famNum v6) = none ∧
        (blkOp cmd.blk = 1 → mget s.chip.tbl.pfx key = none →
          if blkNat t.chip.lastBlk 3 1 = stOk then
            (mget t.chip.tbl.pfx key).any (fun x => x.data == slice cmd.blk 24 8) = true
          else blkNat t.chip.lastBlk 3 1 = stFull ∧ t.chip.tbl.pfx = s.chip.tbl.pfx) ∧
        (blkOp cmd.blk = 1 → (mget s.chip.tbl.pfx key).isSome = true → blkNat t.chip.lastBlk 3 1 = stExists ∧ t.chip.tbl.pfx = s.chip.tbl.pfx) ∧
        (blkOp cmd.blk = 2 → mget t.chip.tbl.pfx key = none) ∧
        (∀ r ∈ mget s.chip.tbl.pfx key,
          (blkOp cmd.blk = 4 ∨ blkOp cmd.blk = 5 → blkNat t.chip.lastBlk 3 1 = stOk ∧
            (mget t.chip.tbl.pfx key).any (fun x => x.data == slice cmd.blk 24 8) = true) ∧
          (blkOp cmd.blk = 12 → blkNat t.chip.lastBlk 3 1 = stOk →
            (mget t.chip.tbl.pfx key).any (fun x => x.pinned && x.cam.isSome && x.data == r.data) = true) ∧
          (blkOp cmd.blk = 13 → blkNat t.chip.lastBlk 3 1 = stOk ∧
            (mget t.chip.tbl.pfx key).any (fun x => !x.pinned && x.cam == r.cam && x.data == r.data) = true)))

/-- On an active device with a journal record free: READ of a CAM index of the table answers its entry, WRITE_SLOT stores or
clears it, LOOKUP answers the data of the lowest entry that matches or NOT_FOUND, and an index outside the table is BAD_ARG; setting EN
of a family clears its structures; the end of the clear and of S3's rebuild show; CAM_BLK of an empty block is stored, that of a
used block is refused; an overflow record returns to its store where there is room. -/
def Obligations.CamAndFamilyCommandsComplete : Prop :=
  ∀ s : State, Active s →
    (∀ (src : TblSrc) (op : Fin 15), s.tblOpen src 0x232 Reg.pfx_PFX_CMD = true → s.chip.jnlOpen = true →
      let cmd := s.pfxCmdOf src op 4
      let ix := blkNat cmd.blk 4 4
      blkOp cmd.blk = op → blkKind cmd.blk = 4 → cam4Wf cmd.blk = true →
      (op.val = 3 → Completes (.camRead src) s fun t => OnlyChip s t ∧ t.chip.tbl = s.chip.tbl ∧
        if s.chip.camIn 3 (blkInst cmd.blk) ix then blkNat (t.chip.pfxAnswer src) 3 1 = stOk ∧
          (mget s.chip.tbl.cam ix).elim (blkNat (t.chip.pfxAnswer src) 56 4 = 0) fun e =>
            blkNat (t.chip.pfxAnswer src) 56 4 = 1 ∧ blkNat (t.chip.pfxAnswer src) 8 20 = e.value.toNat ∧
            blkNat (t.chip.pfxAnswer src) 28 20 = e.mask.toNat ∧ slice (t.chip.pfxAnswer src) 48 8 = slice e.data 0 8
        else blkNat (t.chip.pfxAnswer src) 3 1 = stBadArg) ∧
      (op.val = 9 → Completes (.camWriteSlot src) s fun t => OnlyChip s t ∧
        if s.chip.camIn 3 (blkInst cmd.blk) ix ∧ blkNat cmd.blk 56 4 ≤ 1 then blkNat (t.chip.pfxAnswer src) 3 1 = stOk ∧
          (blkNat cmd.blk 56 4 = 0 → mget t.chip.tbl.cam ix = none) ∧
          (blkNat cmd.blk 56 4 = 1 → (mget t.chip.tbl.cam ix).any (fun e => e.value.toNat == blkNat cmd.blk 8 20 &&
            e.mask.toNat == blkNat cmd.blk 28 20 && e.data == slice cmd.blk 48 8) = true) ∧
          t.chip.ep.journal.length = s.chip.ep.journal.length + 1
        else blkNat (t.chip.pfxAnswer src) 3 1 = stBadArg ∧ t.chip.tbl = s.chip.tbl) ∧
      (op.val = 14 → s.chip.upsets = [] → Completes (.camLookupCmd src) s fun t => OnlyChip s t ∧ t.chip.tbl = s.chip.tbl ∧
        (s.chip.camFind 3 (blkInst cmd.blk) (BitVec.ofNat 160 (blkNat cmd.blk 8 20))).elim
          (blkNat (t.chip.pfxAnswer src) 3 1 = stNotFound) fun ie =>
            blkNat (t.chip.pfxAnswer src) 3 1 = stOk ∧ slice (t.chip.pfxAnswer src) 48 8 = slice ie.2.data 0 8)) ∧
    (∀ (a : Agent) (v6 : Bool), MayWrite s a 0x232 → s.chip.rdB (pfxCfg v6) 31 = false →
      Completes (.pfxFamilyEnable a v6) s fun t => OnlyChip s t ∧ t.chip.rdB (pfxCfg v6) 31 = true ∧
        t.chip.tbl.pfxClearing.contains (famNum v6) = true ∧ (∀ kv ∈ t.chip.tbl.pfx, (pfxUnkey kv.1).1 ≠ v6) ∧
        ∀ kv ∈ s.chip.tbl.pfx, (pfxUnkey kv.1).1 ≠ v6 → t.chip.tbl.pfx.contains kv = true) ∧
    (∀ v6 : Bool, Completes (.pfxClearDone v6) s fun t => OnlyChip s t ∧ t.chip.pfxReady v6 = s.chip.rdB (pfxCfg v6) 31 ∧
      t.chip.tbl.pfx = s.chip.tbl.pfx) ∧
    Completes .pfxRebuildDone s (fun t => OnlyChip s t ∧ t.chip.tbl.pfxRebuild = false ∧ t.chip.tbl.pfx = s.chip.tbl.pfx) ∧
    (∀ (a : Agent) (b : Fin 64) (v : Word), MayWrite s a 0x232 → v &&& ~~~ 0xF03 = 0 →
      Completes (.camBlkWrite a b v) s fun t => OnlyChip s t ∧ t.chip.tbl = s.chip.tbl ∧
        t.chip.rd (Reg.pfx_CAM_BLK b) = if s.chip.camBlkUsed b then s.chip.rd (Reg.pfx_CAM_BLK b) else v) ∧
    (∀ (v6 : Bool) (vrf : BitVec 12) (addr : BitVec 128) (len : Fin 129),
      let key := pfxKey v6 vrf.toNat (addr.toNat % 2 ^ famBits v6) len
      ∀ r ∈ mget s.chip.tbl.pfx key, r.cam.isSome = true → r.pinned = false → camOnly v6 len = false → s.chip.serves 3 = true →
        s.chip.tbl.pfxRebuild = false → mget s.chip.tbl.pfxPend (famNum v6) = none →
        (s.chip.pfxToStore v6 vrf.toNat (addr.toNat % 2 ^ famBits v6) len r.data).isSome = true →
        Completes (.pfxOverflowReturn v6 vrf addr len) s fun t => OnlyChip s t ∧
          (mget t.chip.tbl.pfx key).any (fun x => x.cam == none && x.data == r.data) = true ∧
          ∀ n ∈ r.cam, mget t.chip.tbl.cam n = none)
/-- On an active device without an upset, for a waiting request of a sluice: a register read gives the value the agent reads and
OK, or DENIED where the sluice may not reach the page; a register write of a plain register writes it; a lock is tried, or
acquired when FREE and waited for otherwise; Flume and host requests move their bytes, or end BAD_ARG, DENIED or ABORTED; a
table command is answered with what its unit answers; a Vault job joins the queue of a page the sluice owns; a post lands or
ends DENIED, BAD_ARG or FULL; a learn event is popped by S2 only; an injected frame takes its place as a frame of logical port
1,153 + r. The oldest request that is done writes its status, its value and its bytes, and its slot is free. -/
def Obligations.SluiceRequestsComplete : Prop :=
  ∀ (s : State) (r : Fin 16), Active s → s.chip.upsets = [] →
    (∀ q ∈ s.chip.reqOf r 1, Completes (.sluRegRd r) s fun t =>
      t.chip.reqStatus r q = some (if (s.readAt (sluiceAgent r) q.x.toNat).kind = 5 then stDenied else stOk) ∧
      (t.chip.reqNow r q).bind (·.val) = some (s.readAt (sluiceAgent r) q.x.toNat).val ∧
      (s.mayReach (sluiceAgent r) (q.x.toNat / 65536) false = false → (Reg.rowAt q.x.toNat).isSome = true →
        t.chip.reqStatus r q = some stDenied ∧ (t.chip.reqNow r q).bind (·.val) = some 0)) ∧
    (∀ q ∈ s.chip.reqOf r 2, ∀ row ∈ Reg.rowAt q.x.toNat, plainPage (q.x.toNat / 65536) = true → 0x100 ≤ q.x.toNat % 65536 → row.rwe = 0 →
      Completes (.sluRegWr r) s fun t => OnlyChip s t ∧
        if s.mayReach (sluiceAgent r) (q.x.toNat / 65536) true = true then
          t.chip.reqStatus r q = some stOk ∧ (s.chip.inReset (q.x.toNat / 65536) = false → t.chip.rd q.x.toNat =
            ((s.chip.rd q.x.toNat &&& ~~~ wd row.rw) ||| (q.y &&& wd row.rw)) &&& ~~~ (q.y &&& wd row.w1c))
        else t.chip.reqStatus r q = some stDenied ∧ t.chip.rd q.x.toNat = s.chip.rd q.x.toNat) ∧
    (∀ q ∈ s.chip.reqOf r 3, Completes (.sluFlumeRd r) s fun t => OnlyChip s t ∧
      if s.chip.flumeTest r q false ≠ stOk then
        t.chip.reqStatus r q = some (s.chip.flumeTest r q false) ∧ t.chip.flm = s.chip.flm
      else s.chip.flm.errs = [] → t.chip.reqStatus r q = some stOk ∧ t.chip.flm.mem = s.chip.flm.mem ∧
        (t.chip.reqNow r q).any (fun p => p.bytes == s.chip.flRead (64 * q.x.toNat) (64 * (q.n + 1)) && p.at_ == q.y.toNat % 65536 / 64 * 64) = true) ∧
    (∀ q ∈ s.chip.reqOf r 4, Completes (.sluFlumeWr r) s fun t => OnlyChip s t ∧
      if s.chip.flumeTest r q true ≠ stOk then
        t.chip.reqStatus r q = some (s.chip.flumeTest r q true) ∧ t.chip.flm = s.chip.flm
      else t.chip.reqStatus r q = some stOk ∧ ∀ x : Nat,
        if 64 * q.x.toNat ≤ x ∧ x < 64 * q.x.toNat + 64 * (q.n + 1) then
          mget t.chip.flm.mem x = some (mrd 0 (s.chip.slu1 r).ds ((q.y.toNat % 65536 / 64 * 64 + (x - 64 * q.x.toNat)) % 65536))
        else mget t.chip.flm.mem x = mget s.chip.flm.mem x) ∧
    (∀ q ∈ s.chip.reqOf r 5, ∀ data : List Byte, Completes (.sluHostRd r data) s fun t => OnlyChip s t ∧
      t.chip.reqStatus r q = some (s.chip.hostTest r q) ∧
      (s.chip.hostTest r q = stOk → (t.chip.reqNow r q).any
        (fun p => p.bytes == slice data 0 (64 * (q.n + 1)) && p.at_ == q.y.toNat % 65536 / 64 * 64) = true)) ∧
    (∀ q ∈ s.chip.reqOf r 6, Completes (.sluHostWr r) s fun t => OnlyChip s t ∧
      t.chip.reqStatus r q = some (s.chip.hostTest r q) ∧
      t.chip.out = s.chip.out ++ (if s.chip.hostTest r q = stOk then
        [.host (q.xh.toNat * 4294967296 + q.x.toNat) ((s.chip.slu1 r).dsBytes (q.y.toNat % 65536 / 64 * 64) (64 * (q.n + 1)))] else [])) ∧
    (∀ q ∈ s.chip.reqOf r 7, Completes (.sluTblCmd r) s fun t => OnlyChip s t ∧
      let cmd : TblCmd := { agent := sluiceAgent r, dma := false, blk := (s.chip.slu1 r).dsBytes (q.x.toNat % 65536 / 64 * 64) 64, dest := .out }
      let c := s.chip.tblSubmit s.clk cmd
      t.chip.tbl.em = c.tbl.em ∧ t.chip.tbl.pfx = c.tbl.pfx ∧ t.chip.tbl.cam = c.tbl.cam ∧
      (c.out = s.chip.out → (t.chip.reqNow r q).any (fun p => p.at_ == 1) = true) ∧
      (c.out = s.chip.out ++ [.data 1 c.lastBlk] → (t.chip.reqNow r q).any (fun p => p.bytes == c.lastBlk &&
        p.status == some (blkNat c.lastBlk 3 1) && p.at_ == q.x.toNat % 65536 / 64 * 64) = true)) ∧
    (∀ q ∈ s.chip.reqOf r 8, Completes (.sluVaultJob r) s fun t => t.pending = s.pending ∧ t.aux = s.aux ∧ t.clk = s.clk ∧
      let u := q.y.toNat % 32
      if 65536 < q.x.toNat % 65536 + 64 then t.chip.reqStatus r q = some stBadArg ∧ t.vault = s.vault
      else if s.chip.upOwner u ≠ sluiceAgent r then t.chip.reqStatus r q = some stDenied ∧ t.vault = s.vault
      else if s.chip.inReset (Reg.pg_upage u) = true ∨ s.chip.inReset 0x010 = true ∨ s.vault.state = 2 then
        t.chip.reqStatus r q = some stAborted ∧ t.vault = s.vault
      else if 4 ≤ (s.vault.queueOf u).length then t.chip.reqStatus r q = some stBusy ∧ t.vault = s.vault
      else (t.chip.reqNow r q).any (fun p => p.at_ == 1) = true ∧ t.vault.queueOf u = s.vault.queueOf u ++
        [{ desc := (s.chip.slu1 r).dsBytes (q.x.toNat % 65536) 64, sluice := some (r.val, q.serial, q.x.toNat % 65536) }]) ∧
    (s.chip.inReset 6 = false →
      (∀ q ∈ s.chip.reqOf r 9, Completes (.sluLockTry r) s fun t => OnlyChip s t ∧ t.chip.reqStatus r q = some stOk ∧
        let i := q.x.toNat % 64
        (t.chip.reqNow r q).bind (·.val) = some (wd (s.chip.lockOwner i)) ∧
        t.chip.lockOwner i = if s.chip.lockOwner i = 0 then sluiceAgent r else s.chip.lockOwner i) ∧
      (∀ q ∈ s.chip.reqOf r 10, Completes (.sluLockAcq r) s fun t => OnlyChip s t ∧
        let i := q.x.toNat % 64
        if s.chip.lockOwner i = 0 then t.chip.reqStatus r q = some stOk ∧ t.chip.lockOwner i = sluiceAgent r
        else t.chip.reqStatus r q = none ∧ t.chip.lockOwner i = s.chip.lockOwner i ∧
          (t.chip.reqNow r q).any (fun p => p.at_ == 1) = true)) ∧
    (∀ q ∈ s.chip.reqOf r 11, Completes (.sluMbxPost r) s fun t => OnlyChip s t ∧
      let m := q.y.toNat % 32
      let w := fun n : Nat => wd (beNat (((s.chip.slu1 r).dsBytes (q.x.toNat % 65536 + 4 * n) 4)))
      if 65536 < q.x.toNat % 65536 + 16 then t.chip.reqStatus r q = some stBadArg ∧ t.chip.mbxState m = s.chip.mbxState m
      else if mayPost (sluiceAgent r) m = false then t.chip.reqStatus r q = some stDenied ∧ t.chip.mbxState m = s.chip.mbxState m
      else if ptrOk (w 2) = false then t.chip.reqStatus r q = some stBadArg ∧ t.chip.mbxState m = s.chip.mbxState m
      else if s.chip.mbxState m ≠ 0 then t.chip.reqStatus r q = some stFull ∧ t.chip.mbxState m = s.chip.mbxState m
      else t.chip.reqStatus r q = some stOk ∧ t.chip.mbxState m = 1 ∧ ∀ n : Fin 4, t.chip.rd (Reg.mbx_MBX_PTR m n) = w n) ∧
    (∀ q ∈ s.chip.reqOf r 12, Completes (.sluLearnPop r) s fun t => OnlyChip s t ∧
      if r.val ≠ 2 ∨ 65536 < q.x.toNat % 65536 + 32 then t.chip.reqStatus r q = some stBadArg ∧ t.chip.tbl = s.chip.tbl
      else if s.chip.tbl.learnQ = [] then t.chip.reqStatus r q = some stNotFound ∧ t.chip.tbl = s.chip.tbl
      else t.chip.reqStatus r q = some stOk ∧ t.chip.tbl.learnQ = s.chip.tbl.learnQ.drop 1 ∧
        (t.chip.reqNow r q).any (fun p => s.chip.tbl.learnQ.head? == some p.bytes && p.at_ == q.x.toNat % 65536) = true) ∧
    (∀ q ∈ s.chip.reqOf r 13,
      (injectFrame (s.chip.slu1 r) (q.x.toNat % 65536 / 64 * 64) r s.clk = none →
        Completes (.sluInject r) s fun t => OnlyChip s t ∧ t.chip.reqStatus r q = some stBadArg ∧ t.chip.frames = s.chip.frames) ∧
      (∀ f ∈ injectFrame (s.chip.slu1 r) (q.x.toNat % 65536 / 64 * 64) r s.clk,
        s.chip.fbOn (s.chip.poolFor f.bytes.length) 1 = false → s.chip.bmReady = true → mget s.chip.frames s.chip.nextFrame = none →
        s.chip.grantable (s.chip.poolFor f.bytes.length) false = true → s.chip.buf.waiting = [] →
        Completes (.sluInject r) s fun t => OnlyChip s t ∧ t.chip.nextFrame = s.chip.nextFrame + 1 ∧
          (mget t.chip.frames s.chip.nextFrame).any (fun g => g.inLp == 1153 + r.val && g.bytes == f.bytes && g.ended && !g.bufs.isEmpty) = true ∧
          (t.chip.reqNow r q).any (fun p => p.status == some stOk || p.at_ == s.chip.nextFrame + 1) = true)) ∧
    (∀ q ∈ (s.chip.slu1 r).reqs.find? (fun q => q.status.isSome), ∀ st ∈ q.status,
      Completes (.requestComplete r) s fun t => OnlyChip s t ∧ t.chip.reqNow r q = none ∧
        ((s.chip.slu1 r).threads.length = 4 → q.thread < 4 →
          mrd 0 ((t.chip.slu1 r).th q.thread).rstat q.lane = st ∧
          (∀ v ∈ q.val, ((t.chip.slu1 r).th q.thread).reg q.lane q.dreg = v)) ∧
        (q.bytes.length ≤ 65536 → ∀ i < q.bytes.length, some (mrd 0 (t.chip.slu1 r).ds ((q.at_ + i) % 65536)) = q.bytes[i]?) ∧
        t.chip.rd (Reg.sluice_DENIED_CNT r) =
          (if st = stDenied then satAdd (s.chip.rd (Reg.sluice_DENIED_CNT r)) 1 else s.chip.rd (Reg.sluice_DENIED_CNT r)))
/-- On an active device without an upset: a running thread whose word has no wait and no poll point executes it, with its
results, its branch, its requests and the word count; a wait that names a request ends timed out; a timer expires once or goes
on; a whole second sets TICK everywhere; 1,024 words without a poll point, and a heartbeat not seen, abort the sluice; an aborted
fixed sluice restarts with zero stores, and after three restarts within 60 s stays aborted and is reported; START runs the
threads of a stopped customer sluice from their entries, STOP ends threads that wait, and a halted thread is idle. -/
def Obligations.SluiceEngineCommandsComplete : Prop :=
  ∀ (s : State) (r : Fin 16), Active s → s.chip.upsets = [] → s.chip.slu.s.length = 16 →
    (∀ t : Fin 4, s.chip.sluState r = 3 → s.chip.inReset (Reg.pg_sluice r) = false → ((s.chip.slu1 r).th t).st = 3 →
      (∀ j : Fin 4, j ≠ t → ((s.chip.slu1 r).th j).st ≠ 3) → ((s.chip.slu1 r).th t).stopped = false →
      ((s.chip.slu1 r).th t).sincePoll < 1024 → mwTim (s.chip.sluAt r t) = 0 → mwSafe (s.chip.sluAt r t) = 0 →
      let w := s.chip.sluAt r t
      let x := s.chip.sctx s.clk r t (mwImm w)
      (s.chip.slu1 r).reqs.length + (x.requests w).length ≤ 64 →
      (∀ pc < 16384, x.next w (x.result w).mask = .next pc ((s.chip.slu1 r).th t).stack false →
        Completes (.sluiceWord r) s fun t' => OnlyChip s t' ∧ t'.chip.sluState r = 3 ∧
          ((t'.chip.slu1 r).th t).pc = pc ∧ ((t'.chip.slu1 r).th t).stack = ((s.chip.slu1 r).th t).stack ∧
          ((t'.chip.slu1 r).th t).mask = (x.result w).mask ∧ (t'.chip.slu1 r).g = (x.result w).g ∧
          (t'.chip.slu1 r).ds = (x.result w).ds ∧ ((t'.chip.slu1 r).th t).sincePoll = ((s.chip.slu1 r).th t).sincePoll + 1 ∧
          (t'.chip.slu1 r).reqs.length = (s.chip.slu1 r).reqs.length + (x.requests w).length ∧
          (∀ j : Fin 16, j ≠ r → t'.chip.slu1 j = s.chip.slu1 j) ∧
          t'.chip.rd64 (Reg.sluice_WORD_CNT_LO r) (Reg.sluice_WORD_CNT_HI r) =
            (s.chip.rd64 (Reg.sluice_WORD_CNT_LO r) (Reg.sluice_WORD_CNT_HI r) + 1) % 2 ^ 64) ∧
      (∀ cause ∈ ([4, 5, 6] : List Nat), x.next w (x.result w).mask = .abort cause →
        Completes (.sluiceWord r) s fun t' => t'.pending = s.pending ∧ t'.aux = s.aux ∧ t'.clk = s.clk ∧ t'.chip.sluAborted r cause = true)) ∧
    (∀ t : Fin 4, s.chip.sluState r = 3 → ((s.chip.slu1 r).th t).st = 2 → ((s.chip.slu1 r).th t).forced = false →
      (s.chip.slu1 r).threads.length = 4 → s.chip.waitTimed r t (mwTim (s.chip.sluAt r t)) = true → s.chip.waitTrue r t (mwTim (s.chip.sluAt r t)) = false →
      Completes (.waitTimeout r t) s fun t' => OnlyChip s t' ∧ ((t'.chip.slu1 r).th t).forced = true ∧ ((t'.chip.slu1 r).th t).tmo = true ∧
        t'.chip.rd (Reg.sluice_WAIT_TMO_CNT r) = satAdd (s.chip.rd (Reg.sluice_WAIT_TMO_CNT r)) 1 ∧
        t'.chip.rdB (Reg.sluice_SL_EVENT r) 6 = true ∧ t'.chip.rdB (Reg.INT_CAUSE (Reg.pg_sluice r)) 24 = true) ∧
    (∀ n : Fin 2, s.chip.rdB (Reg.sluice_TIMER_CTL r n) 0 = true →
      Completes (.timerExpiry r n) s fun t => OnlyChip s t ∧ t.chip.rdB (Reg.sluice_SL_EVENT r) (1 + n.val) = true ∧
        (if n.val = 0 then (t.chip.slu1 r).t0 else (t.chip.slu1 r).t1) = true ∧
        t.chip.rdB (Reg.sluice_TIMER_CTL r n) 0 = s.chip.rdB (Reg.sluice_TIMER_CTL r n) 1) ∧
    Completes .tick s (fun t => OnlyChip s t ∧ ∀ j : Fin 16, (t.chip.slu1 j).tick = true ∧ t.chip.rdB (Reg.sluice_SL_EVENT j) 3 = true) ∧
    (∀ t : Fin 4, s.chip.sluState r = 3 → ((s.chip.slu1 r).th t).st ≠ 0 → 1024 ≤ ((s.chip.slu1 r).th t).sincePoll →
      Completes (.pollWatchdog r t) s fun t' => t'.pending = s.pending ∧ t'.aux = s.aux ∧ t'.clk = s.clk ∧ t'.chip.sluAborted r 7 = true ∧
        t'.chip.rd (Reg.sluice_ABORT_INFO r) = wd (0x87000000 + t.val * 0x100000 + ((s.chip.slu1 r).th t).pc % 16384)) ∧
    (s.chip.sluState r = 3 → (r.val < 8 ∨ s.chip.rdB (Reg.sluice_SL_CTL r) 4 = true) →
      Completes (.heartbeatWatchdog r) s fun t => t.pending = s.pending ∧ t.aux = s.aux ∧ t.clk = s.clk ∧ t.chip.sluAborted r 8 = true ∧
        t.chip.rd (Reg.sluice_ABORT_CNT r) = satAdd (s.chip.rd (Reg.sluice_ABORT_CNT r)) 1) ∧
    (r.val < 8 → s.chip.sluState r = 4 → s.chip.rdB (Reg.sluice_SL_CTL r) 8 = true → (r.val = 0 ∨ s.chip.sluState 0 = 3) →
      Completes (.sluiceRestart r) s fun t => OnlyChip s t ∧
        if 3 ≤ ((s.chip.slu1 r).restarts.filter fun x => decide (s.clk.now < x + 60 * 1000000000 * rtNs)).length then
          t.chip.sluState r = 4 ∧ t.chip.slu = s.chip.slu ∧ t.chip.out.length = s.chip.out.length + 1
        else t.chip.sluState r = 3 ∧ t.chip.rdF (Reg.sluice_SL_STAT r) 11 8 = 0 ∧
          t.chip.rd (Reg.sluice_RESTART_CNT r) = satAdd (s.chip.rd (Reg.sluice_RESTART_CNT r)) 1 ∧
          (t.chip.slu1 r).g = [] ∧ (t.chip.slu1 r).ds = [] ∧ (t.chip.slu1 r).cs = (s.chip.slu1 r).cs ∧
          ∀ n : Fin 4, s.chip.rdB (Reg.sluice_THREAD_CTL r n) 31 = true → ((t.chip.slu1 r).th n).st = 1 ∧
            ((t.chip.slu1 r).th n).pc = s.chip.rdF (Reg.sluice_THREAD_CTL r n) 13 0) ∧
    (∀ a : Agent, MayWrite s a (Reg.pg_sluice r) →
      (8 ≤ r.val → s.chip.sluState r = 1 → s.chip.rdB (Reg.sluice_SL_CTL r) 1 = false → (s.chip.slu1 r).threads.length = 4 →
        Completes (.sluStart a r) s fun t => OnlyChip s t ∧ t.chip.sluState r = 3 ∧
          ∀ n : Fin 4, if s.chip.rdB (Reg.sluice_THREAD_CTL r n) 31 = true then ((t.chip.slu1 r).th n).st = 1 ∧
            ((t.chip.slu1 r).th n).mask = 0xFFFFFFFF ∧ ((t.chip.slu1 r).th n).pc = s.chip.rdF (Reg.sluice_THREAD_CTL r n) 13 0
            else ((t.chip.slu1 r).th n).st = 0) ∧
      (8 ≤ r.val → s.chip.sluState r = 3 → s.chip.rdB (Reg.sluice_SL_CTL r) 0 = false →
        Completes (.sluStop a r) s fun t => OnlyChip s t ∧ (∀ th ∈ (t.chip.slu1 r).threads, th.st ≠ 2) ∧
          (((s.chip.slu1 r).threads.all fun th => th.st == 0 || th.st == 2) = true → t.chip.sluState r = 1) ∧
          (((s.chip.slu1 r).threads.any fun th => th.st != 0 && th.st != 2) = true → t.chip.sluState r = 3 ∧ (t.chip.slu1 r).halting = true)) ∧
      (r.val < 8 ∨ s.chip.sluState r ≠ 1 → Completes (.sluStart a r) s fun t => OnlyChip s t ∧ t.chip.sluState r = s.chip.sluState r ∧
        t.chip.slu = s.chip.slu ∧ t.chip.rdB (Reg.INT_CAUSE (Reg.pg_sluice r)) 28 = true)) ∧
    (∀ t : Fin 4, s.chip.sluState r = 3 → ((s.chip.slu1 r).th t).st ≠ 0 → (s.chip.slu1 r).threads.length = 4 → (s.chip.slu1 r).halting = true →
      Completes (.sluiceHaltTimeout r t) s fun t' => OnlyChip s t' ∧ ((t'.chip.slu1 r).th t).st = 0 ∧
        ((∀ j : Fin 4, j ≠ t → ((s.chip.slu1 r).th j).st = 0) → t'.chip.sluState r = 1))

/-- On an active device: IMG_CMD.GO of a customer sluice samples its arguments and enters LOADING, is BUSY while one loads or runs,
and is refused at S0 to S7; the load's end leaves LOADING with BAD_ARG for a source outside the window, ABORTED for one that
cannot be read, DENIED outside the lifecycle states that run images, the status of the first check that fails, or with the
image's words, data, entries, handlers and version in place; the control-store window writes a word of a stopped customer sluice
in DEBUG_OPEN only and reads one as the debug matrix allows; the data-SRAM window reads and writes where it is open. -/
def Obligations.SluicePageCommandsComplete : Prop :=
  ∀ (s : State) (r : Fin 16), Active s → s.chip.slu.s.length = 16 →
    (∀ (a : Agent) (fl : Bool), MayWrite s a (Reg.pg_sluice r) →
      Completes (.imgCmdGo a r fl) s fun t => OnlyChip s t ∧
        if r.val < 8 then t.chip.sluState r = s.chip.sluState r ∧ t.chip.slu = s.chip.slu ∧
          t.chip.rdB (Reg.INT_CAUSE (Reg.pg_sluice r)) 28 = true
        else if s.chip.sluState r = 2 ∨ s.chip.sluState r = 3 then
          t.chip.rd (Reg.sluice_IMG_STATUS r) = wd stBusy ∧ t.chip.slu = s.chip.slu ∧ t.chip.sluState r = s.chip.sluState r
        else t.chip.sluState r = 2 ∧ t.chip.rdB (Reg.sluice_IMG_CMD r) 31 = true ∧
          (t.chip.slu1 r).img = [fl.toNat, (s.chip.rd (Reg.sluice_IMG_ADDR_HI r)).toNat, (s.chip.rd (Reg.sluice_IMG_ADDR_LO r)).toNat,
            (s.chip.rd (Reg.sluice_IMG_LEN r)).toNat]) ∧
    (∀ host : Option (List Byte), s.chip.sluState r = 2 → (s.chip.slu1 r).img.length = 4 →
      let src := (s.chip.slu1 r).img.getD 0 0
      let lo := (s.chip.slu1 r).img.getD 2 0
      let len := (s.chip.slu1 r).img.getD 3 0
      Completes (.imgLoadDone r host) s fun t => OnlyChip s t ∧ t.chip.sluState r = 1 ∧ t.chip.rdB (Reg.sluice_IMG_CMD r) 31 = false ∧
        if s.chip.imgSourceOk r src lo len = false then
          t.chip.rd (Reg.sluice_IMG_STATUS r) = wd stBadArg ∧ (t.chip.slu1 r).cs = (s.chip.slu1 r).cs
        else if s.chip.flReady = false ∨ (src = 0 ∧ host = none) then
          t.chip.rd (Reg.sluice_IMG_STATUS r) = wd stAborted ∧ (t.chip.slu1 r).cs = (s.chip.slu1 r).cs
        else ∀ b ∈ host, src = 0 →
          let img := slice b 0 len
          if s.aux.lifecycle ≠ 1 ∧ s.aux.lifecycle ≠ 2 ∧ s.aux.lifecycle ≠ 3 then
            t.chip.rd (Reg.sluice_IMG_STATUS r) = wd stDenied ∧ (t.chip.slu1 r).cs = (s.chip.slu1 r).cs
          else if s.aux.imgCheck r len img ≠ stOk then
            t.chip.rd (Reg.sluice_IMG_STATUS r) = wd (s.aux.imgCheck r len img) ∧ (t.chip.slu1 r).cs = (s.chip.slu1 r).cs
          else if s.vault.state ≠ 1 then
            t.chip.rd (Reg.sluice_IMG_STATUS r) = wd stAborted ∧ (t.chip.slu1 r).cs = (s.chip.slu1 r).cs
          else t.chip.rd (Reg.sluice_IMG_STATUS r) = wd stOk ∧ t.chip.rd (Reg.sluice_IMG_VERSION r) = wd (imgF img 8 4) ∧
            t.chip.rd (Reg.sluice_IMG_SVN r) = wd (imgF img 0x0C 2) ∧ (t.chip.slu1 r).g = [] ∧
            (∀ n < imgWords img, mrd 0 (t.chip.slu1 r).cs n = mwOfBytes (slice img (256 + 32 * n) 32)) ∧
            (∀ n < imgData img, some (mrd 0 (t.chip.slu1 r).ds n) = img[256 + 32 * imgWords img + n]?) ∧
            (∀ n : Fin 4, t.chip.rdF (Reg.sluice_THREAD_CTL r n) 13 0 = imgF img (0x20 + 4 * n.val) 4 % 16384 ∧
              t.chip.rdB (Reg.sluice_THREAD_CTL r n) 31 = decide (0x80000000 ≤ imgF img (0x20 + 4 * n.val) 4)) ∧
            t.chip.rdB (Reg.INT_CAUSE (Reg.pg_sluice r)) 25 = true) ∧
    (∀ a : Agent, MayWrite s a (Reg.pg_sluice r) →
      let word := s.chip.rdF (Reg.sluice_CS_ADDR r) 13 0
      let next := if s.chip.rdB (Reg.sluice_CS_ADDR r) 31 then (word + 1) % 16384 else word
      Completes (.sluCsWrite a r) s (fun t => OnlyChip s t ∧
        if 8 ≤ r.val ∧ s.aux.lifecycle = 3 ∧ s.chip.sluState r = 1 then
          t.chip.rd (Reg.sluice_CS_STATUS r) = wd stOk ∧ t.chip.rdF (Reg.sluice_CS_ADDR r) 13 0 = next ∧
          (∀ n : Nat, mrd 0 (t.chip.slu1 r).cs n = if n = word then mwOfWords ((List.range 8).map fun j => s.chip.rd (Reg.sluice_CS_DATA r j))
            else mrd 0 (s.chip.slu1 r).cs n)
        else t.chip.rd (Reg.sluice_CS_STATUS r) = wd stDenied ∧ t.chip.slu = s.chip.slu) ∧
      Completes (.sluCsRead a r) s (fun t => OnlyChip s t ∧ t.chip.slu = s.chip.slu ∧
        if s.facility 2 then t.chip.rd (Reg.sluice_CS_STATUS r) = wd stOk ∧ t.chip.rdF (Reg.sluice_CS_ADDR r) 13 0 = next ∧
          ∀ j : Fin 8, t.chip.rd (Reg.sluice_CS_DATA r j) = mwWord (mrd 0 (s.chip.slu1 r).cs word) j
        else t.chip.rd (Reg.sluice_CS_STATUS r) = wd stDenied)) ∧
    (∀ a : Agent, s.chip.upsets = [] →
      let adr := 4 * s.chip.rdF (Reg.sluice_DS_ADDR r) 15 2
      let next := if s.chip.rdB (Reg.sluice_DS_ADDR r) 31 then (s.chip.rdF (Reg.sluice_DS_ADDR r) 15 2 + 1) % 16384 else s.chip.rdF (Reg.sluice_DS_ADDR r) 15 2
      (MayWrite s a (Reg.pg_sluice r) → ∀ v : Word, Completes (.dsDataAccess a r (some v)) s fun t => OnlyChip s t ∧
        if 8 ≤ r.val ∨ s.facility 2 = true then
          beNat ((t.chip.slu1 r).dsBytes adr 4) = v.toNat ∧ t.chip.rdF (Reg.sluice_DS_ADDR r) 15 2 = next ∧
          (∀ n : Nat, n < adr ∨ adr + 4 ≤ n → mrd 0 (t.chip.slu1 r).ds n = mrd 0 (s.chip.slu1 r).ds n)
        else t.chip.slu = s.chip.slu ∧ t.chip.rdB (Reg.INT_CAUSE (Reg.pg_sluice r)) 28 = true) ∧
      (MayRead s a (Reg.pg_sluice r) → Completes (.dsDataAccess a r none) s fun t => OnlyChip s t ∧ t.chip.slu = s.chip.slu ∧
        if 8 ≤ r.val ∨ s.facility 2 = true then
          t.chip.out = s.chip.out ++ [.read a.num (Reg.sluice_DS_DATA r) (wd (beNat ((s.chip.slu1 r).dsBytes adr 4)))] ∧
          t.chip.rdF (Reg.sluice_DS_ADDR r) 15 2 = next
        else t.chip.out = s.chip.out ++ [.read a.num (Reg.sluice_DS_DATA r) 0]))
/-- On an active device without an upset: a post by an agent that may post lands in an empty mailbox with the four staged words,
and ends FULL, BAD_ARG or DENIED otherwise; a take of a posted mailbox by the agent that may take it returns the fourth word and
marks it TAKEN; an acknowledge empties it with its status, and another one is refused; the watchdog counts once per post; a read
of a FREE lock takes it and of another shows its owner; the owner's release frees it, and the first waiting sluice has it; another
release is an error; agent 1 may break a lock. -/
def Obligations.MailboxAndLockCommandsComplete : Prop :=
  ∀ (s : State) (m : Fin 32), Active s → s.chip.upsets = [] → s.chip.inReset 6 = false →
    (∀ a : Agent, s.mayReach a.num 6 true = true → s.chip.mbx.stageBad = [] →
      (Completes (.postCmd a m) s fun t => OnlyChip s t ∧
        if mayPost a.num m = false then mrd 0 t.chip.mbx.res a.num = stDenied ∧ t.chip.mbxState m = s.chip.mbxState m ∧
          t.chip.rdB (Reg.INT_CAUSE 6) 28 = true
        else if ptrOk (s.chip.staged a.num 2) = false then mrd 0 t.chip.mbx.res a.num = stBadArg ∧ t.chip.mbxState m = s.chip.mbxState m
        else if s.chip.mbxState m ≠ 0 then mrd 0 t.chip.mbx.res a.num = stFull ∧ t.chip.mbxState m = s.chip.mbxState m
        else mrd 0 t.chip.mbx.res a.num = stOk ∧ t.chip.mbxState m = 1 ∧ t.chip.rdF (Reg.mbx_MBX_STAT m) 15 8 = a.num ∧
          (∀ n : Fin 4, t.chip.rd (Reg.mbx_MBX_PTR m n) = s.chip.staged a.num n) ∧
          (m.val % 2 = 1 → t.chip.rdB Reg.mbx_POST_PEND m = true) ∧ (m.val % 2 = 0 → t.chip.rdB (Reg.sluice_SL_EVENT (m / 2)) 0 = true)) ∧
      (∀ st : Byte, Completes (.mbxAck a m st) s fun t => OnlyChip s t ∧
        if mayTake a.num m = true ∧ s.chip.mbxState m ≠ 0 then t.chip.mbxState m = 0 ∧
          t.chip.rd (Reg.mbx_MBX_ACK m) = wd (0x80000000 + a.num * 65536 + st.toNat) ∧ (∀ n : Fin 4, t.chip.rd (Reg.mbx_MBX_PTR m n) = 0)
        else t.chip.mbxState m = s.chip.mbxState m ∧ t.chip.rd (Reg.mbx_MBX_ACK m) = s.chip.rd (Reg.mbx_MBX_ACK m) ∧
          t.chip.rdB (Reg.INT_CAUSE 6) 28 = true)) ∧
    (∀ a : Agent, s.mayReach a.num 6 false = true → Completes (.mbxTake a m) s fun t => OnlyChip s t ∧
      (mayTake a.num m = true → t.chip.mbxState m = (if s.chip.mbxState m = 1 then 2 else s.chip.mbxState m) ∧
        t.chip.out = s.chip.out ++ [.read a.num (Reg.mbx_MBX_PTR m 3) (s.chip.rd (Reg.mbx_MBX_PTR m 3))]) ∧
      (mayTake a.num m = false → t.chip.mbxState m = s.chip.mbxState m)) ∧
    (Completes (.ackTimeout m) s fun t => OnlyChip s t ∧
      if s.chip.mbxState m = 0 ∨ s.chip.mbx.fired.contains m.val = true then t.chip = s.chip
      else t.chip.rd Reg.mbx_ACK_TMO_CNT = satAdd (s.chip.rd Reg.mbx_ACK_TMO_CNT) 1 ∧ t.chip.rdB Reg.mbx_TMO_PEND m = true ∧
        t.chip.mbx.fired.contains m.val = true ∧ t.chip.mbxState m = s.chip.mbxState m) ∧
    (∀ (a : Agent) (i : Fin 64),
      (s.mayReach a.num 6 false = true → Completes (.lockRead a i) s fun t => OnlyChip s t ∧
        t.chip.lockOwner i = (if s.chip.lockOwner i = 0 then a.num else s.chip.lockOwner i) ∧
        t.chip.out = s.chip.out ++ [.read a.num (Reg.mbx_LOCK i) (wd (s.chip.lockOwner i))] ∧
        ∀ j : Fin 64, j ≠ i → t.chip.lockOwner j = s.chip.lockOwner j) ∧
      (s.mayReach a.num 6 true = true → ∀ v : Word, v.toNat < 256 → Completes (.lockRelease a i v) s fun t => OnlyChip s t ∧
        if s.chip.lockOwner i = a.num ∧ v.toNat = a.num then
          t.chip.lockOwner i = ((s.chip.lockGrant a.num i).lockWaiters i).headD 0
        else t.chip.lockOwner i = s.chip.lockOwner i ∧ t.chip.rdB (Reg.INT_CAUSE 6) 23 = true ∧
          t.chip.rd Reg.mbx_LOCK_ERR_CNT = satAdd (s.chip.rd Reg.mbx_LOCK_ERR_CNT) 1) ∧
      (s.mayReach a.num 6 true = true → Completes (.lockBreak a i) s fun t => OnlyChip s t ∧
        if a.num = 1 ∧ s.chip.lockOwner i ≠ 0 then t.chip.lockOwner i = (s.chip.lockWaiters i).headD 0 ∧ t.chip.rdB (Reg.INT_CAUSE 6) 22 = true
        else t.chip.lockOwner i = s.chip.lockOwner i ∧ (a.num ≠ 1 → t.chip.rdB (Reg.INT_CAUSE 6) 28 = true)))
/-- On an active device, by agent 1 or 17 with no command in progress: an epoch command ends EPOCH_STALE for another epoch, BUSY in
another state, and DENIED for a rollback that is not possible; OPEN starts the copy, ABORT leaves STAGING, COMMIT and ROLLBACK wait
for their beat. The end of the copy gives the idle bank what the active one holds and enters STAGING; the commit beat switches the
banks, counts the epoch and starts retirement; retirement ends when nothing of an older epoch is in flight, and its timeout marks
or drops what is left; a replay by S3 ends with its event. -/
def Obligations.EpochCommandsComplete : Prop :=
  ∀ s : State, Active s →
    (∀ (a : Agent) (e : BitVec 16), MayWrite s a 0x005 → s.chip.rdB Reg.epoch_EPOCH_CMD 31 = false → (a.num = 1 ∨ a.num = 17) →
      let stale := fun t : State => t.chip.rd Reg.epoch_EPOCH_STATUS = wd stEpochStale ∧ t.chip.rd Reg.epoch_EPOCH_STAT = s.chip.rd Reg.epoch_EPOCH_STAT
      let busy := fun t : State => t.chip.rd Reg.epoch_EPOCH_STATUS = wd stBusy ∧ t.chip.rd Reg.epoch_EPOCH_STAT = s.chip.rd Reg.epoch_EPOCH_STAT
      let nxt := (s.chip.epCur + 1) % 65536
      Completes (.epochOpen a e) s (fun t => OnlyChip s t ∧
        if e.toNat ≠ s.chip.epCur then stale t else if s.chip.epState ≠ 0 then busy t
        else t.chip.epState = 1 ∧ t.chip.epCur = s.chip.epCur ∧ t.chip.ep.journal = [] ∧ t.chip.rdB Reg.epoch_EPOCH_CMD 31 = true ∧
          t.chip.rdF Reg.epoch_EPOCH_PREV 31 30 = 0) ∧
      Completes (.epochAbort a e) s (fun t => OnlyChip s t ∧
        if e.toNat ≠ nxt then stale t else if s.chip.epState ≠ 2 then busy t
        else t.chip.epState = 0 ∧ t.chip.epCur = s.chip.epCur ∧ t.chip.bankB = s.chip.bankB ∧ t.chip.rd Reg.epoch_EPOCH_STATUS = wd stOk) ∧
      Completes (.epochCommit a e) s (fun t => OnlyChip s t ∧
        if e.toNat ≠ nxt then stale t else if s.chip.epState ≠ 2 then busy t
        else t.chip.epState = 2 ∧ t.chip.ep.commitIn = some (s.chip.boundaryAfter s.clk 8, false) ∧ t.chip.rdB Reg.epoch_EPOCH_CMD 31 = true) ∧
      Completes (.epochRollback a e) s (fun t => OnlyChip s t ∧
        if e.toNat ≠ s.chip.epCur then stale t else if s.chip.epState ≠ 0 ∨ s.chip.sluState 3 ≠ 3 then busy t
        else if s.chip.rdB Reg.epoch_EPOCH_PREV 30 = false then t.chip.rd Reg.epoch_EPOCH_STATUS = wd stDenied ∧
          t.chip.rd Reg.epoch_EPOCH_STAT = s.chip.rd Reg.epoch_EPOCH_STAT
        else t.chip.ep.commitIn = some (s.chip.beat + 1, true) ∧ t.chip.rdB Reg.epoch_EPOCH_CMD 31 = true)) ∧
    (s.chip.epState = 1 → Completes .epochCopyDone s fun t => OnlyChip s t ∧ t.chip.epState = 2 ∧ t.chip.epCur = s.chip.epCur ∧
      t.chip.bankB = s.chip.bankB ∧ t.chip.rd Reg.epoch_EPOCH_STATUS = wd stOk ∧
      (∀ off : Nat, off < 0x10000000 → rweKey off = true → t.chip.rdE (!s.chip.bankB) off = s.chip.rdE s.chip.bankB off ∧
        t.chip.rdE s.chip.bankB off = s.chip.rdE s.chip.bankB off)) ∧
    (∀ x ∈ s.chip.ep.commitIn, Completes .commitBeat s fun t => OnlyChip s t ∧ t.chip.epState = 3 ∧ t.chip.bankB = (!s.chip.bankB) ∧
      t.chip.epCur = (s.chip.epCur + 1) % 65536 ∧ t.chip.rdF Reg.epoch_EPOCH_PREV 15 0 = s.chip.epCur ∧ t.chip.ep.commitIn = none ∧
      t.chip.rdB Reg.epoch_EPOCH_CMD 31 = false ∧ t.chip.rd Reg.epoch_EPOCH_STATUS = wd stOk ∧
      (x.2 = true → t.chip.rdB Reg.epoch_JNL_STAT 30 = true ∧ t.chip.ep.journal = [] ∧ t.chip.ep.replay.length = s.chip.ep.journal.length)) ∧
    (s.chip.epState = 3 →
      (s.chip.epInflight = 0 → s.chip.ep.dropping = false → Completes .retireDone s fun t => OnlyChip s t ∧ t.chip.epState = 0 ∧
        t.chip.bankB = s.chip.bankB ∧ t.chip.epCur = s.chip.epCur ∧ t.chip.rdB Reg.epoch_EPOCH_PREV 31 = true ∧
        t.chip.rdB Reg.epoch_EPOCH_PREV 30 = (!s.chip.ep.noRollback && !s.chip.rdB Reg.epoch_JNL_STAT 31) ∧ t.chip.rdB (Reg.INT_CAUSE 5) 26 = true) ∧
      (s.chip.epInflight ≠ 0 → s.chip.ep.dropping = false → Completes .retireTimeout s fun t => OnlyChip s t ∧ t.chip.ep.dropping = true ∧
        t.chip.rd Reg.epoch_RETIRE_TMO_CNT = satAdd (s.chip.rd Reg.epoch_RETIRE_TMO_CNT) 1 ∧ t.chip.rdB (Reg.INT_CAUSE 5) 25 = true ∧
        ∀ kc ∈ t.chip.sw.copies, kc.2.pos = .queued ∨ kc.2.pos = .hold ∨ kc.2.pos = .linking → cEpoch kc.2.carry = t.chip.epCur) ∧
      (s.chip.epInflight = 0 → s.chip.ep.dropping = true → Completes .retireDropsDone s fun t => OnlyChip s t ∧ t.chip.epState = 0 ∧
        t.chip.ep.dropping = false ∧ t.chip.rdB Reg.epoch_EPOCH_PREV 31 = true)) ∧
    (s.chip.rdB Reg.epoch_JNL_STAT 30 = true → s.chip.sluState 3 = 3 →
      Completes .journalReplay s fun t => OnlyChip s t ∧ t.chip.rdB Reg.epoch_JNL_STAT 30 = false ∧ t.chip.ep.replay = [] ∧
        t.chip.rdB (Reg.INT_CAUSE 5) 24 = true ∧
        (s.chip.ep.replay.length = 1 → ∀ sj ∈ s.chip.ep.replay, sj.2.kind = 5 → sj.2.op = 1 →
          mrd 0 t.chip.weirs.indE (blkNat sj.2.before 4 4) = wd (blkNat sj.2.before 0 4)))

/-- On an active device whose S0 runs: CFG_WRITE stores an image of the right form and digest as the next generation of its slot,
and replies BAD_ARG or INTEGRITY otherwise; CFG_READ sends the newest image of a slot to host memory, or replies NOT_FOUND or
BAD_ARG; CFG_SAVE_ACTIVE and JNL_SAVE store an image of what the device holds; an erase removes the oldest freed generation and
keeps the newest. -/
def Obligations.ConfigurationImageCommandsComplete : Prop :=
  ∀ s : State, Active s → s.chip.sluState 0 = 3 →
    (∀ slot : Fin 4,
      (∀ (addr : BitVec 64) (len : Word) (b : List Byte), Completes (.cfgWrite slot false addr len b) s fun t => OnlyChip s t ∧
        t.chip.out = s.chip.out ++ [.reply 1 0x0201 (cfgCheck b) []] ∧
        if cfgCheck b = stOk then ((t.chip.flashSlot slot).map fun x => x.2.drop 64).head? = some (cfgBody b) ∧
          (t.chip.flashSlot slot).drop 1 = s.chip.flashSlot slot
        else t.chip.flashSlot slot = s.chip.flashSlot slot) ∧
      (∀ (addr : BitVec 64) (len : Word), Completes (.cfgRead slot addr len) s fun t => OnlyChip s t ∧ t.chip.flash = s.chip.flash ∧
        t.chip.out = s.chip.out ++ (((s.chip.flashSlot slot).head?).elim [.reply 1 0x0202 stNotFound []] fun x =>
          if len.toNat < x.2.length then [.reply 1 0x0202 stBadArg []] else [.host addr.toNat x.2, .reply 1 0x0202 stOk []])) ∧
      (Completes (.cfgSaveActive slot) s fun t => OnlyChip s t ∧ t.chip.out = s.chip.out ++ [.reply 1 0x0203 stOk []] ∧
        ((t.chip.flashSlot slot).head?).any (fun x => cfgCheck x.2 == stOk) = true ∧ (t.chip.flashSlot slot).drop 1 = s.chip.flashSlot slot)) ∧
    (Completes .jnlSave s fun t => OnlyChip s t ∧ t.chip.out = s.chip.out ++ [.reply 1 0x0204 stOk []] ∧
      ((t.chip.flashSlot 4).head?).any (fun x => (x.2.drop 64).length == 128 * s.chip.ep.journal.length) = true) ∧
    (∀ slot : Fin 5, 2 ≤ (s.chip.flashSlot slot).length →
      Completes (.flashErase slot) s fun t => OnlyChip s t ∧ t.chip.flashSlot slot = (s.chip.flashSlot slot).dropLast ∧
        t.chip.out = s.chip.out)
/-- On an active device, by an agent that may write the port page: INSTALL with a plain key puts the staged key, salt, SSCI and
packet number into a free SA, is BAD_ARG for an SA in use or a key longer than 32 bytes, and DENIED once plain keys are shut off;
with a wrapped key it is DENIED for a page the agent does not own, INTEGRITY for one that does not open, and takes the key it
holds otherwise; READ shows the packet number and whether the SA is in use; RETIRE removes an SA but not the one TX_AN names.
Each clears the key staging registers and leaves every other SA as it was. TX_AN takes the value written. -/
def Obligations.PortKeyCommandsComplete : Prop :=
  ∀ (s : State) (a : Agent), Active s →
    (∀ (p : Fin 144) (rx : Bool) (k : Fin 8) (sc an : Fin 4), MayWrite s a (0x090 + p) →
      let key := saKey (8 * p + k) rx.toNat (if rx then sc else 0) an
      let pn := s.chip.rd64 (Reg.port_SA_PN_LO p) (Reg.port_SA_PN_HI p)
      let others := fun t : State => ((s.vault.sas ++ t.vault.sas).all fun kv => kv.1 == key || mget t.vault.sas kv.1 == mget s.vault.sas kv.1) = true
      let ended := fun (t : State) (st : Nat) => t.chip.rd (Reg.port_SA_STATUS p) = wd st ∧ (∀ n : Fin 16, t.chip.rd (Reg.port_SA_KEY p n) = 0)
      let blob := s.chip.saKeyBytes p
      let sa := fun b : List Byte => ({ key := b, salt := s.chip.saSalt p, ssci := (s.chip.rd (Reg.port_SA_SSCI p)).toNat, pn } : Sa)
      (∀ src : Bool, Completes (.saInstall a p rx k sc an src) s fun t => t.pending = s.pending ∧ t.aux = s.aux ∧ t.clk = s.clk ∧ others t ∧
        if (mget s.vault.sas key).isSome = true then ended t stBadArg ∧ t.vault = s.vault
        else if src then
          if (blob.drop 32).any (· != 0) then ended t stBadArg ∧ t.vault = s.vault
          else if s.chip.rdB Reg.vault_VLT_CFG 31 then ended t stDenied ∧ t.vault = s.vault
          else ended t stOk ∧ mget t.vault.sas key = some (sa (blob.take 32))
        else if s.vault.state = 2 then ended t stAborted ∧ t.vault = s.vault
        else if beNat (slice blob 1 1) < 32 ∧ s.chip.upOwner (beNat (slice blob 1 1)) ≠ a.num then ended t stDenied ∧ t.vault = s.vault
        else ((s.vault.kek blob).bind fun kek => openWrapped kek blob).elim (ended t stIntegrity ∧ t.vault = s.vault) fun w =>
          if beNat (slice blob 0 1) ≠ 1 then ended t stIntegrity ∧ t.vault = s.vault
          else if rx = false ∧ pn < w.2.1 then ended t stBadArg ∧ t.vault = s.vault
          else ended t stOk ∧ mget t.vault.sas key = some (sa w.2.2)) ∧
      Completes (.saRead a p rx k sc an) s (fun t => OnlyChip s t ∧
        ended t (if (mget s.vault.sas key).isSome then 256 else 0) ∧
        t.chip.rd64 (Reg.port_SA_PN_LO p) (Reg.port_SA_PN_HI p) = ((mget s.vault.sas key).elim 0 (·.pn)) % 2 ^ 64) ∧
      Completes (.saRetire a p rx k sc an) s (fun t => t.pending = s.pending ∧ t.aux = s.aux ∧ t.clk = s.clk ∧ others t ∧
        if rx = false ∧ s.chip.msc (8 * p + k) 1 0 = an.val then ended t stDenied ∧ t.vault = s.vault
        else ended t stOk ∧ mget t.vault.sas key = none)) ∧
    (∀ (lp : Fin 1152) (an : Fin 4), MayWrite s a (0x090 + lp / 8) →
      Completes (.txAnWrite a lp an) s fun t => OnlyChip s t ∧ t.chip.msc lp 1 0 = an.val ∧
        t.chip.msc lp 31 20 = s.chip.msc lp 31 20)
/-- On an active device without an upset, for the host job at the front of a READY Vault: encryption and GMAC use the key's own IV
once and advance its counter; decryption gives the plaintext of a right tag and INTEGRITY otherwise; hash, MAC, signature and
verification give their value; UNWRAP fills a slot from a key that opens; WRAP gives an exportable key and DENIED for another;
KEYGEN, ZERO and ADVANCE change one slot; RANDOM gives as many bytes as asked. A missing key is BAD_ARG. When the two lanes
disagree the output is withheld with INTEGRITY and the mismatch is counted. -/
def Obligations.VaultJobCommandsComplete : Prop :=
  ∀ s : State, Active s → ∀ uj ∈ s.vault.front,
    let d := uj.2.desc
    let sl := 16 * uj.1 + jF d 1 1 % 16
    let ds := 16 * uj.1 + jF d 2 1 % 16
    let kept := fun t : State => t.vault.slots = s.vault.slots
    (∀ inp : List Byte, inp.length = jF d 16 4 →
      (s.jobReady 1 uj = true → jF d 20 4 ≤ inp.length → Completes (.gcmEnc inp true) s fun t => SlotsKept s t [sl] ∧
        (s.vault.jobKey uj 1).elim (JobEnded s t uj stBadArg []) fun k => k.ctr + 1 < 2 ^ 64 →
          JobEnded s t uj stOk (Crypto.gcmEnc k.key k.iv (inp.take (jF d 20 4)) (inp.drop (jF d 20 4))).1 ∧
          mget t.vault.slots sl = some { k with ctr := k.ctr + 1 }) ∧
      (s.jobReady 2 uj = true → jF d 20 4 ≤ inp.length → Completes (.gcmDec inp true) s fun t => kept t ∧
        (s.vault.jobKey uj 1).elim (JobEnded s t uj stBadArg []) fun k =>
          let r := Crypto.gcmDec k.key (slice d 32 12) (inp.take (jF d 20 4)) (inp.drop (jF d 20 4)) (slice d 48 16)
          if r.2 then JobEnded s t uj stOk r.1 else JobEnded s t uj stIntegrity []) ∧
      (s.jobReady 3 uj = true → Completes (.gmac inp true) s fun t => SlotsKept s t [sl] ∧
        (s.vault.jobKey uj 1).elim (JobEnded s t uj stBadArg []) fun k => k.ctr + 1 < 2 ^ 64 →
          JobEnded s t uj stOk (Crypto.gcmEnc k.key k.iv inp []).1 ∧ mget t.vault.slots sl = some { k with ctr := k.ctr + 1 } ∧
          ∀ n : Fin 4, t.chip.rd (Reg.upage_JOB_DESC uj.1 (12 + n)) = wd (beNat (slice (Crypto.gcmEnc k.key k.iv inp []).2 (4 * n) 4))) ∧
      (s.jobReady 4 uj = true → Completes (.sha384 inp true) s (fun t => kept t ∧ JobEnded s t uj stOk (Crypto.sha384 inp)) ∧
        Completes (.sha384 inp false) s (fun t => t.chip.rd (Reg.upage_JOB_STATUS uj.1) = wd stIntegrity ∧
          t.chip.out = s.chip.out ∧ t.chip.rd Reg.vault_DUP_CNT = satAdd (s.chip.rd Reg.vault_DUP_CNT) 1)) ∧
      (s.jobReady 5 uj = true → Completes (.hmac384 inp true) s fun t => kept t ∧
        (s.vault.jobKey uj 2).elim (JobEnded s t uj stBadArg []) fun k => JobEnded s t uj stOk (Crypto.hmac k.key inp))) ∧
    (∀ inp : List Byte,
      (s.jobReady 6 uj = true → Completes (.ecdsaSign inp true) s fun t => kept t ∧
        (s.vault.jobKey uj 3).elim (JobEnded s t uj stBadArg []) fun k =>
          (Crypto.sign (beNat k.key) (beNat (s.vault.draw 48).1 % (Crypto.pN - 1) + 1) (slice inp 0 48)).elim
            (JobEnded s t uj stIntegrity []) fun sig => JobEnded s t uj stOk sig) ∧
      (s.jobReady 7 uj = true → Completes (.ecdsaVerify inp true) s fun t => kept t ∧
        JobEnded s t uj (if Crypto.verify (slice inp 0 48) (slice inp 48 96) (slice inp 144 97) then stOk else stIntegrity) []) ∧
      (s.jobReady 8 uj = true → jF (slice inp 0 64) 1 1 = uj.1 → jF (slice inp 0 64) 2 1 = jF d 1 1 % 16 → jF (slice inp 0 64) 0 1 = (if uj.1 = 5 then 2 else 3) →
        Completes (.unwrap inp true) s fun t => SlotsKept s t [ds] ∧
          ((s.vault.kek (slice inp 0 64)).elim (JobEnded s t uj stBadArg [] ∧ kept t) fun kek =>
            (openWrapped kek (slice inp 0 64)).elim (JobEnded s t uj stIntegrity [] ∧ kept t) fun w => JobEnded s t uj stOk [] ∧
              mget t.vault.slots ds = some { typ := 1, exportable := jF (slice inp 0 64) 3 1 != 0, fixed := w.1, ctr := w.2.1, key := w.2.2 }))) ∧
    (s.jobReady 9 uj = true → Completes (.wrap true) s fun t => kept t ∧
      (s.vault.jobKey uj 4).elim (JobEnded s t uj stBadArg []) fun kek =>
        (mget s.vault.slots ds).elim (JobEnded s t uj stBadArg []) fun k => k.typ = 1 → k.half = none →
          if k.exportable = false then JobEnded s t uj stDenied []
          else JobEnded s t uj stOk (wrapBlob kek.key (if uj.1 = 5 then 2 else 3) uj.1 (jF d 1 1 % 16) true k.fixed k.ctr k.key)) ∧
    (s.jobReady 10 uj = true → Completes (.keygen true) s fun t => SlotsKept s t [ds] ∧
      let typ := jF d 8 8 % 8
      if typ = 0 ∨ 4 < typ then JobEnded s t uj stBadArg [] ∧ kept t
      else t.chip.rd (Reg.upage_JOB_STATUS uj.1) = wd stOk ∧
        (mget t.vault.slots ds).any (fun k => k.typ == typ && k.exportable == decide (128 ≤ jF d 2 1) && k.half.isNone &&
          t.chip.out == s.chip.out ++ (if typ = 3 then [.host (jF d 24 8) (Crypto.publicKey (beNat k.key))] else [])) = true) ∧
    (s.jobReady 11 uj = true → Completes (.zero true) s fun t => JobEnded s t uj stOk [] ∧ mget t.vault.slots sl = none ∧ SlotsKept s t [sl]) ∧
    (s.jobReady 12 uj = true → Completes (.random true) s fun t => kept t ∧
      if 4096 < jF d 16 4 then JobEnded s t uj stBadArg [] else JobEnded s t uj stOk (s.vault.draw (jF d 16 4)).1) ∧
    (s.jobReady 13 uj = true → Completes (.advance true) s fun t => SlotsKept s t [sl] ∧
      (s.vault.jobKey uj 1).elim (JobEnded s t uj stBadArg []) fun k =>
        if jF d 8 8 ≤ k.ctr then JobEnded s t uj stBadArg [] ∧ kept t
        else JobEnded s t uj stOk [] ∧ mget t.vault.slots sl = some { k with ctr := jF d 8 8 })
/-- On an active device: the owner of a user page other than UP0 and UP5 without keys changes at the request of agent 1 or 17; a
submitted job joins its page's queue, and is BUSY on a full queue or ABORTED in ERROR; a failed health test and a failed
self-test end in ERROR with every key zeroised, passed self-tests in READY; ZEROIZE.ALL empties every slot, SA and the generator,
and ends in ERROR when the read-back fails; KEK_ISSUE replies with a wrapped key to the owner of the page, or with its refusal. -/
def Obligations.VaultManagementCommandsComplete : Prop :=
  ∀ s : State, Active s →
    let rest := fun t : State => t.pending = s.pending ∧ t.aux = s.aux ∧ t.clk = s.clk
    let empty := fun t : State => t.vault.slots = [] ∧ t.vault.sas = [] ∧ t.vault.drbgKey = [] ∧ t.vault.jobs = []
    (∀ (a : Agent) (u : Fin 32),
      (∀ v : Word, MayWrite s a 0x010 → v &&& 0xFFFFFF00 = 0 → Completes (.upOwnerWrite a u v) s fun t => OnlyChip s t ∧
        t.chip.upOwner u = if u.val ≠ 0 ∧ u.val ≠ 5 ∧ (a.num = 1 ∨ a.num = 17) ∧ (∀ n : Fin 16, s.vault.slot u n = none) then v.toNat
          else s.chip.upOwner u) ∧
      (MayWrite s a (0x020 + u) → s.vault.jobBusy u = false → Completes (.jobSubmit a u) s fun t => rest t ∧
        if s.vault.state = 2 then t.chip.rd (Reg.upage_JOB_STATUS u) = wd stAborted ∧ t.vault = s.vault
        else if 4 ≤ (s.vault.queueOf u).length then t.chip.rd (Reg.upage_JOB_STATUS u) = wd stBusy ∧ t.vault = s.vault
        else t.vault.queueOf u = s.vault.queueOf u ++ [{ desc := s.chip.jobDesc u, sluice := none }] ∧ t.vault.slots = s.vault.slots)) ∧
    (s.vault.state ≠ 2 → Completes .healthTestFail s fun t => rest t ∧ t.vault.state = 2 ∧ empty t ∧
      t.chip.rd Reg.vault_HEALTH_FAIL_CNT = satAdd (s.chip.rd Reg.vault_HEALTH_FAIL_CNT) 1 ∧
      t.chip.rdB (Reg.INT_CAUSE 0x010) 25 = true ∧ t.chip.rdB (Reg.INT_CAUSE 0x010) 26 = true) ∧
    (∀ (a : Agent) (ok : Bool), MayWrite s a 0x010 → (a.num = 1 ∨ a.num = 17) → Completes (.zeroizeAll a ok) s fun t => rest t ∧ empty t ∧
      t.vault.state = (if ok then s.vault.state else 2) ∧ t.chip.rdB (Reg.INT_CAUSE 0x010) 24 = true) ∧
    (s.vault.state = 0 →
      Completes (.katDone none) s (fun t => rest t ∧ t.vault.state = 1 ∧ t.vault.slots = s.vault.slots) ∧
      (∀ n : Fin 16, Completes (.katDone (some n)) s fun t => rest t ∧ t.vault.state = 2 ∧ empty t ∧
        t.chip.rdF Reg.vault_KAT_STAT 31 24 = n.val ∧ t.chip.rdB (Reg.INT_CAUSE 0x010) 25 = true)) ∧
    (s.chip.sluState 0 = 3 → ∀ (a : Agent) (u : Byte) (ex : Bool), Completes (.kekIssue a u ex) s fun t => rest t ∧ t.vault.slots = s.vault.slots ∧
      let say := fun st : Nat => t.chip.out = s.chip.out ++ [.reply 1 0x0301 st []]
      if 32 ≤ u.toNat then say stBadArg
      else if s.chip.upOwner u.toNat ≠ a.num then say stDenied
      else if s.vault.state ≠ 1 then say stAborted
      else (s.vault.slot 0 0).elim (say stBadArg) fun _ => t.chip.out.length = s.chip.out.length + 1 ∧
        t.vault.drbgCount = (s.vault.seed).drbgCount + 1)
/-- On an active device: a doorbell sets RING_TAIL; a TX descriptor of a running ring that offers one injects its frame and is
written back done, or ends BAD_ARG for a length outside 60 to 16,363; a copy for the host is laid into the buffers its ring offers
and leaves; a table list starts, and ends when its blocks are answered, or at once with BAD_ARG for a count of 0 or above 4,096; a
failed read ends the descriptor and stops the ring with DMA_ERR holding the first error; a coalescing time that runs out makes the
ring assert; RING_CFG starts a ring empty at its tail, stops it, and keeps its locked fields while EN is 1. -/
def Obligations.HostRingCommandsComplete : Prop :=
  ∀ (s : State) (g : Fin 64), Active s →
    let done := fun (t : State) (d : List Byte) =>
      t.chip.rdF (ringHead g) 15 0 = (s.chip.rdF (ringHead g) 15 0 % s.chip.ringSize g + 1) % s.chip.ringSize g ∧
      (t.chip.out.drop s.chip.out.length).contains (.host (s.chip.ringBase g + 32 * (s.chip.rdF (ringHead g) 15 0 % s.chip.ringSize g) + 8) (slice d 8 24)) = true
    (∀ (a : Agent) (v : Word), MayWrite s a (0x261 + g / 8) → v.toNat < 65536 → Completes (.ringDoorbell a g v) s fun t => OnlyChip s t ∧
      t.chip.rd (ringTail g) = v ∧ t.chip.rd (ringHead g) = s.chip.rd (ringHead g) ∧ t.chip.rd (ringCfg g) = s.chip.rd (ringCfg g)) ∧
    (∀ d frame : List Byte, s.chip.ringRuns g 1 = true → s.chip.ringOffered g ≠ 0 → d.length = 32 → s.chip.fbOn (s.chip.poolFor (txFrame d frame).length) 1 = false →
      Completes (.txDescriptor g d frame) s fun t => OnlyChip s t ∧
        if leNat (slice d 8 2) < 60 ∨ 16363 < leNat (slice d 8 2) then done t (txEnd d stBadArg) ∧ t.chip.frames = s.chip.frames
        else done t (txEnd d stOk) ∧ t.chip.nextFrame = s.chip.nextFrame + 1 ∧
          (s.chip.bmReady = true → s.chip.buf.waiting = [] → s.chip.grantable (s.chip.poolFor (txFrame d frame).length) false = true →
            (mget t.chip.frames s.chip.nextFrame).any (fun f => f.inLp == 1152 && f.bytes == txFrame d frame && !f.bufs.isEmpty) = true)) ∧
    (∀ (h : Fin 16) (addrs : List (BitVec 64)), ∀ x ∈ s.chip.hostOut h, s.chip.hqRing h = some g.val → (mget s.chip.frames x.2.fid).isSome = true →
      s.chip.faulted pgDma = false → s.chip.inReset pgDma = false → x.2.out ≠ [] →
      let need := (x.2.out.length + s.chip.ringBuf g - 1) / s.chip.ringBuf g
      need ≤ addrs.length → need ≤ s.chip.ringOffered g →
      Completes (.rxDescriptor h addrs) s fun t => OnlyChip s t ∧ mget t.chip.sw.copies x.1 = none ∧
        t.chip.rdF (ringHead g) 15 0 = (s.chip.rdF (ringHead g) 15 0 % s.chip.ringSize g + need) % s.chip.ringSize g ∧
        (addrs.head?).any (fun a => (t.chip.out.drop s.chip.out.length).contains (.host a.toNat (x.2.out.take (s.chip.ringBuf g)))) = true) ∧
    (∀ (d : List Byte) (blocks : List (List Byte)), s.chip.ringRuns g 3 = true → s.chip.ringOffered g ≠ 0 → mget s.chip.dma.lists g = none →
      d.length = 32 → Completes (.tableDescriptor g d blocks) s fun t => OnlyChip s t ∧
        let n := leNat (slice d 8 4)
        let c := s.chip.tblSubmit s.clk { agent := s.chip.ringAgent g, dma := true, blk := slice (blocks.headD []) 0 64, dest := .out }
        if n = 0 ∨ 4096 < n then done t (listEnd { desc := d, blocks := [], count := 0, status := stBadArg, answer := none }) ∧ t.chip.tbl = s.chip.tbl
        else if c.out = s.chip.out then (mget t.chip.dma.lists g).any (fun l => l.desc == d && l.count == 0) = true
        else (c.out = s.chip.out ++ [.data 1 c.lastBlk] →
          (t.chip.out.drop s.chip.out.length).contains (.host (leNat (slice d 0 8)) c.lastBlk) = true ∧
          (n = 1 → t.chip.tbl.em = c.tbl.em ∧
            done t (listEnd { desc := d, blocks := [], count := 1, status := blkNat c.lastBlk 3 1, answer := none })))) ∧
    (∀ (d : List Byte) (adr : BitVec 64), s.chip.ringRuns g 1 = true ∨ s.chip.ringRuns g 2 = true ∨ s.chip.ringRuns g 3 = true →
      s.chip.ringOffered g ≠ 0 → d.length = 32 →
      let stopped := fun (t : State) (kind : Nat) => t.chip.rdF (ringStat g) 1 0 = 2 ∧ t.chip.rdB (Reg.INT_CAUSE pgDma) 27 = true ∧
        (s.chip.rdB Reg.dma_DMA_ERR 31 = false → t.chip.rd Reg.dma_DMA_ERR = wd (0x80000000 + kind * 0x1000000 + g.val) ∧
          t.chip.rd64 Reg.dma_DMA_ERR_ADDR_LO Reg.dma_DMA_ERR_ADDR_HI = adr.toNat) ∧
        (s.chip.rdB Reg.dma_DMA_ERR 31 = true → t.chip.rd Reg.dma_DMA_ERR = s.chip.rd Reg.dma_DMA_ERR)
      (∀ kind : Fin 3, Completes (.dmaReadError g kind d adr) s fun t => OnlyChip s t ∧ stopped t (kind + 1) ∧
        (s.chip.rdF (ringCfg g) 1 0 = 1 → done t (txEnd d stIntegrity))) ∧
      Completes (.cplTmo g d adr) s (fun t => OnlyChip s t ∧ stopped t 4 ∧ (s.chip.rdF (ringCfg g) 1 0 = 1 → done t (txEnd d stTimeout)))) ∧
    (s.chip.rdF (Reg.ringblk_RING_COAL (g / 8) (g % 8)) 31 16 ≠ 0 → s.chip.ringBeyond g ≠ 0 →
      Completes (.coalTime g) s fun t => OnlyChip s t ∧ t.chip.ringAsserts g = true) ∧
    (∀ (a : Agent) (v : Word), MayWrite s a (0x261 + g / 8) → v &&& ~~~ 0x9F1F0003 = 0 →
      Completes (.ringCfgWrite a g v) s fun t => OnlyChip s t ∧
        if s.chip.rdB (ringCfg g) 31 = false then t.chip.rd (ringCfg g) = v ∧
          (bit v 31 = true → t.chip.ringOffered g = 0 ∧ t.chip.rdF (ringStat g) 1 0 = (if fld v 1 0 = 0 then 0 else 1))
        else if bit v 31 = true then t.chip.rd (ringCfg g) = s.chip.rd (ringCfg g) ∧
          (v &&& 0x1F1F0003 ≠ s.chip.rd (ringCfg g) &&& 0x1F1F0003 → t.chip.rdB (Reg.INT_CAUSE (0x261 + g / 8)) 28 = true)
        else t.chip.rdB (ringCfg g) 31 = false ∧ t.chip.rd (ringStat g) = 0 ∧ mget t.chip.dma.lists g = none)
/-- On an active device: a function-level reset disables every ring of the blocks the function owns, ends their lists and releases
its agent's locks, and leaves the rings of other blocks; a change of VF Enable gives each block its owner and disables the rings
of each block that moves; an SMBus read answers the word its command names, and a NACK for a command that names none. -/
def Obligations.FunctionAndSmbusCommandsComplete : Prop :=
  ∀ s : State, Active s →
    (∀ f : Fin 8, Completes (.flr f) s fun t => OnlyChip s t ∧
      (∀ g : Fin 64, if s.chip.blockOwner (g / 8) = f then
          t.chip.rdB (ringCfg g) 31 = false ∧ t.chip.rd (ringStat g) = 0 ∧ mget t.chip.dma.lists g = none
        else t.chip.rd (ringCfg g) = s.chip.rd (ringCfg g) ∧ mget t.chip.dma.lists g = mget s.chip.dma.lists g) ∧
      (∀ i : Fin 64, t.chip.lockOwner i ≠ f + 1) ∧ (∀ kl ∈ t.chip.tbl.locks, kl.2.agent ≠ f + 1)) ∧
    (∀ (en : Bool) (num : Fin 8), Completes (.vfEnableChange en num) s fun t => OnlyChip s t ∧
      ∀ b : Fin 8, t.chip.blockOwner b = (if en = true ∧ 1 ≤ b.val ∧ b ≤ num then b.val else 0) ∧
        (s.chip.blockOwner b ≠ t.chip.blockOwner b → ∀ j : Fin 8, t.chip.rdB (ringCfg (8 * b + j)) 31 = false)) ∧
    (∀ cmd : Byte, Completes (.smbusReadWord cmd) s fun t => OnlyChip s t ∧ t.chip.regs = s.chip.regs ∧
      t.chip.out = s.chip.out ++ [.smbus ((s.smbusWord cmd.toNat).map (BitVec.ofNat 16))] ∧
      ((s.smbusWord cmd.toNat).isSome = true ↔ 1 ≤ cmd.toNat ∧ cmd.toNat ≤ 6))
/-- On an active device, by agent 1 or 34: each lifecycle command clears TOKEN_BUF, stores its status and sets its event. It is DENIED
outside the states that have it. PROVISION with a good buffer burns PROVISIONED, a device secret, the hashes, and derives the device
keys; DEPLOY burns DEPLOYED; CHALLENGE makes a fresh challenge current; UNLOCK opens a session with a good token and counts a
failed one; RELOCK, and a session's end, close it; RMA and DISABLE zeroise, destroy the secret and burn their state; ADD_KEY,
REVOKE_KEY and SVN_ADVANCE change one slot or floor. -/
def Obligations.LifecycleCommandsComplete : Prop :=
  ∀ s : State, Active s →
    (∀ (a : Agent) (arg : BitVec 20), MayWrite s a 0x004 → (a.num = 1 ∨ a.num = 34) →
      let st := s.aux.lifecycle
      let buf := readBytes s.aux.tokenBuf 0 256
      let rest := fun t : State => t.pending = s.pending ∧ t.clk = s.clk ∧ t.aux.rail = s.aux.rail
      let ended := fun (t : State) (code : Nat) => rest t ∧ t.chip.rd Reg.life_LC_STATUS = wd code ∧ t.aux.tokenBuf = [] ∧ t.chip.rdB (Reg.INT_CAUSE 4) 0 = true
      let same := fun t : State => t.aux.otp = s.aux.otp ∧ t.aux.session = s.aux.session ∧ t.vault.slots = s.vault.slots
      let gone := fun (t : State) (code : Nat) => t.aux.otp.fuse = some code ∧ t.aux.otp.secret = List.replicate 32 0xFF ∧ t.aux.session = none ∧ t.vault.slots = [] ∧ t.vault.sas = []
      Completes (.provision a arg) s (fun t => 
        if st ≠ 0 then ended t stDenied ∧ same t
        else if 4 < beNat (slice buf 0 4) ∨ allZero (slice buf 4 12) = false ∨ allZero (buf.drop (64 + 48 * beNat (slice buf 0 4))) = false then ended t stBadArg ∧ same t
        else ended t stOk ∧ t.aux.otp.fuse = some 1 ∧ t.aux.otp.secret.length = 32 ∧ t.aux.otp.dbgHash = slice buf 16 48 ∧ t.chip.rdB (Reg.INT_CAUSE 4) 27 = true ∧
          (∀ k : Fin 4, (t.aux.otp.custKeys[k.val]?).join = if k.val < beNat (slice buf 0 4) then some (slice buf (64 + 48 * k.val) 48, false) else none) ∧
          (t.vault.slot 0 0).any (fun k => k.typ == 4 && !k.exportable && k.key == deviceKek t.aux.otp.secret) = true) ∧
      Completes (.deploy a arg) s (fun t => if st ≠ 1 then ended t stDenied ∧ same t
        else ended t stOk ∧ t.aux.otp.fuse = some 2 ∧ t.aux.session = s.aux.session ∧ t.chip.rdB (Reg.INT_CAUSE 4) 27 = true) ∧
      Completes (.challenge a arg) s (fun t => ended t stOk ∧ same t ∧ t.aux.chalCurrent = true ∧ t.vault.drawn = s.vault.drawn + 32 ∧
        ∀ n : Fin 8, t.chip.rd (Reg.life_DBG_CHAL n) = wd (beNat ((List.range 4).map fun j => Config.entropy (s.vault.drawn + (4 * n.val + j))))) ∧
      Completes (.unlock a arg) s (fun t => if st ≠ 2 ∨ 8 ≤ s.aux.fails then ended t stDenied ∧ same t ∧ t.aux.fails = s.aux.fails
        else let code := s.tokenCheck 4 s.aux.otp.dbgHash
          ended t code ∧ t.aux.otp = s.aux.otp ∧ t.aux.chalCurrent = false ∧
          t.aux.fails = (if code = stIntegrity then s.aux.fails + 1 else s.aux.fails) ∧
          t.aux.session = (if code = stOk then some { mask := beNat (slice buf 5 1), length := beNat (slice buf 8 4), at_ := s.clk.now } else s.aux.session)) ∧
      Completes (.relock a arg) s (fun t => if st ≠ 3 then ended t stDenied ∧ same t
        else ended t stOk ∧ t.aux.session = none ∧ t.aux.otp = s.aux.otp ∧ t.chip.rdB (Reg.INT_CAUSE 4) 26 = true) ∧
      Completes (.rma a arg) s (fun t => if st ≠ 1 ∧ st ≠ 2 ∧ st ≠ 3 then ended t stDenied ∧ same t
        else let code := s.tokenCheck 6 Config.rmaKeyHash
          ended t code ∧ t.aux.chalCurrent = false ∧ if code = stOk then gone t 4 else same t) ∧
      Completes (.disable a arg) s (fun t => if st = 0 ∨ st = 4 then ended t stOk ∧ gone t 5
        else if st ≠ 1 ∧ st ≠ 2 ∧ st ≠ 3 then ended t stDenied ∧ same t
        else let code := s.tokenCheck 7 s.aux.otp.dbgHash
          ended t code ∧ t.aux.chalCurrent = false ∧ if code = stOk then gone t 5 else same t) ∧
      Completes (.addKey a arg) s (fun t => if st ≠ 1 ∧ st ≠ 2 then ended t stDenied ∧ same t
        else (s.aux.otp.custKeys.findIdx? Option.isNone).elim (ended t stFull ∧ same t) fun k =>
          ended t stOk ∧ t.aux.otp.custKeys = s.aux.otp.custKeys.set k (some (slice buf 0 48, false)) ∧ t.aux.otp.svn = s.aux.otp.svn) ∧
      Completes (.revokeKey a arg) s (fun t => if st ≠ 1 ∧ st ≠ 2 then ended t stDenied ∧ same t
        else ((s.aux.otp.custKeys[arg.toNat % 4]?).join).elim (ended t stNotFound ∧ same t) fun x =>
          ended t stOk ∧ t.aux.otp.custKeys = s.aux.otp.custKeys.set (arg.toNat % 4) (some (x.1, true)) ∧ t.aux.otp.svn = s.aux.otp.svn) ∧
      Completes (.svnAdvance a arg) s (fun t => if st ≠ 1 ∧ st ≠ 2 ∧ st ≠ 3 then ended t stDenied ∧ same t
        else (s.aux.otp.svn[arg.toNat / 65536]?).elim (ended t stBadArg ∧ same t) fun x =>
          if arg.toNat % 65536 ≤ x.1 ∨ s.chip.runningSvn (arg.toNat / 65536) < arg.toNat % 65536 then ended t stBadArg ∧ same t
          else if x.2 = 0 then ended t stFull ∧ same t
          else ended t stOk ∧ t.aux.otp.svn = s.aux.otp.svn.set (arg.toNat / 65536) (arg.toNat % 65536, x.2 - 1) ∧ t.aux.otp.custKeys = s.aux.otp.custKeys)) ∧
    (Completes .challengeExpiry s fun t => t = { s with aux := { s.aux with chalCurrent := false } }) ∧
    (∀ x ∈ s.aux.session, Completes .dbgWarn s fun t => t.aux.otp = s.aux.otp ∧ t.vault = s.vault ∧ t.chip.rdB (Reg.INT_CAUSE 4) 25 = true ∧
      t.aux.session = some { mask := x.mask, length := 60, at_ := s.clk.now }) ∧
    (s.aux.session.isSome = true → Completes .debugSessionExpiry s fun t => t.pending = s.pending ∧ t.clk = s.clk ∧ t.vault = s.vault ∧ t.aux.otp = s.aux.otp ∧
      t.aux.session = none ∧ t.chip.rdB (Reg.INT_CAUSE 4) 26 = true ∧ t.chip.rdB (Reg.INT_CAUSE 4) 27 = true ∧
      ∀ r : Fin 16, 8 ≤ r.val → (s.chip.slu1 r).dbgWritten = true → (t.chip.slu1 r).cs = [] ∧ (t.chip.slu1 r).dbgWritten = false)
/-- On an active device FREEZE_N, and FRZ_NOW of agent 1 or 34, freeze it and keep the first record of why and when; FRZ_CLR clears
the record only; the test port takes IDCODE, BYPASS, and another instruction where boundary scan is open, BYPASS elsewhere;
RECOV_CMD of a booted device is DENIED. On a frozen device a read through the frozen port returns the register where read-out
is open, and an error elsewhere. In recovery, an image that fails a check is reported with the check's status and boot does not go
on; one that passes boots. -/
def Obligations.FreezeAndRecoveryCommandsComplete : Prop :=
  ∀ s : State,
    let froze := fun (t : State) (kind : Nat) => t.aux.frozen = true ∧ t.pending = s.pending ∧ t.clk = s.clk ∧ t.vault = s.vault ∧ t.chip.regs = s.chip.regs ∧
      (s.aux.frzKind = 0 → t.aux.frzKind = kind ∧ t.aux.frzPage = 0 ∧ t.aux.frzSec = todSec s.clk.tod % 4294967296 ∧ t.aux.frzNs = todNs s.clk.tod) ∧
      (s.aux.frzKind ≠ 0 → t.aux.frzKind = s.aux.frzKind ∧ t.aux.frzSec = s.aux.frzSec)
    (Active s →
      Completes .freezeN s (fun t => froze t 1) ∧
      (∀ a : Agent, MayWrite s a 0x004 →
        ((a.num = 1 ∨ a.num = 34) → Completes (.frzNow a) s fun t => froze t 2) ∧
        (a.num ≠ 1 ∧ a.num ≠ 34 → Completes (.frzNow a) s fun t => OnlyChip s t) ∧
        (∀ v : Word, Completes (.frzClr a v) s fun t => t.clk = s.clk ∧ t.vault = s.vault ∧ t.aux.frozen = s.aux.frozen ∧
          if bit v 31 = true then t.aux.frzStat = 0 ∧ t.aux.frzSec = 0 ∧ t.aux.frzNs = 0 else t.aux = s.aux) ∧
        (∀ (img : List Byte) (b : Boot), a.num = 1 → Completes (.recovCmd a img b) s fun t => OnlyChip s t ∧ t.chip.rd Reg.life_RECOV_STATUS = wd stDenied)) ∧
      (∀ ir : ScanInstr, Completes (.boundaryScan ir) s fun t => t.chip = s.chip ∧ t.clk = s.clk ∧ t.vault = s.vault ∧
        t.aux = { s.aux with tap := if ir = .idcode ∨ ir = .bypass ∨ s.facility 0 = true then ir else .bypass })) ∧
    (s.aux.rail = .run → s.aux.frozen = true → s.aux.pstate = 0 → s.chip.settled = true →
      (s.facility 1 = false → ∀ x : FrozenTarget, Completes (.frozenRead x) s fun t => OnlyChip s t ∧ t.chip.regs = s.chip.regs ∧ t.chip.out = s.chip.out ++ [.frozen none]) ∧
      (s.facility 1 = true → ∀ off : Nat, ∀ k ∈ Reg.kindOf (off / 65536), ∀ row ∈ Reg.rowAt off, k ≠ .port →
        Completes (.frozenRead (.reg off)) s fun t => OnlyChip s t ∧ t.chip.regs = s.chip.regs ∧
          t.chip.out = s.chip.out ++ [.frozen (some (BitVec.ofNat 64 (s.peek k row off).toNat))]) ∧
      (s.facility 1 = true → s.aux.keysReadable = false → ∀ u < 32, ∀ word : Nat,
        Completes (.frozenRead (.sram (0x020 + u) 0 word)) s fun t => OnlyChip s t ∧ t.chip.out = s.chip.out ++ [.frozen (some 0)])) ∧
    (s.live = true → s.aux.phase = 15 → s.aux.pstate = 0 → s.chip.settled = true → ∀ (img : List Byte) (b : Boot), MayWrite s .pf0 0x004 →
      Completes (.recovCmd .pf0 img b) s fun t => t.pending = s.pending ∧ t.aux.otp = s.aux.otp ∧
        let st := s.aux.imgCheck 0 (s.chip.rd Reg.life_RECOV_LEN).toNat img
        if st = stOk then t.aux.phase = 6 ∧ t.aux.bootSlot = 2
        else t.chip.rd Reg.life_RECOV_STATUS = wd st ∧ t.aux = s.aux ∧ t.clk = s.clk)
/-- On an active device: an estimate tick takes the seven raw estimates and shows each domain's budget and estimate; a missing window
is counted and the fourth freezes the gain; a window that does not diverge moves an unfrozen gain an eighth of the way, within 0.5
to 2.0; a divergent one is counted to four, which sets DIVERGENT; CLR ends a divergence; APPLY takes fractions that sum to 100%
and refuses others; CAP_SET, GET_STATUS and GROUP_CFG change what they name and are answered. -/
def Obligations.PowerCapCommandsComplete : Prop :=
  ∀ s : State, Active s →
    (∀ raw : List Nat, Completes (.estimateTick raw) s fun t => OnlyChip s t ∧ t.chip.pwr.raw = raw ∧
      (∀ d : Fin 7, t.chip.rd (Reg.pwr_DOM_EST d) = wd (tenths (t.chip.budget d) * 65536 + tenths (t.chip.est d)) ∧ t.chip.budget d = s.chip.budget d) ∧
      t.chip.rdF Reg.pwr_TOT_EST 31 16 = tenths (5 * s.chip.gain * raw.foldl (· + ·) 0)) ∧
    (∀ (m : Option Nat) (mean : Nat), s.chip.pmbEnabled = true → Completes (.pmbusWindow m mean) s fun t => OnlyChip s t ∧
      m.elim (t.chip.rd Reg.pwr_PMB_ERR_CNT = satAdd (s.chip.rd Reg.pwr_PMB_ERR_CNT) 1 ∧ t.chip.rdB Reg.pwr_PMB_MEAS 31 = false ∧ t.chip.gain = s.chip.gain ∧
        t.chip.pwr.missing = min 4 (s.chip.pwr.missing + 1) ∧ (s.chip.pwr.missing = 3 → t.chip.rdB (Reg.INT_CAUSE 2) 25 = true ∧ t.chip.rdB Reg.pwr_CAL_STAT 30 = true))
      fun w =>
        let v := w % 65536
        let e := mean * s.chip.gain
        let diff := max e (4096 * v) - min e (4096 * v)
        t.chip.rd Reg.pwr_PMB_MEAS = wd (0x80000000 + v) ∧ t.chip.pwr.missing = 0 ∧
        (12 * 4096 * v < 100 * diff → t.chip.gain = s.chip.gain ∧ t.chip.rdF Reg.pwr_CAL_STAT 18 16 = min 4 (s.chip.rdF Reg.pwr_CAL_STAT 18 16 + 1) ∧
          (s.chip.rdF Reg.pwr_CAL_STAT 18 16 = 3 → t.chip.rdB Reg.pwr_CAL_STAT 31 = true ∧ t.chip.pwrAlert = true)) ∧
        (100 * diff ≤ 12 * 4096 * v → t.chip.rdF Reg.pwr_CAL_STAT 18 16 = 0 ∧
          (s.chip.rdB Reg.pwr_CAL_STAT 31 = true ∨ s.chip.rdB Reg.pwr_CAL_CTL 8 = true → t.chip.gain = s.chip.gain) ∧
          (s.chip.rdB Reg.pwr_CAL_STAT 31 = false → s.chip.rdB Reg.pwr_CAL_CTL 8 = false → mean ≠ 0 →
            t.chip.gain = max 2048 (min 8192 ((7 * s.chip.gain * mean + 4096 * v) / (8 * mean)))))) ∧
    (∀ a : Agent, MayWrite s a 0x002 →
      Completes (.calClr a) s (fun t => OnlyChip s t ∧ t.chip.rdB Reg.pwr_CAL_STAT 31 = false ∧ t.chip.rdF Reg.pwr_CAL_STAT 18 16 = 0 ∧
        t.chip.gain = s.chip.gain ∧ t.chip.rdB Reg.pwr_CAL_STAT 30 = s.chip.rdB Reg.pwr_CAL_CTL 8) ∧
      Completes (.fracApply a) s (fun t => OnlyChip s t ∧
        if a.num ≠ 1 ∧ a.num ≠ 23 then t.chip.pwr = s.chip.pwr ∧ t.chip.rdB (Reg.INT_CAUSE 2) 28 = true
        else if s.chip.fracRegs.foldl (· + ·) 0 = 200 then t.chip.pwr.fracs = s.chip.fracRegs ∧ t.chip.regs = s.chip.regs
        else t.chip.pwr = s.chip.pwr ∧ t.chip.rdB (Reg.INT_CAUSE 2) 22 = true)) ∧
    (s.chip.sluState 6 = 3 →
      (∀ (en : Bool) (w : Nat) (fr : List Nat), fr.length = 7 → (fr.all (· < 256)) = true → Completes (.capSet en w fr) s fun t => OnlyChip s t ∧
        if fr.foldl (· + ·) 0 ≠ 200 then t.chip.out = s.chip.out ++ [.reply 13 1 stBadArg []] ∧ t.chip.regs = s.chip.regs ∧ t.chip.pwr = s.chip.pwr
        else t.chip.out = s.chip.out ++ [.reply 13 1 stOk []] ∧ t.chip.pwr.fracs = fr ∧ t.chip.rdB Reg.pwr_CAP_CTL 31 = en ∧
          t.chip.rdF Reg.pwr_CAP_CTL 9 0 = w % 1024) ∧
      Completes .pwrGetStatus s (fun t => OnlyChip s t ∧ t.chip.regs = s.chip.regs ∧ t.chip.out.length = s.chip.out.length + 1) ∧
      (∀ (en lead : Bool) (id : Byte) (p : Nat), Completes (.groupCfg en lead id p) s fun t => OnlyChip s t ∧ t.chip.regs = s.chip.regs ∧
        t.chip.out = s.chip.out ++ [.reply 13 3 stOk []] ∧
        t.chip.pwr.grpNext = some (wd (en.toNat * 0x80000000 + lead.toNat * 0x40000000 + id.toNat), wd (p % 128))))

/-- On an active device: at a pace instant device time stands at that instant, the pace moves by at most one step, and only with the
spare PLL locked to the new pace, without droop, from ARMED, and a group's leader sends a frame; a PLL lock, droop and its end, and
a resume move the machine; a member of a group passes a good frame on with the slower demand and takes its decision, and passes a
bad one on with a wrong CRC; loss and exit leave the group ALONE; a thermal sample sets the sensors, Tj, the demand, the cap and
OVERTEMP with 3 °C of hysteresis; THERMTRIP is kept until THERM_CLR. -/
def Obligations.PaceAndThermalCommandsComplete : Prop :=
  ∀ s : State, Active s →
    (∀ idle : List (Fin 1152), Completes (.paceInstant idle) s fun t => t.pending = s.pending ∧ t.aux = s.aux ∧ t.vault = s.vault ∧
      t.clk = s.clk.advance (s.chip.nextInstant s.clk) ∧
      (t.chip.pace = s.chip.pace ∨ t.chip.pace = s.chip.pace + 1 ∨ t.chip.pace + 1 = s.chip.pace) ∧
      (t.chip.pace ≠ s.chip.pace → s.chip.paceState = 1 ∧ s.chip.pwr.spare = some (t.chip.pace, true) ∧ s.chip.droop = false ∧
        t.chip.paceState = 0) ∧
      (s.chip.rdB Reg.pwr_GRP_CTL 31 = true → s.chip.rdB Reg.pwr_GRP_CTL 30 = true → s.chip.pwr.grpNext = none →
        (t.chip.out.drop s.chip.out.length).any (fun x => match x with | .paceOut f => fld f 4 0 == crc5 f && fld f 31 28 == 10 | _ => false) = true)) ∧
    (∀ x ∈ s.chip.pwr.spare, Completes .pacePllLock s fun t => OnlyChip s t ∧ t.chip.regs = s.chip.regs ∧ t.chip.pwr.spare = some (x.1, true)) ∧
    Completes .droopStart s (fun t => OnlyChip s t ∧ t.chip.droop = true ∧ t.chip.pace = s.chip.pace ∧
      (s.chip.droop = false → t.chip.rd Reg.pwr_DROOP_CNT = satAdd (s.chip.rd Reg.pwr_DROOP_CNT) 1 ∧ t.chip.rdB (Reg.INT_CAUSE 2) 19 = true)) ∧
    Completes .droopEnd s (fun t => OnlyChip s t ∧ t.chip.droop = false ∧ t.chip.pace = s.chip.pace ∧
      (s.chip.droop = true → t.chip.pwr.droopClear = some s.clk.now)) ∧
    (s.chip.paceState = 2 → s.chip.droop = false → Completes .paceDeferResume s fun t => OnlyChip s t ∧ t.chip.pace = s.chip.pace ∧
      t.chip.paceState = (if s.chip.paceWant = s.chip.pace then 0 else 1)) ∧
    (∀ f : Word, s.chip.rdB Reg.pwr_GRP_CTL 31 = true → s.chip.rdB Reg.pwr_GRP_CTL 30 = false → fld f 31 28 = 10 →
      Completes (.groupFrameReceive f) s fun t => OnlyChip s t ∧
        if fld f 4 0 ≠ crc5 f ∨ fld f 27 20 ≠ s.chip.rdF Reg.pwr_GRP_CTL 7 0 then
          t.chip.out = s.chip.out ++ [.paceOut (f ^^^ 0x1F)] ∧ t.chip.pwr.validRun = 0 ∧ t.chip.regs = s.chip.regs
        else t.chip.rdF Reg.pwr_GRP_STAT 15 8 = fld f 19 12 ∧ t.chip.pwr.validRun = min 3 (s.chip.pwr.validRun + 1) ∧
          (t.chip.out.drop s.chip.out.length).contains
            (.paceOut (paceFrame (fld f 27 20) (fld f 19 12) (max (fld f 11 9) s.chip.paceTarget) (fld f 8 6) (bit f 5))) = true ∧
          (bit f 5 = true → t.chip.rdF Reg.pwr_PACE_STAT 6 4 = fld f 8 6 ∧ t.chip.pwr.decidedValid = true)) ∧
    (s.chip.inGroup = true → Completes .groupLoss s (fun t => OnlyChip s t ∧ t.chip.inGroup = false ∧ t.chip.rdB Reg.pwr_GRP_STAT 31 = true ∧
        t.chip.rd Reg.pwr_GRP_LOSS_CNT = satAdd (s.chip.rd Reg.pwr_GRP_LOSS_CNT) 1 ∧ t.chip.rdB (Reg.INT_CAUSE 2) 21 = true) ∧
      (s.chip.pace < s.chip.rdF Reg.therm_THERM_STAT 26 24 → Completes .groupExit s fun t => OnlyChip s t ∧ t.chip.inGroup = false ∧
        t.chip.rdB (Reg.INT_CAUSE 2) 20 = true)) ∧
    (∀ (x : List Int) (stuck : List (Fin 26)), Completes (.thermalSample x stuck) s fun t => OnlyChip s t ∧ t.chip.pace = s.chip.pace ∧
      let bad := stuck.map Fin.val
      let j := junction bad x
      let l := limitsAfter s.chip.pwr.limits j.2
      (∀ n : Fin 26, t.chip.rdB (Reg.therm_TSENS n) 31 = tempOk bad n (x[n.val]?.getD 0)) ∧
      t.chip.rd Reg.therm_TJ_MAX = wd (j.1 * 0x1000000 + temp16 j.2) ∧
      t.chip.rdF Reg.therm_THERM_STAT 26 24 = (l.filter (· < 4)).length ∧ t.chip.rdB Reg.therm_THERM_STAT 31 = l.contains 4 ∧
      t.chip.rdF Reg.therm_THERM_STAT 9 0 = thermCap l j.2 ∧
      (s.chip.rdF Reg.therm_THERM_STAT 26 24 < (l.filter (· < 4)).length → t.chip.rdB (Reg.INT_CAUSE 7) 26 = true)) ∧
    Completes .thermtrip s (fun t => t.chip = s.chip ∧ t.clk = s.clk ∧ t.vault = s.vault ∧ t.aux.trip = true ∧ t.aux.thermtrip = true ∧ t.aux.otp = s.aux.otp) ∧
    (∀ (a : Agent) (v : Word), MayWrite s a 0x007 → Completes (.thermClr a v) s fun t => t.clk = s.clk ∧ t.vault = s.vault ∧
      t.aux.trip = (if bit v 30 then false else s.aux.trip) ∧ t.aux.thermtrip = s.aux.thermtrip ∧ t.aux.otp = s.aux.otp)
/-- From every state: AUX power-on clears everything but the fuses and the flash, and the device is held; removal leaves it off. With
AUX up, POR_N resets and boots it; a running device is reset and booted by SYS_RST_N, and by RST_CTL.SW_RST of agent 1, which it
refuses from another agent. A reset adds its cause, keeps the fuses and the freeze record, ends the session, clears the Vault, and
boots the slot that passes: READY, or recovery when both fail, or a stop in DISABLED. PERST_N disables every ring and gives every
block to PF0. -/
def Obligations.ResetCommandsComplete : Prop :=
  ∀ s : State,
    let booted := fun (t : State) (b : Boot) (cause : Nat) => t.pending = s.pending ∧ t.aux.otp = s.aux.otp ∧ t.aux.rail = .run ∧ t.aux.session = none ∧
      t.aux.frozen = false ∧ t.aux.pstate = 0 ∧ t.vault.sas = [] ∧ (s.chip.flash = [] →
        t.aux.rstCause = s.aux.rstCause ||| cause ||| (if s.aux.thermtrip then 8 else 0) ∧ t.aux.frzKind = s.aux.frzKind ∧ t.aux.frzSec = s.aux.frzSec) ∧
      (if t.aux.lifecycle = 5 then t.aux.phase = 1
       else if b.fail0.val ≠ 0 ∧ b.fail1.val ≠ 0 then t.aux.phase = 15 ∧ t.aux.fail0 = b.fail0 ∧ t.aux.fail1 = b.fail1
       else t.aux.phase = 6 ∧ bootFail b t.aux.bootSlot = 0 ∧
         (b.kat = none → t.vault.state = 1 ∧ (s.aux.otp.secret ≠ [] → (t.vault.slot 0 0).any (fun k => k.typ == 4 && k.key == deviceKek s.aux.otp.secret) = true)) ∧
         (b.kat ≠ none → t.vault.state = 2 ∧ t.vault.slots = []))
    Completes .auxPowerOn s (fun t => t.pending = s.pending ∧ t.aux.otp = s.aux.otp ∧ t.chip.flash = s.chip.flash ∧ t.aux.rail = .held ∧ t.aux.rstCause = 1 ∧
      t.aux.frzKind = 0 ∧ t.chip.regs = [] ∧ t.vault.slots = [] ∧ t.vault.sas = [] ∧ t.aux.session = none) ∧
    Completes .powerRemoval s (fun t => t.pending = s.pending ∧ t.aux.otp = s.aux.otp ∧ t.chip.flash = s.chip.flash ∧ t.aux.rail = .off ∧ t.coreOn = false ∧ t.vault.slots = []) ∧
    (∀ b : Boot, (s.aux.rail ≠ .off → Completes (.porN b) s fun t => booted t b 2) ∧ (s.aux.rail = .run → Completes (.sysRstN b) s fun t => booted t b 4)) ∧
    (s.live = true → s.aux.phase = 6 → s.chip.inReset 0x001 = false → ∀ (a : Agent) (slot : Fin 4) (b : Boot), s.mayReach a.num 1 true = true → s.pageAsleep 1 = false →
      (a.num = 1 → Completes (.swRst a slot b) s fun t => booted t b 4 ∧
        (slot.val = 1 ∨ slot.val = 2 → t.aux.phase = 6 → s.aux.otp.fuse ≠ none → bootFail b (slot.val - 1) = 0 → t.aux.bootSlot = slot.val - 1)) ∧
      (a.num ≠ 1 → Active s → Completes (.swRst a slot b) s fun t => OnlyChip s t ∧ t.chip.rdB (Reg.INT_CAUSE 1) 28 = true)) ∧
    (s.aux.rail = .run → s.aux.pstate = 0 → s.chip.settled = true → Completes .perstN s fun t => t.pending = s.pending ∧ t.clk = s.clk ∧ t.vault = s.vault ∧ t.aux = { s.aux with rstCause := s.aux.rstCause ||| 16 } ∧
      (∀ g : Fin 64, t.chip.rdB (ringCfg g) 31 = false) ∧ t.chip.dma.lists = [] ∧ ∀ blk : Fin 8, t.chip.blockOwner blk = 0)

/-- On a running device: a lost reference is shown and its event set, and its die moves to the spare where that is armed and present; a
returning one is shown again; USE_SPARE moves the dies it names. By agent 1 or 34 with no transition in progress: QUIESCE from
ACTIVE leaves it and is done once nothing is queued; ACTIVE from QUIESCE returns; STANDBY is BAD_ARG from ACTIVE and from QUIESCE
is entered once the retirement is over, the sluices stand still and the Flume has drained. DRAIN_TMO flushes what QUIESCE waits
for. -/
def Obligations.ReferenceAndPowerStateCommandsComplete : Prop :=
  ∀ s : State, s.coreOn = true → s.chip.settled = true →
    (s.aux.pstate = 0 → ∀ n : Fin 9,
      (s.chip.refPresent n = true → Completes (.refclkLoss n) s fun t => OnlyChip s t ∧ t.chip.refPresent n = false ∧ t.chip.rdB (Reg.INT_CAUSE 1) 27 = true ∧
        ∀ d : Fin 8, t.chip.rdB Reg.rstclk_REFCLK_CTL d = (s.chip.rdB Reg.rstclk_REFCLK_CTL d ||
          (n.val == d.val && s.chip.rdB Reg.rstclk_REFCLK_CTL 8 && s.chip.refPresent 8))) ∧
      Completes (.refclkReturn n) s (fun t => OnlyChip s t ∧ t.chip.refPresent n = true ∧ t.chip.rd Reg.rstclk_REFCLK_CTL = s.chip.rd Reg.rstclk_REFCLK_CTL)) ∧
    (s.aux.pstate = 0 → ∀ (a : Agent) (m : Byte), MayWrite s a 0x001 → Completes (.useSpareWrite a m) s fun t => OnlyChip s t ∧
      t.chip.rdF Reg.rstclk_REFCLK_CTL 7 0 = m.toNat ∧
      ∀ d : Fin 8, s.chip.rdB Reg.rstclk_REFCLK_CTL d ≠ m.getLsbD d → t.chip.rdB Reg.rstclk_REFCLK_STAT (16 + d) = m.getLsbD d) ∧
    (∀ a : Agent, MayWrite s a 0x001 → (a.num = 1 ∨ a.num = 34) → s.chip.pwrBusy = false → s.aux.standbyWait = false →
      let rest := fun t : State => t.pending = s.pending ∧ t.clk = s.clk ∧ t.vault = s.vault ∧ t.aux.otp = s.aux.otp
      let ended := fun (t : State) (st : Nat) => t.chip.rd Reg.rstclk_PWR_STATUS = wd st ∧ t.chip.pwrBusy = false
      Completes (.quiesce a) s (fun t => rest t ∧ t.aux.pstate = (if s.aux.pstate = 0 then 1 else s.aux.pstate) ∧
        (s.aux.pstate = 0 → s.chip.drained = true → ended t stOk ∧ t.chip.rdB (Reg.INT_CAUSE 1) 24 = true) ∧
        (s.aux.pstate = 0 → s.chip.drained = false → t.chip.pwrBusy = true)) ∧
      Completes (.active a) s (fun t => rest t ∧ t.aux.pstate = 0 ∧ ended t stOk ∧ (s.aux.pstate = 1 → t.chip.rdB (Reg.INT_CAUSE 1) 24 = true)) ∧
      Completes (.standby a) s (fun t => rest t ∧
        (s.aux.pstate = 0 → t.aux.pstate = 0 ∧ ended t stBadArg) ∧
        (s.aux.pstate = 1 → s.chip.epState = 3 → t.aux.pstate = 1 ∧ t.aux.standbyWait = true ∧ t.chip.pwrBusy = true) ∧
        (s.aux.pstate = 1 → s.chip.epState ≠ 3 → s.chip.sluicesHeld = true → s.chip.flm.pstate = 2 →
          t.aux.pstate = 2 ∧ ended t stOk ∧ ∀ lp : Fin 1152, s.chip.lpActive lp = true → t.chip.lpPower lp = 3) ∧
        (s.aux.pstate = 1 → s.chip.epState ≠ 3 → s.chip.flm.pstate = 0 → t.aux.pstate = 1 ∧ t.chip.flm.pstate = 1 ∧ t.chip.pwrBusy = true))) ∧
    (s.aux.pstate = 1 → s.aux.standbyWait = false → Completes .drainTmo s fun t => t.pending = s.pending ∧ t.clk = s.clk ∧ t.vault = s.vault ∧ t.aux.otp = s.aux.otp ∧
      (∀ kc ∈ t.chip.sw.copies, kc.2.begun = true) ∧
      (s.chip.pwrBusy = true → s.chip.rdF Reg.rstclk_PWR_CMD 1 0 = 1 → t.aux.pstate = 1 ∧ t.chip.pwrBusy = false ∧ t.chip.rdB (Reg.INT_CAUSE 1) 24 = true))
/-- On an active device without an upset: the oldest sample leaves the FIFO for the ring, or is counted as dropped when the ring is
full or S4 or the Flume does not serve; a write of HIST_CFG is stored and clears the histogram's 32 bins; while S4 runs,
COLLECTOR_CFG, TEMPLATE_CFG, SAMPLER_BIND and STATS do what they name and reply OK, or reply BAD_ARG or NOT_FOUND and change
nothing. -/
def Obligations.TelemetryCommandsComplete : Prop :=
  ∀ s : State, Active s → s.chip.upsets = [] →
    let replied := fun (t : State) (op st : Nat) => t.chip.out = s.chip.out ++ [.reply 9 op st []]
    (∀ e ∈ s.chip.tel.smpFifo.head?, Completes .sampleRingWrite s fun t => OnlyChip s t ∧ t.chip.tel.smpFifo = s.chip.tel.smpFifo.drop 1 ∧
      let head := s.chip.rdF Reg.telemetry_SMPQ_HEAD 15 0
      if s.chip.flReady = true ∧ s.chip.sluState 4 = 3 ∧ (head + 1) % 65536 ≠ s.chip.rdF Reg.telemetry_SMPQ_TAIL 15 0 then
        t.chip.rd Reg.telemetry_SMPQ_HEAD = wd ((head + 1) % 65536) ∧ t.chip.flBytes (64 * (s.chip.rd Reg.telemetry_SMPQ_BASE).toNat + 128 * head) e.length = e
      else t.chip.rd Reg.telemetry_SMPQ_DROP_CNT = satAdd (s.chip.rd Reg.telemetry_SMPQ_DROP_CNT) 1 ∧ t.chip.flm = s.chip.flm ∧
        t.chip.rdB (Reg.INT_CAUSE 0x250) 27 = true) ∧
    (∀ (a : Agent) (r h : Fin 16) (v : Word), MayWrite s a (Reg.pg_trace r) → Completes (.histCfgWrite a r h v) s fun t => OnlyChip s t ∧
      t.chip.rd (Reg.trace_HIST_CFG r h) = v &&& 0xC01F07FF ∧ (∀ n : Fin 32, t.chip.rd (Reg.trace_HIST_BIN r h n) = 0) ∧
      ∀ (h' : Fin 16) (n : Fin 32), h' ≠ h → t.chip.rd (Reg.trace_HIST_BIN r h' n) = s.chip.rd (Reg.trace_HIST_BIN r h' n)) ∧
    (s.chip.sluState 4 = 3 →
      (∀ (n : Byte) (eg mtu udp : BitVec 16) (en v6 : Bool) (adr : List Byte) (dscp : BitVec 6),
        Completes (.collectorCfg n eg mtu en v6 adr udp dscp) s fun t => OnlyChip s t ∧ t.chip.regs = s.chip.regs ∧
          if 7 < n.toNat ∨ 1152 < eg.toNat ∨ mtu.toNat < 576 ∨ 9000 < mtu.toNat then replied t 1 stBadArg ∧ t.chip.tel = s.chip.tel
          else replied t 1 stOk ∧ (mget t.chip.tel.collectors n.toNat).any (fun b => b.take 2 == beBytes 1 en.toNat ++ beBytes 1 v6.toNat) = true) ∧
      (∀ (id : BitVec 16) (els : List (BitVec 16)) (fl : Bool) (x y z : Word), Completes (.templateCfg id els fl x y z) s fun t => OnlyChip s t ∧ t.chip.regs = s.chip.regs ∧
        if id.toNat < 256 ∨ els.any (fun e => !ipfixElements.contains e.toNat) = true then replied t 2 stBadArg ∧ t.chip.tel = s.chip.tel
        else replied t 2 stOk ∧ (mget t.chip.tel.templates id.toNat).isSome = true) ∧
      (∀ (n : Byte) (id : BitVec 16) (m : Byte) (dom : Word), Completes (.samplerBind n id m dom) s fun t => OnlyChip s t ∧
        if 31 < n.toNat then replied t 3 stBadArg ∧ t.chip.tel = s.chip.tel
        else if mget s.chip.tel.templates id.toNat = none then replied t 3 stNotFound ∧ t.chip.tel = s.chip.tel
        else replied t 3 stOk ∧ (mget t.chip.tel.binds n.toNat).isSome = true ∧ t.chip.rdB (Reg.telemetry_SMP_CFG n.toNat) 31 = true) ∧
      (∀ n : Byte, Completes (.samplerStats n) s fun t => OnlyChip s t ∧ t.chip.regs = s.chip.regs ∧
        if 31 < n.toNat then replied t 4 stBadArg else t.chip.out.length = s.chip.out.length + 1))

/-- On an active device without an upset: while the ledger takes records, its block is open with room and no gap is owed, a capture
record, a time trace, a step record and a note are appended to the open block; a capture is lost when STOP keeps its reserve; a
closed block is written with its tag and the sequence moves on. LEDGER_CFG, KEY_LOAD, START, STOP, EXTRACT and RELEASE do what they
name, or reply BUSY, BAD_ARG, ABORTED, INTEGRITY, FULL, DENIED or NOT_FOUND as their tests say. -/
def Obligations.LedgerCommandsComplete : Prop :=
  ∀ s : State, Active s → s.chip.upsets = [] →
    let rest := fun t : State => t.pending = s.pending ∧ t.aux = s.aux ∧ t.clk = s.clk
    let replied := fun (t : State) (op st : Nat) => t.chip.out.getLast? = some (.reply 11 op st [])
    let runs := s.chip.ldgTakes = true ∧ s.chip.tel.gap = none
    (∀ recs ∈ s.chip.tel.openBlk,
      let added := fun (t : State) (kind : Nat) => t.chip.tel.openBlk.any (fun x => recs.isPrefixOf x && x[recs.length]? == some (BitVec.ofNat 8 kind)) = true ∧
        t.chip.tel.blkCount = s.chip.tel.blkCount + 1 ∧ t.chip.ldgOpen = s.chip.ldgOpen
      (runs → recs.length + 1024 ≤ ldgArea →
        (∀ x ∈ s.chip.tel.capFifo.head?, x.length ≤ 1024 → x ≠ [] → Completes .captureRecordWrite s fun t => OnlyChip s t ∧
          t.chip.tel.capFifo = s.chip.tel.capFifo.drop 1 ∧
          if s.chip.ldgStop = true ∧ s.chip.ldgFree ≤ s.chip.rdF Reg.ledger_LDG_CTL 23 16 then
            t.chip.tel.openBlk = s.chip.tel.openBlk ∧ t.chip.rd Reg.telemetry_CAP_LOSS_CNT = satAdd (s.chip.rd Reg.telemetry_CAP_LOSS_CNT) 1
          else added t ((x.head?.getD 0).toNat)) ∧
        ((s.chip.rd Reg.ledger_LOSS_ACC).toNat = s.chip.tel.lossSeen → Completes .timeTraceWrite s fun t => OnlyChip s t ∧ added t 2 ∧ t.chip.tel.votes = false ∧
          t.chip.tel.accepted = 0) ∧
        (∀ x ∈ s.chip.tel.steps.head?, Completes .stepRecordWrite s fun t => OnlyChip s t ∧ added t 3 ∧ t.chip.tel.steps = s.chip.tel.steps.drop 1 ∧
          t.chip.tel.blkFlags = s.chip.tel.blkFlags ||| 1) ∧
        (∀ b : List Byte, Completes (.ledgerNote b) s fun t => OnlyChip s t ∧
          if b.length < 1 ∨ 64 < b.length then replied t 7 stBadArg ∧ t.chip.tel = s.chip.tel else replied t 7 stOk ∧ added t 7)) ∧
      (∀ key ∈ ldgKey s.chip s.vault s.chip.tel.curKey, s.chip.flReady = true → recs.length ≤ ldgArea → Completes .blockCloseAge s fun t => OnlyChip s t ∧
        t.chip.tel.openBlk = none ∧ t.chip.ldgOpen = (s.chip.ldgOpen + 1) % 2 ^ 64 ∧
        t.chip.flBytes (s.chip.ldgAddr s.chip.ldgOpen) 64 = s.chip.ldgHead ∧
        t.chip.ldgLastTag = ldgTag key s.chip.ldgHead (recs ++ padRecord s.clk (ldgArea - recs.length)) s.chip.tel.curKey s.chip.ldgOpen)) ∧
    (s.chip.sluState 5 = 3 →
      (∀ (stop : Bool) (age : BitVec 16) (rv : Byte), Completes (.ledgerCfg stop age rv) s fun t => OnlyChip s t ∧ t.chip.tel = s.chip.tel ∧
        if s.chip.ldgRuns = true then replied t 1 stBusy
        else if age.toNat < 1 ∨ 10000 < age.toNat ∨ rv.toNat < 1 then replied t 1 stBadArg ∧ t.chip.regs = s.chip.regs
        else replied t 1 stOk ∧ t.chip.ldgStop = stop ∧ t.chip.rdF Reg.ledger_LDG_CTL 23 16 = rv.toNat ∧ t.chip.rdF Reg.ledger_LDG_CTL 15 0 = age.toNat) ∧
      (∀ b : List Byte, s.chip.ldgRuns = false → Completes (.keyLoad b) s fun t => rest t ∧
        if s.vault.state ≠ 1 then replied t 2 stAborted ∧ t.chip.tel.lastKey = s.chip.tel.lastKey
        else if jF b 0 1 ≠ 2 then replied t 2 stIntegrity ∧ t.chip.tel.lastKey = s.chip.tel.lastKey
        else if (List.range 16).all (fun n => (s.vault.slot 5 n).isSome) = true ∧ (s.chip.tel.keySlot.all fun x => s.chip.tel.curKey ≤ x.1) = true then
          replied t 2 stFull ∧ t.chip.tel.lastKey = s.chip.tel.lastKey
        else jF b 1 1 = 5 → s.chip.tel.keySlot = [] → ((s.vault.kek (slice b 0 64)).bind fun kek => openWrapped kek (slice b 0 64)).any (fun _ => true) = true →
          t.chip.tel.lastKey = s.chip.tel.lastKey + 1 ∧ t.chip.out.getLast? = some (.reply 11 2 stOk (beBytes 4 (s.chip.tel.lastKey + 1))) ∧
          (ldgKey t.chip t.vault (s.chip.tel.lastKey + 1)).isSome = true) ∧
      (Completes .ledgerStart s fun t => OnlyChip s t ∧
        if s.chip.tel.lastKey = 0 ∨ ldgKey s.chip s.vault s.chip.tel.lastKey = none then replied t 3 stDenied ∧ t.chip.tel = s.chip.tel
        else if s.chip.ldgRuns = true then replied t 3 stBusy ∧ t.chip.tel = s.chip.tel
        else replied t 3 stOk ∧ t.chip.ldgRuns = true ∧ t.chip.rdB Reg.ledger_LDG_CTL 31 = true ∧
          (s.chip.flm.mem = [] → t.chip.ldgOpen = 0 ∧ t.chip.ldgOldest = 0 ∧ (s.chip.tel.gap = none → t.chip.tel.gap = some (4, s.clk.tod)))) ∧
      (Completes .ledgerStop s fun t => OnlyChip s t ∧ replied t 4 stOk ∧ t.chip.ldgRuns = false ∧ t.chip.rdB Reg.ledger_LDG_CTL 31 = false ∧ t.chip.tel.openBlk = none) ∧
      (∀ (first : BitVec 64) (n : Word) (adr len : BitVec 64), n.toNat ≤ 65537 → Completes (.extract first n adr len) s fun t => rest t ∧
        if n.toNat < 1 ∨ 65536 < n.toNat ∨ adr.toNat % 64 ≠ 0 ∨ len.toNat < n.toNat * 65536 + 256 then replied t 5 stBadArg
        else if first.toNat < s.chip.ldgOldest then replied t 5 stNotFound
        else if s.chip.ldgOpen < first.toNat + n.toNat then replied t 5 stBusy
        else if s.chip.flReady = false then replied t 5 stAborted
        else s.chip.flm.errs = [] → replied t 5 stOk ∧ t.chip.out.length = s.chip.out.length + 2 ∧ t.chip.ldgOpen = s.chip.ldgOpen) ∧
      (∀ seq : BitVec 64, Completes (.ledgerRelease seq) s fun t => OnlyChip s t ∧
        if s.chip.ldgStop = false ∨ s.chip.ldgOpen ≤ seq.toNat then replied t 6 stBadArg ∧ t.chip.ldgOldest = s.chip.ldgOldest
        else replied t 6 stOk ∧ t.chip.ldgOldest = max s.chip.ldgOldest (seq.toNat + 1)))
/-- On an active device without an upset: an outvoted counter is counted; three that disagree are a fatal fault; a sync word with no
copy in error advances device time by 64 increments of the F in force and puts the new F in force, and each copy in error is counted;
REF_SEL moves the PLL to a reference that is present; TIME_REF is lost and returns with FAILOVER and REF_SEL as R330 says. A read of
TXTS_NS or of PPS_IN_NS removes the oldest entry and shows it, or reads without VALID; an edge on PPS_IN is stamped, or ignored and
counted; PPS_OUT rises while it is enabled, and falls. -/
def Obligations.TimebaseCommandsComplete : Prop :=
  ∀ s : State, Active s → s.chip.upsets = [] →
    let apart := fun t : State => t.pending = s.pending ∧ t.aux = s.aux ∧ t.vault = s.vault
    Completes (.todVoteReload true) s (fun t => OnlyChip s t ∧ KeepsRegs s t [3] ∧ t.chip.rdB (Reg.INT_CAUSE 3) 22 = true ∧
      t.chip.rd Reg.time_TOD_VOTE_CNT = satAdd (s.chip.rd Reg.time_TOD_VOTE_CNT) 1) ∧
    Completes (.todVoteReload false) s (fun t => apart t ∧ t.clk = { s.clk with todFault := true } ∧ t.chip.faulted 3 = true ∧
      (s.chip.faulted 3 = false → t.chip.rdB (Reg.INT_CAUSE 3) 31 = true)) ∧
    (∀ bad : List (Fin 8), Completes (.syncWord bad) s fun t => apart t ∧ t.clk.freq = s.clk.nextFreq.getD s.clk.freq ∧ t.clk.nextFreq = none ∧
      t.clk.servo = s.clk.servo ∧ t.clk.stepSeq = s.clk.stepSeq ∧ t.clk.step = s.clk.step ∧ t.clk.ppsFifo = s.clk.ppsFifo ∧
      (s.clk.now ≤ s.clk.lastSync + timeClocks 64 → t.clk.now = s.clk.lastSync + timeClocks 64 ∧ t.clk.lastSync = t.clk.now ∧
        t.clk.tod = s.clk.tod + (((t.clk.now - s.clk.now : Nat) : Int) * (256000000000 + s.clk.freq)).toNat) ∧
      (bad = [] → t.chip = s.chip ∧ t.clk.txts = s.clk.txts) ∧
      (∀ d ∈ bad.head?, bad.length = 1 → t.chip.rd Reg.time_COPY_ERR_CNT = satAdd (s.chip.rd Reg.time_COPY_ERR_CNT) 1 ∧ t.chip.rdB (Reg.INT_CAUSE 3) 21 = true ∧
        (s.chip.rdB Reg.time_COPY_ERR_LAST 31 = false → t.chip.rd Reg.time_COPY_ERR_LAST = wd (0x80000000 + d.val)))) ∧
    (∀ (a : Agent) (v : Word), MayWrite s a 3 → Completes (.refSelWrite a v) s fun t => OnlyChip s t ∧ t.chip.rd Reg.time_TIME_CLK_CTL = v &&& 0x101 ∧
      t.chip.rdB Reg.time_TIME_CLK_STAT 2 = (bit v 0 && s.chip.rdB Reg.time_TIME_CLK_STAT 1)) ∧
    Completes .refLoss s (fun t => OnlyChip s t ∧ KeepsRegs s t [3] ∧ (s.chip.rdB Reg.time_TIME_CLK_STAT 1 = true →
      t.chip.rdB Reg.time_TIME_CLK_STAT 1 = false ∧ t.chip.rdB (Reg.INT_CAUSE 3) 23 = true ∧
      t.chip.rdB Reg.time_TIME_CLK_STAT 2 = (s.chip.rdB Reg.time_TIME_CLK_STAT 2 && !s.chip.rdB Reg.time_TIME_CLK_CTL 8))) ∧
    Completes .timeRefReturn s (fun t => OnlyChip s t ∧ KeepsRegs s t [3] ∧ t.chip.rdB Reg.time_TIME_CLK_STAT 1 = true ∧
      t.chip.rdB Reg.time_TIME_CLK_STAT 2 = (s.chip.rdB Reg.time_TIME_CLK_STAT 2 || (!s.chip.rdB Reg.time_TIME_CLK_CTL 8 && s.chip.rdB Reg.time_TIME_CLK_CTL 0))) ∧
    (∀ (a : Agent) (lp : Fin 1152), MayRead s a (0x090 + lp.val / 8) →
      (s.clk.txFifo lp = [] → Completes (.txtsRead a lp) s fun t => apart t ∧ t.clk = s.clk ∧
        t.chip.out = s.chip.out ++ [.read a.num (lpReg Reg.port_TXTS_NS lp.val) 0]) ∧
      (∀ e ∈ (s.clk.txFifo lp).head?, Completes (.txtsRead a lp) s fun t => apart t ∧ t.clk.txFifo lp = (s.clk.txFifo lp).drop 1 ∧
        t.chip.out = s.chip.out ++ [.read a.num (lpReg Reg.port_TXTS_NS lp.val) (wd (0x80000000 + e.tsErr.toNat * 0x40000000 + todNs e.t))] ∧
        t.chip.rd (lpReg Reg.port_TXTS_SEC lp.val) = wd (todSec e.t % 4294967296) ∧
        t.chip.rd (lpReg Reg.port_TXTS_INFO lp.val) = wd (e.seqId * 65536 + e.domain * 256 + e.edited.toNat * 16 + e.msgType) ∧
        (s.clk.txFifo lp = [e] → t.chip.rdB (Reg.time_TXTS_PEND (lp / 32)) (lp % 32) = false))) ∧
    (∀ sub : Fin 328,
      (s.chip.rdB Reg.time_PPS_CTL 30 = false → Completes (.ppsInEdge sub) s fun t => t = s) ∧
      (s.chip.rdB Reg.time_PPS_CTL 30 = true → s.clk.ppsLast = none → s.clk.ppsFifo.length < 4 → Completes (.ppsInEdge sub) s fun t => apart t ∧
        t.clk.ppsFifo = s.clk.ppsFifo ++ [roundQ (s.clk.syncTod + sub * qU) - s.chip.rdF Reg.time_PPS_IN_DLY 15 0 * (nsU / 256)] ∧
        t.clk.ppsLast = some (s.clk.lastSync + sub * rtNs / 4) ∧ t.clk.tod = s.clk.tod ∧ t.chip.rdB (Reg.INT_CAUSE 3) 17 = true) ∧
      (s.chip.rdB Reg.time_PPS_CTL 30 = true → (4 ≤ s.clk.ppsFifo.length ∨
          s.clk.ppsLast.any (fun p => decide (s.clk.lastSync + sub * rtNs / 4 < p + 500000000 * rtNs)) = true) →
        Completes (.ppsInEdge sub) s fun t => OnlyChip s t ∧ t.chip.rd Reg.time_PPS_IN_IGN_CNT = satAdd (s.chip.rd Reg.time_PPS_IN_IGN_CNT) 1)) ∧
    (∀ a : Agent, MayRead s a 3 →
      (s.clk.ppsFifo = [] → Completes (.ppsInRead a) s fun t => OnlyChip s t ∧ t.chip.out = s.chip.out ++ [.read a.num Reg.time_PPS_IN_NS 0]) ∧
      (∀ p ∈ s.clk.ppsFifo.head?, Completes (.ppsInRead a) s fun t => apart t ∧ t.clk = { s.clk with ppsFifo := s.clk.ppsFifo.drop 1 } ∧
        t.chip.out = s.chip.out ++ [.read a.num Reg.time_PPS_IN_NS (wd (0x80000000 + todNs p))] ∧
        t.chip.rd Reg.time_PPS_IN_SEC = wd (todSec p % 4294967296) ∧ t.chip.rd Reg.time_PPS_IN_FRAC = wd (todFrac p))) ∧
    Completes .ppsOutEdge s (fun t => apart t ∧ t.chip = s.chip ∧ t.clk = { s.clk with ppsOut := s.clk.ppsOut || s.chip.rdB Reg.time_PPS_CTL 31 }) ∧
    Completes .ppsOutFall s (fun t => apart t ∧ t.chip = s.chip ∧ t.clk = { s.clk with ppsOut := false })

/-- On an active device without an upset: a sample of the source SERVO_CTL names is counted stale, counted an outlier, or accepted with the I and F of R341
and the state of R342; one of another agent is an access error. GLIDE and the sample timeout free-run the servo at the glide rate;
SERVO_EN starts and stops it. ADD and SET arm a step, or answer BUSY, BAD_ARG or DENIED; the step is applied at a sync boundary 256
TIME clocks or more later, with STEP_LOG, STEP_SEQ and STEP_STATUS. While S1 runs, CLOCK_CFG, PORT_CFG, GET_STATUS and STEP do what
they name and reply. -/
def Obligations.ServoAndStepCommandsComplete : Prop :=
  ∀ s : State, Active s → s.chip.upsets = [] →
    let apart := fun t : State => t.pending = s.pending ∧ t.aux = s.aux ∧ t.vault = s.vault
    let lim : Int := (min 1000000 (s.chip.rdF Reg.time_FREQ_LIM 19 0) * 256 : Nat)
    let clamp := fun x : Int => max (-lim) (min lim x)
    let glided := fun t : State => apart t ∧ KeepsRegs s t [0, 3] ∧
      (s.clk.servo = 1 ∨ s.clk.servo = 2 →
        t.clk = { s.clk with servo := 3, nextFreq := some (if s.chip.rdB Reg.time_SERVO_CTL 4 = true then clamp (-s.clk.integ) else s.clk.freq), count := 0, outliers := 0 } ∧
        t.chip.rd Reg.time_GLIDE_CNT = satAdd (s.chip.rd Reg.time_GLIDE_CNT) 1 ∧ t.chip.rdB (Reg.INT_CAUSE 3) 25 = true ∧
        (s.chip.sluState 1 = 3 → t.chip.out = s.chip.out ++ [.notice 3 0x0102 (beBytes 1 1 ++ secQBytes s.clk.tod)])) ∧
      (s.clk.servo = 0 ∨ s.clk.servo = 3 → t.clk = s.clk ∧ t.chip.out = s.chip.out)
    (∀ (a : Agent) (v : Word), MayWrite s a 3 →
      let th : Int := signed 48 (fld v 15 0 * 4294967296 + (s.chip.rd Reg.time_SAMPLE_LO).toNat)
      (a.num ≠ s.chip.servoSrc → Completes (.sampleSubmit a v) s fun t => OnlyChip s t ∧ t.chip.rdB (Reg.INT_CAUSE 3) 28 = true) ∧
      (a.num = s.chip.servoSrc → Completes (.sampleSubmit a v) s fun t => apart t ∧ KeepsRegs s t [0, 3] ∧ t.clk.freq = s.clk.freq ∧ t.clk.tod = s.clk.tod ∧
        if fld v 31 24 ≠ s.clk.stepSeq then t.clk = s.clk ∧ t.chip.rdF Reg.time_SAMPLE_REJ_CNT 15 0 = min 65535 (s.chip.rdF Reg.time_SAMPLE_REJ_CNT 15 0 + 1)
        else if s.clk.servo = 0 then t.clk = s.clk ∧ (v &&& 0x00FF0000 = 0 → t = s)
        else if s.clk.servo = 2 ∧ s.chip.rdF Reg.time_SERVO_TH 15 0 * 65536 < th.natAbs then
          t.chip.rdF Reg.time_SAMPLE_REJ_CNT 31 16 = min 65535 (s.chip.rdF Reg.time_SAMPLE_REJ_CNT 31 16 + 1) ∧
          (if s.clk.outliers < 7 then t.clk = { s.clk with outliers := s.clk.outliers + 1 }
           else t.clk = { s.clk with servo := 1, count := 0, outliers := 0 } ∧ t.chip.rdB (Reg.INT_CAUSE 3) 26 = true)
        else
          let near := th.natAbs < s.chip.rdF Reg.time_SERVO_TH 31 16 * 65536
          let full := max 1 (s.chip.rdF Reg.time_SERVO_CNT_CFG 23 16) ≤ s.clk.count + 1
          let i1 := clamp ((s.clk.integ * 16777216 + (s.chip.rdF Reg.time_SERVO_KI 23 0 : Nat) * th + 8388608) / 16777216)
          t.clk.integ = i1 ∧
          t.clk.nextFreq = some (clamp ((-((s.chip.rdF Reg.time_SERVO_KP 23 0 : Nat) * th + i1 * 16777216) + 8388608) / 16777216)) ∧
          t.clk.outliers = 0 ∧ t.clk.stepSeq = s.clk.stepSeq ∧ t.chip.rd Reg.time_SAMPLE_ACC_CNT = satAdd (s.chip.rd Reg.time_SAMPLE_ACC_CNT) 1 ∧
          (s.clk.servo = 1 → if near ∧ full then t.clk.servo = 2 ∧ t.clk.count = 0 ∧ t.chip.rdB (Reg.INT_CAUSE 3) 27 = true
            else t.clk.servo = 1 ∧ t.clk.count = if near then s.clk.count + 1 else 0) ∧
          (s.clk.servo = 2 → if ¬ near ∧ full then t.clk.servo = 1 ∧ t.clk.count = 0 ∧ t.chip.rdB (Reg.INT_CAUSE 3) 26 = true
            else t.clk.servo = 2 ∧ t.clk.count = if near then 0 else s.clk.count + 1) ∧
          (s.clk.servo = 3 → t.clk.servo = 1 ∧ t.clk.count = 0))) ∧
    (s.clk.servo ≤ 3 → Completes .sampleTmo s glided ∧ ∀ a : Agent, MayWrite s a 3 → s.chip.rdB Reg.time_SERVO_CTL 31 = decide (s.clk.servo ≠ 0) → s.chip.rdB Reg.time_SERVO_CTL 0 = false →
      Completes (.glide a) s glided ∧
      Completes (.servoEnSet a) s (fun t => apart t ∧ KeepsRegs s t [0, 3] ∧ t.chip.rdB Reg.time_SERVO_CTL 31 = true ∧ t.clk = (if s.clk.servo = 0 then
        { s.clk with servo := 1, integ := clamp (-(s.clk.nextFreq.getD s.clk.freq)), count := 0, outliers := 0 } else s.clk)) ∧
      Completes (.servoEnClear a) s (fun t => apart t ∧ KeepsRegs s t [0, 3] ∧ t.chip.rdB Reg.time_SERVO_CTL 31 = false ∧
        (s.clk.servo = 0 → t.clk = s.clk) ∧
        (s.clk.servo ≠ 0 → t.clk = { s.clk with servo := 0, count := 0, outliers := 0 } ∧
          t.chip.rd Reg.time_FREQ_MAN = wd ((s.clk.nextFreq.getD s.clk.freq) % 4294967296).toNat))) ∧
    (∀ (a : Agent) (neg : Bool), MayWrite s a 3 →
      let value := s.chip.rd64 Reg.time_STEP_SEC_LO Reg.time_STEP_SEC_HI * secU + s.chip.rdF Reg.time_STEP_NS 29 0 * nsU + s.chip.rdF Reg.time_STEP_FRAC 15 0 * fracU
      let refused := fun (t : State) (st : Nat) => OnlyChip s t ∧ KeepsRegs s t [3] ∧ t.chip.rd Reg.time_STEP_STATUS = wd st
      let armed := fun (t : State) (isSet : Bool) => apart t ∧ KeepsRegs s t [3] ∧
        t.clk = { s.clk with step := some { isSet, neg, value, agent := a.num }, stepAt := s.clk.now }
      (a.num ≠ 1 → a.num ≠ 18 → Completes (.stepAdd a neg) s (fun t => OnlyChip s t ∧ t.chip.rd Reg.time_STEP_STATUS = wd stDenied ∧ t.chip.rdB (Reg.INT_CAUSE 3) 28 = true) ∧
        Completes (.stepSet a neg) s (fun t => OnlyChip s t ∧ t.chip.rd Reg.time_STEP_STATUS = wd stDenied ∧ t.chip.rdB (Reg.INT_CAUSE 3) 28 = true)) ∧
      (a.num = 1 ∨ a.num = 18 →
        Completes (.stepAdd a neg) s (fun t => if s.clk.step.isSome = true then refused t stBusy
          else if 999999999 < s.chip.rdF Reg.time_STEP_NS 29 0 ∨ (neg = true ∧ s.clk.tod < value) then refused t stBadArg else armed t false) ∧
        Completes (.stepSet a neg) s (fun t => if s.clk.step.isSome = true then refused t stBusy
          else if 999999999 < s.chip.rdF Reg.time_STEP_NS 29 0 ∨ neg = true then refused t stBadArg else armed t true))) ∧
    (∀ x ∈ s.clk.step, Completes .stepApply s fun t =>
      if s.clk.now = s.clk.lastSync ∧ s.clk.stepAt + timeClocks 256 ≤ s.clk.now then
        let t1 := (if x.isSet = true then x.value else if x.neg = true then s.clk.tod - x.value else s.clk.tod + x.value) % (2 ^ 64 * secU)
        apart t ∧ t.clk = { s.clk with tod := t1, syncTod := t1, step := none, stepSeq := (s.clk.stepSeq + 1) % 256 } ∧
          t.chip.rd Reg.time_STEP_STATUS = wd stOk ∧ t.chip.rdB (Reg.INT_CAUSE 3) 24 = true ∧
          t.chip.rd Reg.time_STEP_LOG_INFO = wd ((s.clk.stepSeq + 1) % 256 * 65536 + x.agent) ∧
          t.chip.rd (Reg.time_STEP_LOG 2) = wd (todNs s.clk.tod) ∧ t.chip.rd (Reg.time_STEP_LOG 5) = wd (todNs t1) ∧
          t.chip.tel.steps = s.chip.tel.steps ++ [(s.clk.tod, t1, x.agent)]
      else t = s) ∧
    (s.chip.sluState 1 = 3 →
      (∀ (typ : Fin 4) (domain p1 p2 cls acc : Byte) (var : BitVec 16), Completes (.clockCfg typ domain p1 p2 cls acc var) s fun t => apart t ∧ t.chip.regs = s.chip.regs ∧
        t.clk = { s.clk with ptpClock := [typ.val, domain.toNat, p1.toNat, p2.toNat, cls.toNat, acc.toNat, var.toNat] } ∧ t.chip.out = s.chip.out ++ [.reply 3 1 stOk []]) ∧
      (∀ (lp : Fin 1152) (en peer one : Bool) (rates : List Int) (asym : Int) (forced : Byte), Completes (.portCfg lp en peer one rates asym forced) s fun t =>
        apart t ∧ KeepsRegs s t [0x090 + lp / 8] ∧ t.chip.out = s.chip.out ++ [.reply 3 2 stOk []] ∧
        t.chip.rdB (lpReg Reg.port_TS_CTL lp.val) 31 = en ∧ t.chip.rdB (lpReg Reg.port_TS_CTL lp.val) 30 = one ∧ t.chip.rdB (lpReg Reg.port_TS_CTL lp.val) 28 = peer) ∧
      (∀ lp : Option (Fin 1152), Completes (.ptpGetStatus lp) s fun t => OnlyChip s t ∧ t.chip.regs = s.chip.regs ∧
        t.chip.out.length = s.chip.out.length + 1 ∧ t.chip.out.take s.chip.out.length = s.chip.out) ∧
      (∀ (k : Fin 4) (neg : Bool) (sec : BitVec 64) (ns : BitVec 30) (frac : BitVec 16),
        let value := sec.toNat * secU + ns.toNat * nsU + frac.toNat * fracU
        let refused := fun (t : State) (st : Nat) => OnlyChip s t ∧ t.chip.rd Reg.time_STEP_STATUS = wd st ∧ t.chip.out = s.chip.out ++ [.reply 3 4 st []]
        Completes (.svcStep k neg sec ns frac) s fun t => if s.clk.step.isSome = true then refused t stBusy
          else if 999999999 < ns.toNat ∨ (k.val ≠ 1 ∧ k.val ≠ 2) ∨ (k.val = 2 ∧ neg = true) ∨ (k.val = 1 ∧ neg = true ∧ s.clk.tod < value) then refused t stBadArg
          else apart t ∧ t.chip.out = s.chip.out ∧
            t.clk = { s.clk with step := some { isSet := k.val == 2, neg, value, agent := 18, svc := true }, stepAt := s.clk.now }))
/-- On an active device: CS_WRITE stores the microword of CS_DATA in the inactive bank while an epoch stages, and is DENIED
otherwise; CS_READ loads CS_DATA from the active bank; REPAIR rewrites the active word when its captured error is that of the
word, and is DENIED otherwise; MTR_WRITE sets a meter's rates and bursts with both buckets full, or is BAD_ARG when PIR is below
CIR; MTR_READ shows them; the counter commands show, or clear, both counts of one counter and no other; the indirection
commands store a legal word with a journal record, refuse another, and show a word. -/
def Obligations.WeirStoreCommandsComplete : Prop :=
  ∀ s : State, Active s →
    (∀ (a : Agent) (r : Fin 16), MayWrite s a (Reg.pg_weir r) → s.chip.rdF (Reg.weir_CS_ADDR r) 19 16 ≤ 14 →
      (s.chip.staging = true → Completes (.csWrite a r) s fun t => OnlyChip s t ∧ t.chip.rd (Reg.weir_CS_STATUS r) = wd stOk ∧
        mrd 0 t.chip.weirs.cs (csKey (!s.chip.bankB) r (s.chip.rdF (Reg.weir_CS_ADDR r) 19 16) (s.chip.rdF (Reg.weir_CS_ADDR r) 10 0)) =
          mwOfWords ((List.range 8).map fun j => s.chip.rd (Reg.weir_CS_DATA r j)) ∧
        mrd 0 t.chip.weirs.cs (csKey s.chip.bankB r (s.chip.rdF (Reg.weir_CS_ADDR r) 19 16) (s.chip.rdF (Reg.weir_CS_ADDR r) 10 0)) =
          mrd 0 s.chip.weirs.cs (csKey s.chip.bankB r (s.chip.rdF (Reg.weir_CS_ADDR r) 19 16) (s.chip.rdF (Reg.weir_CS_ADDR r) 10 0))) ∧
      (s.chip.staging = false →
        Completes (.csWrite a r) s (fun t => OnlyChip s t ∧ t.chip.rd (Reg.weir_CS_STATUS r) = wd stDenied ∧ t.chip.weirs = s.chip.weirs) ∧
        Completes (.csRead a r) s (fun t => OnlyChip s t ∧ t.chip.rd (Reg.weir_CS_STATUS r) = wd stOk ∧ t.chip.weirs = s.chip.weirs ∧
          ∀ j : Fin 8, t.chip.rd (Reg.weir_CS_DATA r j) = mwWord (s.chip.csWord s.chip.bankB r
            (s.chip.rdF (Reg.weir_CS_ADDR r) 19 16) (s.chip.rdF (Reg.weir_CS_ADDR r) 10 0)) j)) ∧
      Completes (.csRepair a r) s (fun t => OnlyChip s t ∧
        if s.chip.rdF (Reg.ERR_ADDR (Reg.pg_weir r)) 31 30 = 3 ∧
            s.chip.rdF (Reg.ERR_ADDR (Reg.pg_weir r)) 29 24 = 2 * s.chip.rdF (Reg.weir_CS_ADDR r) 19 16 + s.chip.bankB.toNat ∧
            s.chip.rdF (Reg.ERR_ADDR (Reg.pg_weir r)) 23 0 = s.chip.rdF (Reg.weir_CS_ADDR r) 10 0 then
          t.chip.rd (Reg.weir_CS_STATUS r) = wd stOk ∧
          mrd 0 t.chip.weirs.cs (csKey s.chip.bankB r (s.chip.rdF (Reg.weir_CS_ADDR r) 19 16) (s.chip.rdF (Reg.weir_CS_ADDR r) 10 0)) =
            mwOfWords ((List.range 8).map fun j => s.chip.rd (Reg.weir_CS_DATA r j))
        else t.chip.rd (Reg.weir_CS_STATUS r) = wd stDenied ∧ t.chip.weirs = s.chip.weirs)) ∧
    (∀ (a : Agent) (r : Fin 16), MayWrite s a (Reg.pg_weir r) →
      (∀ ix : BitVec 15,
        Completes (.mtrWrite a r ix) s (fun t => OnlyChip s t ∧
          if s.chip.rdF (Reg.weir_MTR_DATA_RATE r 0) 21 0 ≤ s.chip.rdF (Reg.weir_MTR_DATA_RATE r 1) 21 0 then
            t.chip.rd (Reg.weir_MTR_STATUS r) = wd stOk ∧
            (mrd meter0 t.chip.weirs.meters (r * 32768 + ix.toNat)).cir = s.chip.rdF (Reg.weir_MTR_DATA_RATE r 0) 21 0 ∧
            (mrd meter0 t.chip.weirs.meters (r * 32768 + ix.toNat)).pir = s.chip.rdF (Reg.weir_MTR_DATA_RATE r 1) 21 0 ∧
            (mrd meter0 t.chip.weirs.meters (r * 32768 + ix.toNat)).tc = s.chip.rdF (Reg.weir_MTR_DATA_BURST r 0) 23 0 * 8 * bitU ∧
            (mrd meter0 t.chip.weirs.meters (r * 32768 + ix.toNat)).tp = s.chip.rdF (Reg.weir_MTR_DATA_BURST r 1) 23 0 * 8 * bitU ∧
            t.chip.weirs.counters = s.chip.weirs.counters
          else t.chip.rd (Reg.weir_MTR_STATUS r) = wd stBadArg ∧ t.chip.weirs = s.chip.weirs) ∧
        Completes (.mtrRead a r ix) s (fun t => OnlyChip s t ∧ t.chip.weirs = s.chip.weirs ∧ t.chip.rd (Reg.weir_MTR_STATUS r) = wd stOk ∧
          t.chip.rd (Reg.weir_MTR_DATA_RATE r 0) = wd (mrd meter0 s.chip.weirs.meters (r * 32768 + ix.toNat)).cir ∧
          t.chip.rd (Reg.weir_MTR_DATA_BURST r 1) = wd (mrd meter0 s.chip.weirs.meters (r * 32768 + ix.toNat)).pbs)) ∧
      (∀ ix : BitVec 16,
        Completes (.cntRead a r ix) s (fun t => OnlyChip s t ∧ t.chip.weirs = s.chip.weirs ∧ t.chip.rd (Reg.weir_CNT_STATUS r) = wd stOk ∧
          t.chip.rd (Reg.weir_CNT_DATA r 0) = wd (mrd (0, 0) s.chip.weirs.counters (r * 65536 + ix.toNat)).1 ∧
          t.chip.rd (Reg.weir_CNT_DATA r 2) = wd (mrd (0, 0) s.chip.weirs.counters (r * 65536 + ix.toNat)).2) ∧
        Completes (.cntReadClear a r ix) s (fun t => OnlyChip s t ∧ t.chip.rd (Reg.weir_CNT_STATUS r) = wd stOk ∧
          t.chip.rd (Reg.weir_CNT_DATA r 0) = wd (mrd (0, 0) s.chip.weirs.counters (r * 65536 + ix.toNat)).1 ∧
          ∀ j : Nat, mrd (0, 0) t.chip.weirs.counters j =
            if j = r * 65536 + ix.toNat then (0, 0) else mrd (0, 0) s.chip.weirs.counters j) ∧
        Completes (.cntClear a r ix) s (fun t => OnlyChip s t ∧ t.chip.rd (Reg.weir_CNT_STATUS r) = wd stOk ∧
          ∀ j : Nat, mrd (0, 0) t.chip.weirs.counters j =
            if j = r * 65536 + ix.toNat then (0, 0) else mrd (0, 0) s.chip.weirs.counters j))) ∧
    (∀ (a : Agent) (g : BitVec 12) (ix : BitVec 9), MayWrite s a 0x23C → s.chip.faulted 0x23C = false →
      s.chip.rdB Reg.epoch_JNL_STAT 30 = false → s.chip.ep.journal.length + s.chip.ep.reserved < jnlMax →
      Completes (.indWriteEntry a g ix) s (fun t => OnlyChip s t ∧ t.chip.weirs.indG = s.chip.weirs.indG ∧
        if s.chip.rdF Reg.lb_IND_DATA 30 29 = 3 then
          t.chip.rd Reg.lb_IND_STATUS = wd stBadArg ∧ t.chip.weirs = s.chip.weirs
        else t.chip.rd Reg.lb_IND_STATUS = wd stOk ∧ t.chip.ep.journal.length = s.chip.ep.journal.length + 1 ∧
          mrd 0 t.chip.weirs.indE (g.toNat * 512 + ix.toNat) = s.chip.rd Reg.lb_IND_DATA &&& 0xE00FFFFF) ∧
      Completes (.indWriteGroup a g) s (fun t => OnlyChip s t ∧ t.chip.weirs.indE = s.chip.weirs.indE ∧
        if 512 < s.chip.rdF Reg.lb_IND_DATA 9 0 ∨ 16 < s.chip.rdF Reg.lb_IND_DATA 28 24 then
          t.chip.rd Reg.lb_IND_STATUS = wd stBadArg ∧ t.chip.weirs = s.chip.weirs
        else t.chip.rd Reg.lb_IND_STATUS = wd stOk ∧ t.chip.ep.journal.length = s.chip.ep.journal.length + 1 ∧
          mrd 0 t.chip.weirs.indG g.toNat = s.chip.rd Reg.lb_IND_DATA &&& 0xFF0003FF) ∧
      (s.chip.upsets = [] →
        Completes (.indReadEntry a g ix) s (fun t => OnlyChip s t ∧ t.chip.weirs = s.chip.weirs ∧ t.chip.rd Reg.lb_IND_STATUS = wd stOk ∧
          t.chip.rd Reg.lb_IND_DATA = mrd 0 s.chip.weirs.indE (g.toNat * 512 + ix.toNat)) ∧
        Completes (.indReadGroup a g) s (fun t => OnlyChip s t ∧ t.chip.weirs = s.chip.weirs ∧ t.chip.rd Reg.lb_IND_STATUS = wd stOk ∧
          t.chip.rd Reg.lb_IND_DATA = mrd 0 s.chip.weirs.indG g.toNat)))
/-- On an active device, at every offset of a reserved page and every reserved offset of an implemented page: a read by any agent
completes with the value zero, and by an agent that may read the page it has no other effect; a write by any agent completes, no register changes but
INT_CAUSE and INT_FIRST of the page and the capture registers of the CHIP page, and ACC_EV is set in the page, or in the CHIP page where the page is
reserved. The only outputs are the value read and MSI-X messages: no PCIe error exists in the model's outputs. -/
def Obligations.ReservedOffsetsReadZero : Prop :=
  ∀ (s : State) (a : Agent) (off : Nat), Active s → ((Reg.kindOf (off / 65536)).isSome = true → (Reg.rowAt off).isSome = false) →
    let pg := if (Reg.kindOf (off / 65536)).isSome = true then off / 65536 else 0
    Completes (.rcRead a off) s (fun t => OnlyChip s t ∧ t.chip.out.getLast? = some (.read a.num off 0) ∧
      (s.mayReach a.num (off / 65536) false = true → t.chip = { s.chip with out := s.chip.out ++ [.read a.num off 0] })) ∧
    ∀ (be : Fin 16) (v : Word), Completes (.regWrite a off be v) s fun t => OnlyChip s t ∧ t.chip.rdB (Reg.INT_CAUSE pg) 28 = true ∧
      t.chip = { s.chip with regs := t.chip.regs, out := t.chip.out } ∧
      ∀ x : Nat, x ∉ [Reg.INT_CAUSE pg, Reg.INT_FIRST pg, Reg.chip_ACC_ADDR, Reg.chip_ACC_INFO] → t.chip.rd x = s.chip.rd x

/-- On an active device, for the low half of every 64-bit counter pair that an agent may read: reading it gives its bits [31:0], captures
bits [63:32] for that agent, leaves every other agent's shadow, and clears all 64 bits of an RC pair; a read of the high half gives that agent's
shadow, or the live upper half where no read of the low half by the same agent came before. -/
def Obligations.CounterPairsReadWhole : Prop :=
  ∀ (s : State) (a : Agent) (off : Nat), Active s → MayRead s a (off / 65536) → ∀ row ∈ Reg.rowAt off, ∀ k ∈ Reg.kindOf (off / 65536), 0x100 ≤ off % 65536 →
    (row.half = 1 → Completes (.counterLoRead a off) s fun t => OnlyChip s t ∧
      t.chip.out = s.chip.out ++ [.read a.num off (s.peek k row off)] ∧
      mget t.chip.shadow (shadowKey a.num off) = some (s.chip.rd (off + 4)) ∧
      (∀ b : Agent, b.num ≠ a.num → off < 0x10000000 → mget t.chip.shadow (shadowKey b.num off) = mget s.chip.shadow (shadowKey b.num off)) ∧
      (row.rc ≠ 0 → t.chip.rd off = 0 ∧ t.chip.rd (off + 4) = 0) ∧ (row.rc = 0 → t.chip.regs = s.chip.regs)) ∧
    (row.half = 2 → Completes (.rcRead a off) s fun t => OnlyChip s t ∧
      t.chip.out = s.chip.out ++ [.read a.num off ((mget s.chip.shadow (shadowKey a.num (off - 4))).getD (s.peek k row off))] ∧
      t.chip.regs = s.chip.regs ∧ t.chip.shadow = s.chip.shadow)

/-- On an active device, for a register write by any agent with any byte enables at any offset: a reserved page or offset is captured as
kind 3, whichever agent writes; else a page the agent may not reach as kind 5; else, at 0x100 and above, a page in soft reset as kind 6; else a partial
write as kind 2; else an RWE register outside staging as kind 1; else a 1 written to an RSV bit as kind 4; where a register's own rule denies the
writer, kind 5 stands before 6, 2, 1 and 4. ACC_EV is set in the page, or in the CHIP page where the page is reserved; the capture is taken when
ACC_INFO.VALID is 0 and kept otherwise; writing 1 to VALID re-arms it. -/
def Obligations.AccessErrorsAreOfOneKind : Prop :=
  ∀ (s : State) (a : Agent) (off : Nat) (be : Fin 16) (v : Word), Active s →
    let pg := off / 65536
    let captured := fun (t : State) (kind : Nat) => t.chip.rdB (Reg.INT_CAUSE (if (Reg.kindOf pg).isSome = true then pg else 0)) 28 = true ∧
      (s.chip.rdB Reg.chip_ACC_INFO 31 = false → t.chip.rd Reg.chip_ACC_ADDR = wd off ∧ t.chip.rd Reg.chip_ACC_INFO = wd (0x80000000 + a.num * 65536 + kind)) ∧
      (s.chip.rdB Reg.chip_ACC_INFO 31 = true → t.chip.rd Reg.chip_ACC_ADDR = s.chip.rd Reg.chip_ACC_ADDR ∧ t.chip.rd Reg.chip_ACC_INFO = s.chip.rd Reg.chip_ACC_INFO)
    let is := fun (t : State) (kind : Nat) => captured t kind ∨ (plainPage pg = false ∧ captured t 5)
    (∀ row ∈ Reg.rowAt off, ∀ k ∈ Reg.kindOf pg,
      (s.mayReach a.num pg true = false → Completes (.regWrite a off be v) s fun t => captured t 5) ∧
      (s.mayReach a.num pg true = true →
        (s.chip.inReset pg = true → 0x100 ≤ off % 65536 → Completes (.regWrite a off be v) s fun t => is t 6) ∧
        (s.chip.inReset pg = false →
          (be.val ≠ 15 → Completes (.regWrite a off be v) s fun t => is t 2) ∧
          (be.val = 15 → row.rwe ≠ 0 → s.chip.staging = false → Completes (.regWrite a off be v) s fun t => is t 1) ∧
          (be.val = 15 → (row.rwe = 0 ∨ s.chip.staging = true) → v &&& ~~~ allowedBits k row (off % 65536) ≠ 0 → 0x100 ≤ off % 65536 →
            off ∉ [Reg.chip_ACC_INFO, Reg.rstclk_RST_CTL, Reg.life_RECOV_CMD] → Completes (.regWrite a off be v) s fun t => is t 4)))) ∧
    ((Reg.rowAt off).isSome = false ∨ (Reg.kindOf pg).isSome = false → Completes (.regWrite a off be v) s fun t => captured t 3) ∧
    (MayWrite s a 0 → Completes (.accInfoRearm a) s fun t => t.chip.rdB Reg.chip_ACC_INFO 31 = false)

/-- On an active device: a read of INT_PEND[i] by an agent that may read the CHIP page gives a word whose bit j is 1 exactly when page 32i + j exists and
INT_CAUSE AND INT_ENABLE of that page is not zero; INT_ROUTE does not enter, and a reserved page's bit reads 0. Nothing else changes. -/
def Obligations.IntPendShowsAssertion : Prop :=
  ∀ (s : State) (a : Agent) (n : Fin 20), Active s → MayRead s a 0 →
    Completes (.rcRead a (0x800 + 4 * n.val)) s fun t =>
      let w := t.chip.lastRead
      t = { s with chip := { s.chip with out := s.chip.out ++ [.read a.num (0x800 + 4 * n.val) w] } } ∧
      ∀ j : Fin 32, w.getLsbD j.val = ((Reg.kindOf (32 * n.val + j.val)).isSome &&
        (s.chip.rd (Reg.INT_CAUSE (32 * n.val + j.val)) &&& s.chip.rd (Reg.INT_ENABLE (32 * n.val + j.val))) != 0)

/-- While PCIe serves every page: function VFn (agent n + 1) reaches exactly the MBX page, ring block page n, the TIME page for reading, and each
Vault user page whose UP_OWNER is its number. On an active device a write elsewhere leaves all of the chip as it was but the access-error capture, and a read
elsewhere reads zero; at an implemented register the capture is of kind 5. That a user page has one owner, PF0 not excepted, is R422 over R533 (log 54). -/
def Obligations.VirtualFunctionsReachOnlyTheirPages : Prop :=
  ∀ (s : State) (n : Fin 7), s.aux.lifeOnly = false →
    let f := n.val + 2
    (∀ (pg : Nat) (write : Bool), s.mayReach f pg write = (pg == 6 || pg == 0x262 + n.val || (pg == 3 && !write) ||
      (decide (0x20 ≤ pg) && decide (pg < 0x40) && s.chip.rdF (Reg.vault_UP_OWNER (pg - 0x20)) 7 0 == f))) ∧
    (Active s → ∀ (off : Nat) (v : Word),
      let pg := if (Reg.kindOf (off / 65536)).isSome = true then off / 65536 else 0
      (s.mayReach f (off / 65536) true = false → Completes (.regWrite (.vf n) off 15 v) s fun t => OnlyChip s t ∧
        t.chip = { s.chip with regs := t.chip.regs, out := t.chip.out } ∧
        (∀ x : Nat, x ∉ [Reg.INT_CAUSE pg, Reg.INT_FIRST pg, Reg.chip_ACC_ADDR, Reg.chip_ACC_INFO] → t.chip.rd x = s.chip.rd x) ∧
        ((Reg.rowAt off).isSome = true → (Reg.kindOf (off / 65536)).isSome = true → s.chip.rdB Reg.chip_ACC_INFO 31 = false →
          t.chip.rd Reg.chip_ACC_INFO = wd (0x80000000 + f * 65536 + 5))) ∧
      (s.mayReach f (off / 65536) false = false → Completes (.rcRead (.vf n) off) s fun t => OnlyChip s t ∧
        t.chip = { s.chip with regs := t.chip.regs, out := t.chip.out } ∧ t.chip.out.getLast? = some (.read f off 0) ∧
        ∀ x : Nat, x ∉ [Reg.INT_CAUSE pg, Reg.INT_FIRST pg, Reg.chip_ACC_ADDR, Reg.chip_ACC_INFO] → t.chip.rd x = s.chip.rd x))

/-- For every microword and lane whose carry is in canonical form: in an active lane each byte from DST to DST + LEN − 1 below 768 becomes the byte LEN places from
SRC that the carry held before the word, zero where that lies beyond byte 767; the bytes R116 names keep their value, bits [7:6] of byte 0x018 among them; every
other byte keeps its value; an inactive lane, or LEN 0, changes nothing; the rest of the lane is unchanged. -/
def Obligations.MoveCopiesCarryBytes : Prop :=
  ∀ (w : BitVec 256) (l : Lane), smapWf 0 l.carry = true →
    let m := mwF w 103 80
    let src := m / 16384
    let dst := m / 16 % 1024
    let len := m % 16
    { moveLane w l with carry := l.carry } = l ∧
    ∀ a : Nat, cbyte (moveLane w l).carry a =
      (if l.active = true ∧ dst ≤ a ∧ a < dst + len ∧ a < 768 ∧ ¬ (a < 0x10 ∨ a = 0x17 ∨ 0x2C0 ≤ a) then
        let b := if src + (a - dst) < 768 then cbyte l.carry (src + (a - dst)) else 0
        if a = 0x18 then (cbyte l.carry a &&& 0xC0) ||| (b &&& 0x3F) else b
      else cbyte l.carry a)
/-- On an active device, for every operand: the lane commands change only registers of the CHIP, lane and port pages, the outputs (an MSI-X message among them) and the link states; the commands that may take a port down, and those of packets and buffers, also change outputs, frames, buffers, the switch with the space of spilled copies, and what the fate of a dropped copy records in telemetry; the flow-control, queue, multicast, scheduler and gate commands only their pages, the outputs, the switch and the epoch journal. The tables, weir stores, sluices, mailboxes, keys, device time, power, lifecycle and the registers of every page of another kind, in both banks, stay as they are. -/
def Obligations.PortAndPacketCommandsFrame : Prop :=
  ∀ s : State, Active s →
    let lanesPart := fun t : State => t = { s with chip := t.chip } ∧ t.chip = { s.chip with regs := t.chip.regs, out := t.chip.out, links := t.chip.links } ∧ KeepsKinds s t [.chip, .lane, .port]
    let portsPart := fun t : State => t = { s with chip := t.chip } ∧ t.chip = { s.chip with regs := t.chip.regs, out := t.chip.out, fresh := t.chip.fresh, upsets := t.chip.upsets, links := t.chip.links, frames := t.chip.frames, buf := t.chip.buf, sw := t.chip.sw, flm := t.chip.flm, tel := t.chip.tel } ∧ KeepsKinds s t [.chip, .lane, .port, .switch, .bufmgr, .sched, .gauge, .level, .trace, .spill, .telemetry, .ledger, .fault]
    let packetsPart := fun t : State => t = { s with chip := t.chip } ∧ t.chip = { s.chip with regs := t.chip.regs, out := t.chip.out, fresh := t.chip.fresh, upsets := t.chip.upsets, frames := t.chip.frames, nextFrame := t.chip.nextFrame, reaches := t.chip.reaches, buf := t.chip.buf, sw := t.chip.sw, flm := t.chip.flm, tel := t.chip.tel } ∧ KeepsKinds s t [.chip, .port, .parser, .switch, .bufmgr, .sched, .gauge, .level, .trace, .spill, .telemetry, .ledger]
    let queuesPart := fun t : State => t = { s with chip := t.chip } ∧ t.chip = { s.chip with regs := t.chip.regs, out := t.chip.out, sw := t.chip.sw, ep := t.chip.ep, upsets := t.chip.upsets } ∧ KeepsKinds s t [.chip, .port, .switch, .mcast, .wheel, .sched, .gauge, .trace, .epoch]
    (∀ (a : Agent) (l : Fin 1152) (v : Word), Completes (.txEqWrite a l v) s lanesPart) ∧
    (∀ (a : Agent) (l : Fin 1152) (tx : Bool) (v : Word), Completes (.brdDlyWrite a l tx v) s lanesPart) ∧
    (∀ (a : Agent) (l : Fin 1152), Completes (.adaptRestart a l) s lanesPart) ∧
    (∀ (l : Fin 1152) (moves : List Int) (vert : Byte) (horiz : Byte), Completes (.contAdaptTick l moves vert horiz) s lanesPart) ∧
    (∀ (lp : Fin 1152), Completes (.fecDegradeWindow lp) s lanesPart) ∧
    (∀ (a : Agent) (l : Fin 1152), Completes (.slip a l) s lanesPart) ∧
    (∀ (l : Fin 1152), Completes (.slipDone l) s lanesPart) ∧
    (∀ (l : Fin 1152) (errs : Fin 65), Completes (.prbsWordCheck l errs) s lanesPart) ∧
    (∀ (l : Fin 1152), Completes (.prbsLock l) s lanesPart) ∧
    (∀ (l : Fin 1152), Completes (.prbsLockLost l) s lanesPart) ∧
    (∀ (l : Fin 1152) (coef : Fin 3) (up : Bool), Completes (.linkTrainingRequest l coef up) s lanesPart) ∧
    (∀ (lp : Fin 1152), Completes (.lossConditionClear lp) s lanesPart) ∧
    (∀ (a : Agent) (p : Fin 144) (v : Word), Completes (.portModeWrite a p v) s portsPart) ∧
    (∀ (l : Fin 1152) (ctle : Fin 32) (taps : List Int), Completes (.adaptDone l ctle taps) s portsPart) ∧
    (∀ (a : Agent) (lp : Fin 1152) (req : Fin 4), Completes (.hostReqWrite a lp req) s portsPart) ∧
    (∀ (a : Agent) (lp : Fin 1152) (quiet : Bool), Completes (.pmReqWrite a lp quiet) s portsPart) ∧
    (∀ (lp : Fin 1152), Completes (.quietIdleExpiry lp) s portsPart) ∧
    (∀ (lp : Fin 1152), Completes (.laneTransitionDone lp) s portsPart) ∧
    (∀ (k : Fin 72), Completes (.pllStopDone k) s portsPart) ∧
    (∀ (k : Fin 72) (high : Bool), Completes (.pllUnlock k high) s portsPart) ∧
    (∀ (k : Fin 72) (high : Bool), Completes (.pllLocked k high) s portsPart) ∧
    (∀ (a : Agent) (l : Fin 1152), Completes (.rawEnSet a l) s portsPart) ∧
    (∀ (a : Agent) (lp : Fin 1152), Completes (.rawEnClear a lp) s portsPart) ∧
    (∀ (a : Agent) (lp : Fin 1152), Completes (.adminUpSet a lp) s portsPart) ∧
    (∀ (a : Agent) (lp : Fin 1152), Completes (.adminUpClear a lp) s portsPart) ∧
    (∀ (lp : Fin 1152) (errs : Nat), Completes (.fecCodeword lp errs) s portsPart) ∧
    (∀ (lp : Fin 1152), Completes (.hiSer lp) s portsPart) ∧
    (∀ (lp : Fin 1152), Completes (.anComplete lp) s portsPart) ∧
    (∀ (lp : Fin 1152), Completes (.anFail lp) s portsPart) ∧
    (∀ (lp : Fin 1152), Completes (.trainDone lp) s portsPart) ∧
    (∀ (lp : Fin 1152), Completes (.trainTmo lp) s portsPart) ∧
    (∀ (lp : Fin 1152), Completes (.adaptTimeout lp) s portsPart) ∧
    (∀ (lp : Fin 1152), Completes (.alignLock lp) s portsPart) ∧
    (∀ (lp : Fin 1152), Completes (.alignTimeout lp) s portsPart) ∧
    (∀ (lp : Fin 1152) (rx : BitVec 24) (tx : BitVec 24), Completes (.calDone lp rx tx) s portsPart) ∧
    (∀ (lp : Fin 1152) (j : Fin 8) (kind : Fin 4), Completes (.lossCondition lp j kind) s portsPart) ∧
    (∀ (lp : Fin 1152), Completes (.linkDownHoldExpiry lp) s portsPart) ∧
    (∀ (lp : Fin 1152), Completes (.remoteFault lp) s portsPart) ∧
    (∀ (lp : Fin 1152), Completes (.remoteFaultClear lp) s portsPart) ∧
    (∀ (lp : Fin 1152), Completes (.flushDone lp) s portsPart) ∧
    (∀ (d : Fin 8), Completes (.dieLinkFail d) s portsPart) ∧
    (∀ (lp : Fin 1152) (bytes : List Byte), Completes (.frameReceive lp bytes) s packetsPart) ∧
    (∀ (src : Fin 1169), Completes (.parseWalk src) s packetsPart) ∧
    (∀ (lp : Fin 1152), Completes (.frameEnd lp) s packetsPart) ∧
    (∀ (src : Fin 1169), Completes (.lengthMismatch src) s packetsPart) ∧
    (∀ (r : Fin 16), Completes (.recircReady r) s packetsPart) ∧
    (∀ (a : Agent) (v : Word), Completes (.carveWrite a v) s packetsPart) ∧
    (∀ (a : Agent), Completes (.bmEnable a) s packetsPart) ∧
    (Completes .bmBuildDone s packetsPart) ∧
    (∀ (src : Fin 1169), Completes (.bufferAlloc src) s packetsPart) ∧
    (∀ (src : Fin 1169), Completes (.chainBufferRequest src) s packetsPart) ∧
    (∀ (p : Fin 3), Completes (.poolEmptyGrant p) s packetsPart) ∧
    (∀ (src : Fin 1169), Completes (.noBufferTimeout src) s packetsPart) ∧
    (∀ (p : Fin 3) (n : BitVec 22), Completes (.bitmapRebuildDone p n) s packetsPart) ∧
    (∀ (a : Agent) (p : Fin 4) (n : BitVec 22), Completes (.bufRead a p n) s packetsPart) ∧
    (∀ (a : Agent) (p : Fin 4) (n : BitVec 22), Completes (.bufFree a p n) s packetsPart) ∧
    (∀ (lp : Fin 1152) (bytes : List Byte), Completes (.pfcReceive lp bytes) s packetsPart) ∧
    (∀ (lp : Fin 1152) (cls : Fin 8), Completes (.pauseExpiry lp cls) s packetsPart) ∧
    (∀ (lp : Fin 1152) (bytes : List Byte), Completes (.macctlOtherReceive lp bytes) s packetsPart) ∧
    (Completes .copyLink s packetsPart) ∧
    (∀ (lp : Fin 1152) (k : Fin 3), Completes (.xoffChange lp k) s queuesPart) ∧
    (∀ (lp : Fin 1152), Completes (.pfcRefresh lp) s queuesPart) ∧
    (∀ (a : Agent) (lp : Fin 1152) (v : Word), Completes (.fcCtlWrite a lp v) s queuesPart) ∧
    (∀ (lp : Fin 1152) (k : Fin 3), Completes (.wdStorm lp k) s queuesPart) ∧
    (∀ (lp : Fin 1152) (k : Fin 3), Completes (.wdRestore lp k) s queuesPart) ∧
    (∀ (a : Agent) (lp : Fin 1152) (k : Fin 3), Completes (.wdClr a lp k) s queuesPart) ∧
    (∀ (a : Agent) (q : Fin 23056), Completes (.qcmdRead a q) s queuesPart) ∧
    (∀ (a : Agent) (q : Fin 23056), Completes (.qcmdWrite a q) s queuesPart) ∧
    (∀ (a : Agent) (q : Fin 23056), Completes (.qcmdReadClear a q) s queuesPart) ∧
    (∀ (a : Agent) (i : BitVec 17), Completes (.mcWriteGroup a i) s queuesPart) ∧
    (∀ (a : Agent) (i : BitVec 17), Completes (.mcReadGroup a i) s queuesPart) ∧
    (∀ (a : Agent) (i : BitVec 17), Completes (.mcWriteMember a i) s queuesPart) ∧
    (∀ (a : Agent) (i : BitVec 17), Completes (.mcReadMember a i) s queuesPart) ∧
    (∀ (r : Fin 16), Completes (.wheelService r) s queuesPart) ∧
    (∀ (r : Fin 16), Completes (.wheelReplace r) s queuesPart) ∧
    (∀ (a : Agent) (r : Fin 16), Completes (.gateWrite a r) s queuesPart) ∧
    (∀ (a : Agent) (r : Fin 16), Completes (.gateRead a r) s queuesPart) ∧
    (∀ (lp : Fin 1152), Completes (.gateSwitch lp) s queuesPart) ∧
    (∀ (lp : Fin 1152), Completes (.gateClosePreempt lp) s queuesPart) ∧
    (∀ (lp : Fin 1152) (ok : Bool), Completes (.preemptVerifyResult lp ok) s queuesPart) ∧
    (∀ (lp : Fin 1152), Completes (.preemptResume lp) s queuesPart) ∧
    (∀ (r : Fin 16), Completes (.queueSample r) s queuesPart)

/-- On an active device, for every operand: the weir-store commands change only registers of the CHIP, weir, load-balance and EPOCH pages, the outputs, the weir stores and the epoch journal; the exact-match and learning commands only their pages, outputs, the journal and the tables, and of the tables neither the prefix stores nor the CAM; the prefix and CAM commands only theirs, and no exact-match slot or bucket lock; the flash and image commands only the outputs and the flash; the telemetry and ledger commands only their pages, outputs, telemetry, the Flume and free values. Ports, queues, sluices, keys, device time and lifecycle stay as they are. -/
def Obligations.TableAndStoreCommandsFrame : Prop :=
  ∀ s : State, Active s →
    let weirsPart := fun t : State => t = { s with chip := t.chip } ∧ t.chip = { s.chip with regs := t.chip.regs, out := t.chip.out, weirs := t.chip.weirs, ep := t.chip.ep, upsets := t.chip.upsets } ∧ KeepsKinds s t [.chip, .weir, .lb, .epoch]
    let exactPart := fun t : State => t = { s with chip := t.chip } ∧ t.chip = { s.chip with regs := t.chip.regs, out := t.chip.out, tbl := t.chip.tbl, ep := t.chip.ep, upsets := t.chip.upsets } ∧ KeepsKinds s t [.chip, .em, .epoch] ∧ t.chip.tbl.pst = s.chip.tbl.pst ∧ t.chip.tbl.cam = s.chip.tbl.cam ∧ t.chip.tbl.pfx = s.chip.tbl.pfx
    let prefixPart := fun t : State => t = { s with chip := t.chip } ∧ t.chip = { s.chip with regs := t.chip.regs, out := t.chip.out, tbl := t.chip.tbl, ep := t.chip.ep, upsets := t.chip.upsets, fresh := t.chip.fresh } ∧ KeepsKinds s t [.chip, .pfx, .epoch] ∧ t.chip.tbl.em = s.chip.tbl.em ∧ t.chip.tbl.locks = s.chip.tbl.locks
    let imagesPart := fun t : State => t = { s with chip := t.chip } ∧ t.chip = { s.chip with out := t.chip.out, flash := t.chip.flash }
    let recordsPart := fun t : State => t = { s with chip := t.chip, vault := t.vault } ∧ t.chip = { s.chip with regs := t.chip.regs, out := t.chip.out, fresh := t.chip.fresh, tel := t.chip.tel, flm := t.chip.flm, upsets := t.chip.upsets } ∧ KeepsKinds s t [.chip, .telemetry, .trace, .ledger, .flume, .upage, .vault]
    (∀ (a : Agent) (r : Fin 16), Completes (.csWrite a r) s weirsPart) ∧
    (∀ (a : Agent) (r : Fin 16), Completes (.csRead a r) s weirsPart) ∧
    (∀ (a : Agent) (r : Fin 16), Completes (.csRepair a r) s weirsPart) ∧
    (∀ (a : Agent) (r : Fin 16) (i : BitVec 15), Completes (.mtrWrite a r i) s weirsPart) ∧
    (∀ (a : Agent) (r : Fin 16) (i : BitVec 15), Completes (.mtrRead a r i) s weirsPart) ∧
    (∀ (a : Agent) (r : Fin 16) (i : BitVec 16), Completes (.cntRead a r i) s weirsPart) ∧
    (∀ (a : Agent) (r : Fin 16) (i : BitVec 16), Completes (.cntReadClear a r i) s weirsPart) ∧
    (∀ (a : Agent) (r : Fin 16) (i : BitVec 16), Completes (.cntClear a r i) s weirsPart) ∧
    (∀ (a : Agent) (g : BitVec 12) (i : BitVec 9), Completes (.indWriteEntry a g i) s weirsPart) ∧
    (∀ (a : Agent) (g : BitVec 12) (i : BitVec 9), Completes (.indReadEntry a g i) s weirsPart) ∧
    (∀ (a : Agent) (g : BitVec 12), Completes (.indWriteGroup a g) s weirsPart) ∧
    (∀ (a : Agent) (g : BitVec 12), Completes (.indReadGroup a g) s weirsPart) ∧
    (∀ (src : TblSrc), Completes (.emInsert src) s exactPart) ∧
    (∀ (i : Fin 16), Completes (.emInsertRelocate i) s exactPart) ∧
    (∀ (src : TblSrc), Completes (.emDelete src) s exactPart) ∧
    (∀ (src : TblSrc), Completes (.emRead src) s exactPart) ∧
    (∀ (src : TblSrc), Completes (.emUpdate src) s exactPart) ∧
    (∀ (src : TblSrc), Completes (.emSwap src) s exactPart) ∧
    (∀ (src : TblSrc), Completes (.emSearch src) s exactPart) ∧
    (∀ (src : TblSrc), Completes (.emAge src) s exactPart) ∧
    (∀ (src : TblSrc), Completes (.emLockBucket src) s exactPart) ∧
    (∀ (src : TblSrc), Completes (.emWriteSlot src) s exactPart) ∧
    (∀ (src : TblSrc), Completes (.emUnlock src) s exactPart) ∧
    (∀ (src : TblSrc), Completes (.emRelocate src) s exactPart) ∧
    (∀ (i : Fin 16) (b : Nat), Completes (.bucketLockTimeout i b) s exactPart) ∧
    (∀ (a : Agent) (i : Fin 16) (v : Word), Completes (.emGeomWrite a i v) s exactPart) ∧
    (∀ (i : Fin 16), Completes (.emClearDone i) s exactPart) ∧
    (Completes .learnHandle s exactPart) ∧
    (∀ (i : Fin 16), Completes (.ageWalk i) s exactPart) ∧
    (∀ (i : Fin 16) (key : List Byte), Completes (.pinHoldExpiry i key) s exactPart) ∧
    (∀ (i : Fin 16) (period : Word) (limit : Byte) (hold : BitVec 16), Completes (.setPolicy i period limit hold) s exactPart) ∧
    (∀ (i : Fin 16), Completes (.getPolicy i) s exactPart) ∧
    (∀ (i : Fin 16) (key : List Byte), Completes (.unpin i key) s exactPart) ∧
    (∀ (i : Fin 16) (lp : BitVec 16), Completes (.emFlush i lp) s exactPart) ∧
    (∀ (v6 : Bool) (src : TblSrc), Completes (.pfxInsert v6 src) s prefixPart) ∧
    (∀ (v6 : Bool) (src : TblSrc), Completes (.pfxDelete v6 src) s prefixPart) ∧
    (∀ (v6 : Bool) (src : TblSrc), Completes (.pfxRead v6 src) s prefixPart) ∧
    (∀ (v6 : Bool) (src : TblSrc), Completes (.pfxUpdate v6 src) s prefixPart) ∧
    (∀ (v6 : Bool) (src : TblSrc), Completes (.pfxSwap v6 src) s prefixPart) ∧
    (∀ (v6 : Bool) (src : TblSrc), Completes (.pfxSearch v6 src) s prefixPart) ∧
    (∀ (v6 : Bool) (src : TblSrc), Completes (.pfxPin v6 src) s prefixPart) ∧
    (∀ (v6 : Bool) (src : TblSrc), Completes (.pfxUnpin v6 src) s prefixPart) ∧
    (∀ (v6 : Bool) (src : TblSrc), Completes (.pfxLookupCmd v6 src) s prefixPart) ∧
    (∀ (src : TblSrc), Completes (.camRead src) s prefixPart) ∧
    (∀ (src : TblSrc), Completes (.camWriteSlot src) s prefixPart) ∧
    (∀ (src : TblSrc), Completes (.camLookupCmd src) s prefixPart) ∧
    (∀ (v6 : Bool), Completes (.pfxS3Done v6) s prefixPart) ∧
    (∀ (v6 : Bool) (vrf : BitVec 12) (addr : BitVec 128) (len : Fin 129), Completes (.pfxOverflowReturn v6 vrf addr len) s prefixPart) ∧
    (∀ (a : Agent) (v6 : Bool), Completes (.pfxFamilyEnable a v6) s prefixPart) ∧
    (∀ (v6 : Bool), Completes (.pfxClearDone v6) s prefixPart) ∧
    (Completes .pfxRebuildDone s prefixPart) ∧
    (∀ (a : Agent) (b : Fin 64) (v : Word), Completes (.camBlkWrite a b v) s prefixPart) ∧
    (∀ (slot : Fin 4) (addr : BitVec 64) (len : Word), Completes (.cfgRead slot addr len) s imagesPart) ∧
    (∀ (slot : Fin 4), Completes (.cfgSaveActive slot) s imagesPart) ∧
    (Completes .jnlSave s imagesPart) ∧
    (∀ (slot : Fin 5), Completes (.flashErase slot) s imagesPart) ∧
    (Completes .sampleRingWrite s recordsPart) ∧
    (∀ (a : Agent) (r : Fin 16) (h : Fin 16) (v : Word), Completes (.histCfgWrite a r h v) s recordsPart) ∧
    (Completes .captureRecordWrite s recordsPart) ∧
    (Completes .blockCloseAge s recordsPart) ∧
    (Completes .timeTraceWrite s recordsPart) ∧
    (Completes .stepRecordWrite s recordsPart) ∧
    (∀ (i : Byte) (egress : BitVec 16) (mtu : BitVec 16) (en : Bool) (v6 : Bool) (addrs : List Byte) (udp : BitVec 16) (dscp : BitVec 6), Completes (.collectorCfg i egress mtu en v6 addrs udp dscp) s recordsPart) ∧
    (∀ (id : BitVec 16) (elems : List (BitVec 16)) (flow : Bool) (idle : Word) (active : Word) (refresh : Word), Completes (.templateCfg id elems flow idle active refresh) s recordsPart) ∧
    (∀ (n : Byte) (id : BitVec 16) (mask : Byte) (domain : Word), Completes (.samplerBind n id mask domain) s recordsPart) ∧
    (∀ (n : Byte), Completes (.samplerStats n) s recordsPart) ∧
    (∀ (stop : Bool) (age : BitVec 16) (reserve : Byte), Completes (.ledgerCfg stop age reserve) s recordsPart) ∧
    (∀ (blob : List Byte), Completes (.keyLoad blob) s recordsPart) ∧
    (Completes .ledgerStart s recordsPart) ∧
    (Completes .ledgerStop s recordsPart) ∧
    (∀ (first : BitVec 64) (count : Word) (addr : BitVec 64) (len : BitVec 64), Completes (.extract first count addr len) s recordsPart) ∧
    (∀ (seq : BitVec 64), Completes (.ledgerRelease seq) s recordsPart) ∧
    (∀ (bytes : List Byte), Completes (.ledgerNote bytes) s recordsPart)

/-- On an active device, for every operand: the mailbox and lock commands change only registers of the CHIP, MBX and sluice pages, the outputs and the mailbox state; the port-key and Vault commands only their pages, the outputs, free values, the Vault and the requests of the sluices whose jobs end; the time commands only their pages, the outputs and the TIME domain, and with copies in error or a step the stamps and instants that move; the epoch commands only the EPOCH page, the epoch state and the gate configurations; the power-cap commands only their pages, the outputs and the power state; the lifecycle commands only the LIFE page and the AUX domain, with key clearing and the end of a session; the ring commands only their pages, the outputs, the rings, and the fate of the copies they deliver. Storage errors that a read meets are counted where they lie. Everything else stays as it is. -/
def Obligations.ServiceAndKeyCommandsFrame : Prop :=
  ∀ s : State, Active s →
    let postsPart := fun t : State => t = { s with chip := t.chip } ∧ t.chip = { s.chip with regs := t.chip.regs, out := t.chip.out, mbx := t.chip.mbx, upsets := t.chip.upsets } ∧ KeepsKinds s t [.chip, .mbx, .sluice]
    let keysPart := fun t : State => t = { s with chip := t.chip, vault := t.vault } ∧ t.chip = { s.chip with regs := t.chip.regs, out := t.chip.out, fresh := t.chip.fresh, upsets := t.chip.upsets, slu := t.chip.slu } ∧ KeepsKinds s t [.chip, .port, .upage, .vault, .sluice]
    let timesPart := fun t : State => t = { s with chip := t.chip, clk := t.clk } ∧ t.chip = { s.chip with regs := t.chip.regs, out := t.chip.out, fresh := t.chip.fresh, tel := t.chip.tel, upsets := t.chip.upsets } ∧ KeepsKinds s t [.chip, .time, .port]
    let epochsPart := fun t : State => t = { s with chip := t.chip } ∧ t.chip = { s.chip with regs := t.chip.regs, out := t.chip.out, ep := t.chip.ep, sw := t.chip.sw, upsets := t.chip.upsets } ∧ KeepsKinds s t [.chip, .epoch, .sched]
    let powersPart := fun t : State => t = { s with chip := t.chip, clk := t.clk } ∧ t.chip = { s.chip with regs := t.chip.regs, out := t.chip.out, pwr := t.chip.pwr } ∧ KeepsKinds s t [.chip, .port, .pwr, .therm, .flume]
    let lifecyclePart := fun t : State => t = { s with chip := t.chip, aux := t.aux, vault := t.vault } ∧ t.chip = { s.chip with regs := t.chip.regs, out := t.chip.out, fresh := t.chip.fresh, slu := t.chip.slu } ∧ KeepsKinds s t [.chip, .life, .sluice, .upage, .vault, .port]
    let ringsPart := fun t : State => t = { s with chip := t.chip } ∧ t.chip = { s.chip with regs := t.chip.regs, out := t.chip.out, fresh := t.chip.fresh, upsets := t.chip.upsets, dma := t.chip.dma, sw := t.chip.sw, frames := t.chip.frames, buf := t.chip.buf, flm := t.chip.flm, tel := t.chip.tel } ∧ KeepsKinds s t [.chip, .ringblk, .dma, .switch, .bufmgr, .sched, .gauge, .level, .trace, .spill, .telemetry, .ledger, .port]
    (∀ (a : Agent) (m : Fin 32), Completes (.postCmd a m) s postsPart) ∧
    (∀ (a : Agent) (m : Fin 32), Completes (.mbxTake a m) s postsPart) ∧
    (∀ (a : Agent) (m : Fin 32) (st : Byte), Completes (.mbxAck a m st) s postsPart) ∧
    (∀ (m : Fin 32), Completes (.ackTimeout m) s postsPart) ∧
    (∀ (a : Agent) (i : Fin 64), Completes (.lockRead a i) s postsPart) ∧
    (∀ (a : Agent) (i : Fin 64) (v : Word), Completes (.lockRelease a i v) s postsPart) ∧
    (∀ (a : Agent) (i : Fin 64), Completes (.lockBreak a i) s postsPart) ∧
    (∀ (a : Agent) (p : Fin 144) (rx : Bool) (k : Fin 8) (sc : Fin 4) (an : Fin 4) (keysrc : Bool), Completes (.saInstall a p rx k sc an keysrc) s keysPart) ∧
    (∀ (a : Agent) (p : Fin 144) (rx : Bool) (k : Fin 8) (sc : Fin 4) (an : Fin 4), Completes (.saRead a p rx k sc an) s keysPart) ∧
    (∀ (a : Agent) (p : Fin 144) (rx : Bool) (k : Fin 8) (sc : Fin 4) (an : Fin 4), Completes (.saRetire a p rx k sc an) s keysPart) ∧
    (∀ (a : Agent) (lp : Fin 1152) (an : Fin 4), Completes (.txAnWrite a lp an) s keysPart) ∧
    (∀ (a : Agent) (u : Fin 32) (v : Word), Completes (.upOwnerWrite a u v) s keysPart) ∧
    (∀ (a : Agent) (u : Fin 32), Completes (.jobSubmit a u) s keysPart) ∧
    (∀ (inp : List Byte) (agree : Bool), Completes (.gcmEnc inp agree) s keysPart) ∧
    (∀ (inp : List Byte) (agree : Bool), Completes (.gcmDec inp agree) s keysPart) ∧
    (∀ (inp : List Byte) (agree : Bool), Completes (.gmac inp agree) s keysPart) ∧
    (∀ (inp : List Byte) (agree : Bool), Completes (.sha384 inp agree) s keysPart) ∧
    (∀ (inp : List Byte) (agree : Bool), Completes (.hmac384 inp agree) s keysPart) ∧
    (∀ (inp : List Byte) (agree : Bool), Completes (.ecdsaSign inp agree) s keysPart) ∧
    (∀ (inp : List Byte) (agree : Bool), Completes (.ecdsaVerify inp agree) s keysPart) ∧
    (∀ (inp : List Byte) (agree : Bool), Completes (.unwrap inp agree) s keysPart) ∧
    (∀ (agree : Bool), Completes (.wrap agree) s keysPart) ∧
    (∀ (agree : Bool), Completes (.keygen agree) s keysPart) ∧
    (∀ (agree : Bool), Completes (.zero agree) s keysPart) ∧
    (∀ (agree : Bool), Completes (.random agree) s keysPart) ∧
    (∀ (agree : Bool), Completes (.advance agree) s keysPart) ∧
    (Completes .healthTestFail s keysPart) ∧
    (∀ (a : Agent) (readBackOk : Bool), Completes (.zeroizeAll a readBackOk) s keysPart) ∧
    (∀ (fail : Option (Fin 16)), Completes (.katDone fail) s keysPart) ∧
    (∀ (a : Agent) (u : Byte) (exportable : Bool), Completes (.kekIssue a u exportable) s keysPart) ∧
    (∀ (a : Agent) (v : Word), Completes (.refSelWrite a v) s timesPart) ∧
    (Completes .refLoss s timesPart) ∧
    (Completes .timeRefReturn s timesPart) ∧
    (∀ (a : Agent) (lp : Fin 1152), Completes (.txtsRead a lp) s timesPart) ∧
    (∀ (a : Agent) (v : Word), Completes (.sampleSubmit a v) s timesPart) ∧
    (Completes .sampleTmo s timesPart) ∧
    (∀ (a : Agent), Completes (.glide a) s timesPart) ∧
    (∀ (a : Agent), Completes (.servoEnSet a) s timesPart) ∧
    (∀ (a : Agent), Completes (.servoEnClear a) s timesPart) ∧
    (∀ (a : Agent) (neg : Bool), Completes (.stepAdd a neg) s timesPart) ∧
    (∀ (a : Agent) (neg : Bool), Completes (.stepSet a neg) s timesPart) ∧
    (∀ (sub : Fin 328), Completes (.ppsInEdge sub) s timesPart) ∧
    (∀ (a : Agent), Completes (.ppsInRead a) s timesPart) ∧
    (Completes .ppsOutEdge s timesPart) ∧
    (Completes .ppsOutFall s timesPart) ∧
    (∀ (typ : Fin 4) (domain : Byte) (prio1 : Byte) (prio2 : Byte) (cls : Byte) (acc : Byte) (var : BitVec 16), Completes (.clockCfg typ domain prio1 prio2 cls acc var) s timesPart) ∧
    (∀ (lp : Fin 1152) (en : Bool) (peer : Bool) (oneStep : Bool) (rates : List Int) (asym : Int) (forced : Byte), Completes (.portCfg lp en peer oneStep rates asym forced) s timesPart) ∧
    (∀ (lp : Option (Fin 1152)), Completes (.ptpGetStatus lp) s timesPart) ∧
    (∀ (kind : Fin 4) (neg : Bool) (sec : BitVec 64) (ns : BitVec 30) (frac : BitVec 16), Completes (.svcStep kind neg sec ns frac) s timesPart) ∧
    (∀ (a : Agent) (e : BitVec 16), Completes (.epochOpen a e) s epochsPart) ∧
    (∀ (a : Agent) (e : BitVec 16), Completes (.epochAbort a e) s epochsPart) ∧
    (∀ (a : Agent) (e : BitVec 16), Completes (.epochCommit a e) s epochsPart) ∧
    (∀ (a : Agent) (e : BitVec 16), Completes (.epochRollback a e) s epochsPart) ∧
    (Completes .commitBeat s epochsPart) ∧
    (Completes .retireDone s epochsPart) ∧
    (∀ (raw : List Nat), Completes (.estimateTick raw) s powersPart) ∧
    (∀ (meas : Option Nat) (mean : Nat), Completes (.pmbusWindow meas mean) s powersPart) ∧
    (∀ (a : Agent), Completes (.calClr a) s powersPart) ∧
    (∀ (a : Agent), Completes (.fracApply a) s powersPart) ∧
    (∀ (idle : List (Fin 1152)), Completes (.paceInstant idle) s powersPart) ∧
    (Completes .pacePllLock s powersPart) ∧
    (Completes .droopStart s powersPart) ∧
    (Completes .droopEnd s powersPart) ∧
    (Completes .paceDeferResume s powersPart) ∧
    (∀ (frame : Word), Completes (.groupFrameReceive frame) s powersPart) ∧
    (Completes .groupLoss s powersPart) ∧
    (Completes .groupExit s powersPart) ∧
    (∀ (en : Bool) (capW : Nat) (fr : List Nat), Completes (.capSet en capW fr) s powersPart) ∧
    (Completes .pwrGetStatus s powersPart) ∧
    (∀ (en : Bool) (lead : Bool) (id : Byte) (period : Nat), Completes (.groupCfg en lead id period) s powersPart) ∧
    (∀ (t : List Int) (stuck : List (Fin 26)), Completes (.thermalSample t stuck) s powersPart) ∧
    (∀ (a : Agent) (v : Word), Completes (.thermClr a v) s powersPart) ∧
    (∀ (a : Agent) (arg : BitVec 20), Completes (.provision a arg) s lifecyclePart) ∧
    (∀ (a : Agent) (arg : BitVec 20), Completes (.deploy a arg) s lifecyclePart) ∧
    (∀ (a : Agent) (arg : BitVec 20), Completes (.challenge a arg) s lifecyclePart) ∧
    (∀ (a : Agent) (arg : BitVec 20), Completes (.unlock a arg) s lifecyclePart) ∧
    (∀ (a : Agent) (arg : BitVec 20), Completes (.relock a arg) s lifecyclePart) ∧
    (∀ (a : Agent) (arg : BitVec 20), Completes (.rma a arg) s lifecyclePart) ∧
    (∀ (a : Agent) (arg : BitVec 20), Completes (.disable a arg) s lifecyclePart) ∧
    (∀ (a : Agent) (arg : BitVec 20), Completes (.addKey a arg) s lifecyclePart) ∧
    (∀ (a : Agent) (arg : BitVec 20), Completes (.revokeKey a arg) s lifecyclePart) ∧
    (∀ (a : Agent) (arg : BitVec 20), Completes (.svnAdvance a arg) s lifecyclePart) ∧
    (Completes .challengeExpiry s lifecyclePart) ∧
    (Completes .dbgWarn s lifecyclePart) ∧
    (Completes .debugSessionExpiry s lifecyclePart) ∧
    (∀ (a : Agent) (v : Word), Completes (.frzClr a v) s lifecyclePart) ∧
    (∀ (a : Agent) (ring : Fin 64) (v : Word), Completes (.ringDoorbell a ring v) s ringsPart) ∧
    (∀ (ring : Fin 64) (desc : List Byte) (frame : List Byte), Completes (.txDescriptor ring desc frame) s ringsPart) ∧
    (∀ (h : Fin 16) (addrs : List (BitVec 64)), Completes (.rxDescriptor h addrs) s ringsPart) ∧
    (∀ (ring : Fin 64), Completes (.coalTime ring) s ringsPart) ∧
    (∀ (a : Agent) (ring : Fin 64) (v : Word), Completes (.ringCfgWrite a ring v) s ringsPart)

/-- For every command and state: a step with the command at the front of the queue is exec of that command on the state with the rest of the queue. On
an empty queue the block idles: the step answers the state unchanged. The queue and its idling are the model's own (log 1). -/
def Obligations.StepRunsTheFrontCommand : Prop :=
  (∀ (i : Instr) (rest : List Instr) (s : State), s.pending = i :: rest → step s = exec i { s with pending := rest }) ∧
  (∀ s : State, s.pending = [] → step s = .next s)

/-- For every command, with every operand, and every state: exec answers a next state, never a fault or a refusal, and the commands that wait in
the queue are the same after it as before, through every reset and power event as well. That the queue lies outside the device is the model's own (log 1). -/
def Obligations.EveryCommandAnswersAndKeepsTheQueue : Prop :=
  ∀ (i : Instr) (s : State), ∃ t : State, exec i s = .next t ∧ t.pending = s.pending

/-- The state after reset: the queue is empty; device time is 0 s, 0 ns, F is 0 and the servo DISABLED; no frame, copy, key slot, job or secure association exists; the device is up and in
ACTIVE; every register but INT_CAUSE and INT_FIRST of the RSTCLK page and PAGE_CTL of the buffer manager, which boot leaves set, reads its
reset value; the stores are canonical, the modes legal, the FIFOs within their depths, the rate within its limit, and no debug session is open. That
State.reset stands after boot, with blank fuses, is the model's choice (logs 7 and 8). -/
def Obligations.ResetStateIsAsTheSpecSays : Prop :=
  State.reset.pending = [] ∧ State.reset.clk.tod = 0 ∧ State.reset.clk.freq = 0 ∧ State.reset.clk.servo = 0 ∧
  State.reset.chip.frames = [] ∧ State.reset.chip.sw.copies = [] ∧ State.reset.vault.slots = [] ∧ State.reset.vault.jobs = [] ∧ State.reset.vault.sas = [] ∧
  Active State.reset ∧
  (∀ x : Nat, x ∉ [Reg.INT_CAUSE 1, Reg.INT_FIRST 1, Reg.PAGE_CTL 0x221] → State.reset.chip.rd x = rstVal x) ∧
  State.reset.chip.regsWf = true ∧ State.reset.modesLegal = true ∧ State.reset.fifosWithin = true ∧ State.reset.clk.rateOk ∧ State.reset.aux.sessionOk

/-- For every state whose register store, both banks of the epoch registers included, is in canonical form: whatever command stands at the front of the queue, the
state that the step answers has it in canonical form too. So two devices whose registers all read the same hold equal stores. The form is the model's own. -/
def Obligations.RegisterStoreStaysCanonical : Prop :=
  ∀ s t : State, s.chip.regsWf = true → step s = .next t → t.chip.regsWf = true

/-- For every state whose modes are legal (power state, boot phase, servo, STEP_SEQ, Vault and Flume state, 16 reaches, 16 sluices of 4 threads) and whose FIFOs hold at most their depth (PPS_IN 4, transmit timestamps
64 a port, Vault jobs 4 a page, samples 1,024, captures 4,096, learn events 65,536): whatever command stands at the front of the queue, the state
that the step answers has legal modes and FIFOs within their depths too. -/
def Obligations.ModesAndFifosStayLegal : Prop :=
  ∀ s t : State, s.modesLegal = true → s.fifosWithin = true → step s = .next t → t.modesLegal = true ∧ t.fifosWithin = true

/-- For every state whose applied and coming rate lie within 1,000,000 ppb of nominal, and every command: the next state's rates do too; device time does not decrease unless
the command applies a step; and real time does not decrease; or else the command was a device reset, after which the TIME domain stands at its reset
state. So every increment is positive, and device time steps backwards only through STEP_APPLY. -/
def Obligations.DeviceTimeNeverDecreases : Prop :=
  ∀ (i : Instr) (s t : State), s.clk.rateOk → exec i s = .next t →
    t.clk.rateOk ∧ (t.clk = {} ∨ (s.clk.now ≤ t.clk.now ∧ (i ≠ .stepApply → s.clk.tod ≤ t.clk.tod)))

/-- For every state in which a debug session is open only where the fuses say DEPLOYED, and every command, resets and register writes of every agent included: the next state has that property too, and its
lifecycle state is the same or the next state of a row of R500: BLANK to PROVISIONED, PROVISIONED to DEPLOYED, DEPLOYED to DEBUG_OPEN and back, PROVISIONED, DEPLOYED or DEBUG_OPEN to
RMA, and each state but DISABLED to DISABLED. No command leaves DISABLED, and DEBUG_OPEN is entered from DEPLOYED alone. -/
def Obligations.LifecycleMovesOnlyAlongItsTable : Prop :=
  ∀ (i : Instr) (s t : State), s.aux.sessionOk → exec i s = .next t →
    t.aux.sessionOk ∧ (t.aux.lifecycle = s.aux.lifecycle ∨ (s.aux.lifecycle, t.aux.lifecycle) ∈ lifecycleMoves)

/-- For every state and command: no security version floor falls and no count of raises left grows; and on a device past BLANK, the device secret stays as it is or becomes all ones, the debug key hash stays, a customer key slot
that is filled keeps its hash, and a revoked key stays revoked. Resets, power loss and every register write are among the commands. -/
def Obligations.FusesNeverReturn : Prop :=
  ∀ (i : Instr) (s t : State), exec i s = .next t →
    (∀ n : Nat, (s.aux.otp.svn.getD n (0, 0)).1 ≤ (t.aux.otp.svn.getD n (0, 0)).1 ∧ (t.aux.otp.svn.getD n (0, 0)).2 ≤ (s.aux.otp.svn.getD n (0, 0)).2) ∧
    (s.aux.lifecycle ≠ 0 →
      (t.aux.otp.secret = s.aux.otp.secret ∨ t.aux.otp.secret = List.replicate 32 0xFF) ∧ t.aux.otp.dbgHash = s.aux.otp.dbgHash ∧
      ∀ (n : Nat) (hash : List Byte) (revoked : Bool), s.aux.otp.custKeys.getD n none = some (hash, revoked) →
        t.aux.otp.custKeys.getD n none = some (hash, true) ∨ (revoked = false ∧ t.aux.otp.custKeys.getD n none = some (hash, false)))

/-- For every state and command: while VDD_AUX is down, every command but AUX power-on and power removal leaves the state as it was; while the device is frozen, every command does, but for
the resets and power events, PERST_N, THERMTRIP_N, the debug timer's warning and expiry, frozen read-out, boundary scan and the SMBus read, which live in the AUX
domain or at the pins. -/
def Obligations.UnpoweredOrFrozenDeviceStandsStill : Prop :=
  ∀ (i : Instr) (s : State), i ≠ .auxPowerOn → i ≠ .powerRemoval →
    (s.aux.rail = .off → exec i s = .next s) ∧
    (s.aux.frozen = true → (∀ b : Boot, i ≠ .porN b ∧ i ≠ .sysRstN b) → i ≠ .perstN → i ≠ .thermtrip → i ≠ .dbgWarn → i ≠ .debugSessionExpiry →
      (∀ tgt : FrozenTarget, i ≠ .frozenRead tgt) → (∀ (x : ScanInstr), i ≠ .boundaryScan x) → (∀ cmd : Byte, i ≠ .smbusReadWord cmd) → exec i s = .next s)
end

