-- ==== Sys2Proof/Laws/Store.lean ====
section
/-!
SUPPORT. Laws/Store.lean: the laws of the sparse store: a read after a write, a write elsewhere, and that every operation keeps the
canonical form.
-/
namespace Sys2Proof.Machine

variable {α : Type}

/-! ## A read after a write -/

@[simp] theorem mget_nil (a : Nat) : mget ([] : SMap α) a = none := rfl

theorem mget_cons (k : Nat) (v : α) (m : SMap α) (a : Nat) :
    mget ((k, v) :: m) a = if k = a then some v else mget m a := rfl

@[simp] theorem mget_merase_same (m : SMap α) (a : Nat) : mget (merase m a) a = none := by
  induction m with
  | nil => rfl
  | cons kv m ih =>
    obtain ⟨k, v⟩ := kv
    by_cases h : k = a
    · simpa [merase, h] using ih
    · simp [merase, h, mget_cons, ih]

theorem mget_merase_ne (m : SMap α) {a b : Nat} (hab : b ≠ a) : mget (merase m a) b = mget m b := by
  induction m with
  | nil => rfl
  | cons kv m ih =>
    obtain ⟨k, v⟩ := kv
    by_cases h : k = a
    · subst h; simp [merase, mget_cons, ih, Ne.symm hab]
    · simp only [merase, h, if_false, mget_cons, ih]

theorem mget_minsert_same (m : SMap α) (a : Nat) (x : α) (h : mget m a = none) : mget (minsert m a x) a = some x := by
  induction m with
  | nil => simp [minsert, mget_cons]
  | cons kv m ih =>
    obtain ⟨k, v⟩ := kv
    by_cases hk : k = a
    · simp [mget_cons, hk] at h
    · by_cases hl : a < k
      · simp [minsert, hl, mget_cons]
      · simp only [mget_cons, hk, if_false] at h
        simp [minsert, hl, mget_cons, hk, ih h]

theorem mget_minsert_ne (m : SMap α) {a b : Nat} (x : α) (hab : b ≠ a) : mget (minsert m a x) b = mget m b := by
  induction m with
  | nil => simp [minsert, mget_cons, Ne.symm hab]
  | cons kv m ih =>
    obtain ⟨k, v⟩ := kv
    by_cases hl : a < k
    · simp [minsert, hl, mget_cons, Ne.symm hab]
    · simp only [minsert, hl, if_false, mget_cons, ih]

@[simp] theorem mget_mput_same (m : SMap α) (a : Nat) (x : Option α) : mget (mput m a x) a = x := by
  cases x with
  | none => simp [mput]
  | some v => exact mget_minsert_same _ _ _ (mget_merase_same m a)

theorem mget_mput_ne (m : SMap α) {a b : Nat} (x : Option α) (hab : b ≠ a) : mget (mput m a x) b = mget m b := by
  cases x with
  | none => exact mget_merase_ne m hab
  | some v => exact (mget_minsert_ne _ v hab).trans (mget_merase_ne m hab)

@[simp] theorem mrd_mset_same [DecidableEq α] (d : α) (m : SMap α) (a : Nat) (v : α) : mrd d (mset d m a v) a = v := by
  unfold mrd mset
  by_cases h : v = d <;> simp [h]

theorem mrd_mset_ne [DecidableEq α] (d : α) (m : SMap α) {a b : Nat} (v : α) (hab : b ≠ a) :
    mrd d (mset d m a v) b = mrd d m b := by
  simp [mrd, mset, mget_mput_ne m _ hab]

/-! ## The canonical form -/

theorem mwf_cons {p : Nat → α → Bool} {k : Nat} {v : α} {m : SMap α} :
    mwf p ((k, v) :: m) = true ↔ p k v = false ∧ (∀ kv ∈ m.head?, k < kv.1) ∧ mwf p m = true := by
  cases m with
  | nil => simp [mwf]
  | cons kv m => simp [mwf, and_assoc]

theorem mwf_tail {p : Nat → α → Bool} {kv : Nat × α} {m : SMap α} (h : mwf p (kv :: m) = true) : mwf p m = true :=
  ((mwf_cons (k := kv.1) (v := kv.2)).mp h).2.2

/-- The keys of a canonical store lie above its first key. -/
theorem mwf_lt {p : Nat → α → Bool} {k : Nat} {v : α} {m : SMap α} (h : mwf p ((k, v) :: m) = true) :
    ∀ kv ∈ m, k < kv.1 := by
  induction m generalizing k v with
  | nil => simp
  | cons e m ih =>
    obtain ⟨k', v'⟩ := e
    obtain ⟨_, h1, h2⟩ := mwf_cons.mp h
    have hk : k < k' := h1 _ rfl
    intro kv hkv
    rcases List.mem_cons.mp hkv with rfl | hm
    · exact hk
    · exact Nat.lt_trans hk (ih h2 kv hm)

theorem mem_merase {m : SMap α} {a : Nat} {kv : Nat × α} (h : kv ∈ merase m a) : kv ∈ m := by
  induction m with
  | nil => cases h
  | cons e m ih =>
    obtain ⟨k, v⟩ := e
    by_cases hk : k = a
    · simp only [merase, hk, if_true] at h
      exact List.mem_cons_of_mem _ (ih h)
    · simp only [merase, hk, if_false] at h
      rcases List.mem_cons.mp h with rfl | hm
      · exact List.mem_cons_self
      · exact List.mem_cons_of_mem _ (ih hm)

/-- A canonical store stays canonical when a smaller key is put in front of it. -/
theorem mwf_cons_of_lt {p : Nat → α → Bool} {k : Nat} {v : α} {m : SMap α} (hp : p k v = false) (hlt : ∀ kv ∈ m, k < kv.1)
    (hm : mwf p m = true) : mwf p ((k, v) :: m) = true :=
  mwf_cons.mpr ⟨hp, fun _ h => hlt _ (List.mem_of_mem_head? h), hm⟩

theorem mwf_merase {p : Nat → α → Bool} {m : SMap α} (a : Nat) (h : mwf p m = true) : mwf p (merase m a) = true := by
  induction m with
  | nil => rfl
  | cons e m ih =>
    obtain ⟨k, v⟩ := e
    obtain ⟨h0, _, h2⟩ := mwf_cons.mp h
    by_cases hk : k = a
    · simpa [merase, hk] using ih h2
    · simp only [merase, hk, if_false]
      exact mwf_cons_of_lt h0 (fun kv hkv => mwf_lt h kv (mem_merase hkv)) (ih h2)

theorem mem_minsert {m : SMap α} {a : Nat} {x : α} {kv : Nat × α} (h : kv ∈ minsert m a x) : kv = (a, x) ∨ kv ∈ m := by
  induction m with
  | nil => simpa [minsert] using h
  | cons e m ih =>
    obtain ⟨k, v⟩ := e
    by_cases hl : a < k
    · simpa [minsert, hl] using h
    · simp only [minsert, hl, if_false, List.mem_cons] at h
      rcases h with rfl | hm
      · exact .inr List.mem_cons_self
      · exact (ih hm).imp id (List.mem_cons_of_mem _)

theorem mwf_minsert {p : Nat → α → Bool} {m : SMap α} {a : Nat} {x : α} (hp : p a x = false) (ha : mget m a = none)
    (h : mwf p m = true) : mwf p (minsert m a x) = true := by
  induction m with
  | nil => simp [minsert, mwf, hp]
  | cons e m ih =>
    obtain ⟨k, v⟩ := e
    obtain ⟨h0, _, h2⟩ := mwf_cons.mp h
    have hka : k ≠ a := by intro hk; simp [mget_cons, hk] at ha
    simp only [mget_cons, hka, if_false] at ha
    by_cases hl : a < k
    · simp only [minsert, hl, if_true]
      refine mwf_cons_of_lt hp (fun kv hkv => ?_) h
      rcases List.mem_cons.mp hkv with rfl | hm
      · exact hl
      · exact Nat.lt_trans hl (mwf_lt h kv hm)
    · simp only [minsert, hl, if_false]
      refine mwf_cons_of_lt h0 (fun kv hkv => ?_) (ih ha h2)
      rcases mem_minsert hkv with rfl | hm
      · exact Nat.lt_of_le_of_ne (Nat.le_of_not_lt hl) hka
      · exact mwf_lt h kv hm

/-- A write keeps the canonical form, when what it lists is no unlisted key's value. -/
theorem mwf_mput {p : Nat → α → Bool} {m : SMap α} (a : Nat) (x : Option α) (hx : ∀ v ∈ x, p a v = false)
    (h : mwf p m = true) : mwf p (mput m a x) = true := by
  cases x with
  | none => exact mwf_merase a h
  | some v => exact mwf_minsert (hx v rfl) (mget_merase_same m a) (mwf_merase a h)

theorem mwf_mset [DecidableEq α] (d : α) {m : SMap α} (a : Nat) (v : α) (h : mwf (fun _ v => decide (v = d)) m = true) :
    mwf (fun _ v => decide (v = d)) (mset d m a v) = true := by
  refine mwf_mput a _ (fun x hx => ?_) h
  by_cases hv : v = d
  · simp [hv] at hx
  · simp only [hv, if_false, Option.mem_def, Option.some.injEq] at hx
    simp [← hx, hv]

theorem mwf_filter {p : Nat → α → Bool} {m : SMap α} (f : Nat × α → Bool) (h : mwf p m = true) : mwf p (m.filter f) = true := by
  induction m with
  | nil => rfl
  | cons e m ih =>
    obtain ⟨k, v⟩ := e
    obtain ⟨h0, _, h2⟩ := mwf_cons.mp h
    by_cases hf : f (k, v) = true
    · rw [List.filter_cons_of_pos hf]
      exact mwf_cons_of_lt h0 (fun kv hkv => mwf_lt h kv (List.mem_filter.mp hkv).1) (ih h2)
    · rw [List.filter_cons_of_neg hf]
      exact ih h2

theorem mwf_mclear {p : Nat → α → Bool} {m : SMap α} (lo hi : Nat) (h : mwf p m = true) : mwf p (mclear m lo hi) = true :=
  mwf_filter _ h

/-- Bytes written keep the canonical form. -/
theorem mwf_writeBytes {m : SMap Byte} (a : Nat) (bs : List Byte) (h : mwf (fun _ v => decide (v = (0 : Byte))) m = true) :
    mwf (fun _ v => decide (v = (0 : Byte))) (writeBytes m a bs) = true := by
  induction bs generalizing m a with
  | nil => exact h
  | cons b bs ih => exact ih (a + 1) (mwf_mset 0 a b h)

/-- A byte outside the bytes written keeps its value. -/
theorem mrd_writeBytes_ne (m : SMap Byte) (a : Nat) (bs : List Byte) {b : Nat} (h : b < a ∨ a + bs.length ≤ b) :
    mrd 0 (writeBytes m a bs) b = mrd 0 m b := by
  induction bs generalizing m a with
  | nil => rfl
  | cons x bs ih =>
    rw [writeBytes, ih _ _ (by simp only [List.length_cons] at h; omega), mrd_mset_ne]
    rintro rfl
    simp only [List.length_cons] at h
    omega

/-! ## One place of a list -/

@[simp] theorem length_upd (l : List α) (i : Nat) (x : α) : (upd l i x).length = l.length := by
  induction l generalizing i with
  | nil => rfl
  | cons y l ih => cases i <;> simp [upd, ih]

end Sys2Proof.Machine
end

