-- ==== Sys2Proof/Laws/State.lean ====
section
/-!
SUPPORT. Laws/State.lean: one lemma per field of the chip and named update that leaves it: every one is true by definition.
-/
namespace Sys2Proof.Machine

/-! ## wr -/

@[simp] theorem Chip.wr_out (c : Chip) (a : Nat) (v : Word) : (c.wr a v).out = c.out := rfl
@[simp] theorem Chip.wr_fresh (c : Chip) (a : Nat) (v : Word) : (c.wr a v).fresh = c.fresh := rfl
@[simp] theorem Chip.wr_shadow (c : Chip) (a : Nat) (v : Word) : (c.wr a v).shadow = c.shadow := rfl
@[simp] theorem Chip.wr_upsets (c : Chip) (a : Nat) (v : Word) : (c.wr a v).upsets = c.upsets := rfl
@[simp] theorem Chip.wr_lastBeat (c : Chip) (a : Nat) (v : Word) : (c.wr a v).lastBeat = c.lastBeat := rfl
@[simp] theorem Chip.wr_beat (c : Chip) (a : Nat) (v : Word) : (c.wr a v).beat = c.beat := rfl
@[simp] theorem Chip.wr_mbx (c : Chip) (a : Nat) (v : Word) : (c.wr a v).mbx = c.mbx := rfl
@[simp] theorem Chip.wr_ep (c : Chip) (a : Nat) (v : Word) : (c.wr a v).ep = c.ep := rfl
@[simp] theorem Chip.wr_pwr (c : Chip) (a : Nat) (v : Word) : (c.wr a v).pwr = c.pwr := rfl
@[simp] theorem Chip.wr_dma (c : Chip) (a : Nat) (v : Word) : (c.wr a v).dma = c.dma := rfl
@[simp] theorem Chip.wr_links (c : Chip) (a : Nat) (v : Word) : (c.wr a v).links = c.links := rfl
@[simp] theorem Chip.wr_frames (c : Chip) (a : Nat) (v : Word) : (c.wr a v).frames = c.frames := rfl
@[simp] theorem Chip.wr_nextFrame (c : Chip) (a : Nat) (v : Word) : (c.wr a v).nextFrame = c.nextFrame := rfl
@[simp] theorem Chip.wr_reaches (c : Chip) (a : Nat) (v : Word) : (c.wr a v).reaches = c.reaches := rfl
@[simp] theorem Chip.wr_buf (c : Chip) (a : Nat) (v : Word) : (c.wr a v).buf = c.buf := rfl
@[simp] theorem Chip.wr_sw (c : Chip) (a : Nat) (v : Word) : (c.wr a v).sw = c.sw := rfl
@[simp] theorem Chip.wr_flm (c : Chip) (a : Nat) (v : Word) : (c.wr a v).flm = c.flm := rfl
@[simp] theorem Chip.wr_tel (c : Chip) (a : Nat) (v : Word) : (c.wr a v).tel = c.tel := rfl
@[simp] theorem Chip.wr_weirs (c : Chip) (a : Nat) (v : Word) : (c.wr a v).weirs = c.weirs := rfl
@[simp] theorem Chip.wr_tbl (c : Chip) (a : Nat) (v : Word) : (c.wr a v).tbl = c.tbl := rfl
@[simp] theorem Chip.wr_slu (c : Chip) (a : Nat) (v : Word) : (c.wr a v).slu = c.slu := rfl
@[simp] theorem Chip.wr_flash (c : Chip) (a : Nat) (v : Word) : (c.wr a v).flash = c.flash := rfl

/-! ## wrF -/

@[simp] theorem Chip.wrF_out (c : Chip) (a hi lo v : Nat) : (c.wrF a hi lo v).out = c.out := rfl
@[simp] theorem Chip.wrF_fresh (c : Chip) (a hi lo v : Nat) : (c.wrF a hi lo v).fresh = c.fresh := rfl
@[simp] theorem Chip.wrF_shadow (c : Chip) (a hi lo v : Nat) : (c.wrF a hi lo v).shadow = c.shadow := rfl
@[simp] theorem Chip.wrF_upsets (c : Chip) (a hi lo v : Nat) : (c.wrF a hi lo v).upsets = c.upsets := rfl
@[simp] theorem Chip.wrF_lastBeat (c : Chip) (a hi lo v : Nat) : (c.wrF a hi lo v).lastBeat = c.lastBeat := rfl
@[simp] theorem Chip.wrF_beat (c : Chip) (a hi lo v : Nat) : (c.wrF a hi lo v).beat = c.beat := rfl
@[simp] theorem Chip.wrF_mbx (c : Chip) (a hi lo v : Nat) : (c.wrF a hi lo v).mbx = c.mbx := rfl
@[simp] theorem Chip.wrF_ep (c : Chip) (a hi lo v : Nat) : (c.wrF a hi lo v).ep = c.ep := rfl
@[simp] theorem Chip.wrF_pwr (c : Chip) (a hi lo v : Nat) : (c.wrF a hi lo v).pwr = c.pwr := rfl
@[simp] theorem Chip.wrF_dma (c : Chip) (a hi lo v : Nat) : (c.wrF a hi lo v).dma = c.dma := rfl
@[simp] theorem Chip.wrF_links (c : Chip) (a hi lo v : Nat) : (c.wrF a hi lo v).links = c.links := rfl
@[simp] theorem Chip.wrF_frames (c : Chip) (a hi lo v : Nat) : (c.wrF a hi lo v).frames = c.frames := rfl
@[simp] theorem Chip.wrF_nextFrame (c : Chip) (a hi lo v : Nat) : (c.wrF a hi lo v).nextFrame = c.nextFrame := rfl
@[simp] theorem Chip.wrF_reaches (c : Chip) (a hi lo v : Nat) : (c.wrF a hi lo v).reaches = c.reaches := rfl
@[simp] theorem Chip.wrF_buf (c : Chip) (a hi lo v : Nat) : (c.wrF a hi lo v).buf = c.buf := rfl
@[simp] theorem Chip.wrF_sw (c : Chip) (a hi lo v : Nat) : (c.wrF a hi lo v).sw = c.sw := rfl
@[simp] theorem Chip.wrF_flm (c : Chip) (a hi lo v : Nat) : (c.wrF a hi lo v).flm = c.flm := rfl
@[simp] theorem Chip.wrF_tel (c : Chip) (a hi lo v : Nat) : (c.wrF a hi lo v).tel = c.tel := rfl
@[simp] theorem Chip.wrF_weirs (c : Chip) (a hi lo v : Nat) : (c.wrF a hi lo v).weirs = c.weirs := rfl
@[simp] theorem Chip.wrF_tbl (c : Chip) (a hi lo v : Nat) : (c.wrF a hi lo v).tbl = c.tbl := rfl
@[simp] theorem Chip.wrF_slu (c : Chip) (a hi lo v : Nat) : (c.wrF a hi lo v).slu = c.slu := rfl
@[simp] theorem Chip.wrF_flash (c : Chip) (a hi lo v : Nat) : (c.wrF a hi lo v).flash = c.flash := rfl

/-! ## orW -/

@[simp] theorem Chip.orW_out (c : Chip) (a : Nat) (m : Word) : (c.orW a m).out = c.out := rfl
@[simp] theorem Chip.orW_fresh (c : Chip) (a : Nat) (m : Word) : (c.orW a m).fresh = c.fresh := rfl
@[simp] theorem Chip.orW_shadow (c : Chip) (a : Nat) (m : Word) : (c.orW a m).shadow = c.shadow := rfl
@[simp] theorem Chip.orW_upsets (c : Chip) (a : Nat) (m : Word) : (c.orW a m).upsets = c.upsets := rfl
@[simp] theorem Chip.orW_lastBeat (c : Chip) (a : Nat) (m : Word) : (c.orW a m).lastBeat = c.lastBeat := rfl
@[simp] theorem Chip.orW_beat (c : Chip) (a : Nat) (m : Word) : (c.orW a m).beat = c.beat := rfl
@[simp] theorem Chip.orW_mbx (c : Chip) (a : Nat) (m : Word) : (c.orW a m).mbx = c.mbx := rfl
@[simp] theorem Chip.orW_ep (c : Chip) (a : Nat) (m : Word) : (c.orW a m).ep = c.ep := rfl
@[simp] theorem Chip.orW_pwr (c : Chip) (a : Nat) (m : Word) : (c.orW a m).pwr = c.pwr := rfl
@[simp] theorem Chip.orW_dma (c : Chip) (a : Nat) (m : Word) : (c.orW a m).dma = c.dma := rfl
@[simp] theorem Chip.orW_links (c : Chip) (a : Nat) (m : Word) : (c.orW a m).links = c.links := rfl
@[simp] theorem Chip.orW_frames (c : Chip) (a : Nat) (m : Word) : (c.orW a m).frames = c.frames := rfl
@[simp] theorem Chip.orW_nextFrame (c : Chip) (a : Nat) (m : Word) : (c.orW a m).nextFrame = c.nextFrame := rfl
@[simp] theorem Chip.orW_reaches (c : Chip) (a : Nat) (m : Word) : (c.orW a m).reaches = c.reaches := rfl
@[simp] theorem Chip.orW_buf (c : Chip) (a : Nat) (m : Word) : (c.orW a m).buf = c.buf := rfl
@[simp] theorem Chip.orW_sw (c : Chip) (a : Nat) (m : Word) : (c.orW a m).sw = c.sw := rfl
@[simp] theorem Chip.orW_flm (c : Chip) (a : Nat) (m : Word) : (c.orW a m).flm = c.flm := rfl
@[simp] theorem Chip.orW_tel (c : Chip) (a : Nat) (m : Word) : (c.orW a m).tel = c.tel := rfl
@[simp] theorem Chip.orW_weirs (c : Chip) (a : Nat) (m : Word) : (c.orW a m).weirs = c.weirs := rfl
@[simp] theorem Chip.orW_tbl (c : Chip) (a : Nat) (m : Word) : (c.orW a m).tbl = c.tbl := rfl
@[simp] theorem Chip.orW_slu (c : Chip) (a : Nat) (m : Word) : (c.orW a m).slu = c.slu := rfl
@[simp] theorem Chip.orW_flash (c : Chip) (a : Nat) (m : Word) : (c.orW a m).flash = c.flash := rfl

/-! ## count -/

@[simp] theorem Chip.count_out (c : Chip) (a n : Nat) : (c.count a n).out = c.out := rfl
@[simp] theorem Chip.count_fresh (c : Chip) (a n : Nat) : (c.count a n).fresh = c.fresh := rfl
@[simp] theorem Chip.count_shadow (c : Chip) (a n : Nat) : (c.count a n).shadow = c.shadow := rfl
@[simp] theorem Chip.count_upsets (c : Chip) (a n : Nat) : (c.count a n).upsets = c.upsets := rfl
@[simp] theorem Chip.count_lastBeat (c : Chip) (a n : Nat) : (c.count a n).lastBeat = c.lastBeat := rfl
@[simp] theorem Chip.count_beat (c : Chip) (a n : Nat) : (c.count a n).beat = c.beat := rfl
@[simp] theorem Chip.count_mbx (c : Chip) (a n : Nat) : (c.count a n).mbx = c.mbx := rfl
@[simp] theorem Chip.count_ep (c : Chip) (a n : Nat) : (c.count a n).ep = c.ep := rfl
@[simp] theorem Chip.count_pwr (c : Chip) (a n : Nat) : (c.count a n).pwr = c.pwr := rfl
@[simp] theorem Chip.count_dma (c : Chip) (a n : Nat) : (c.count a n).dma = c.dma := rfl
@[simp] theorem Chip.count_links (c : Chip) (a n : Nat) : (c.count a n).links = c.links := rfl
@[simp] theorem Chip.count_frames (c : Chip) (a n : Nat) : (c.count a n).frames = c.frames := rfl
@[simp] theorem Chip.count_nextFrame (c : Chip) (a n : Nat) : (c.count a n).nextFrame = c.nextFrame := rfl
@[simp] theorem Chip.count_reaches (c : Chip) (a n : Nat) : (c.count a n).reaches = c.reaches := rfl
@[simp] theorem Chip.count_buf (c : Chip) (a n : Nat) : (c.count a n).buf = c.buf := rfl
@[simp] theorem Chip.count_sw (c : Chip) (a n : Nat) : (c.count a n).sw = c.sw := rfl
@[simp] theorem Chip.count_flm (c : Chip) (a n : Nat) : (c.count a n).flm = c.flm := rfl
@[simp] theorem Chip.count_tel (c : Chip) (a n : Nat) : (c.count a n).tel = c.tel := rfl
@[simp] theorem Chip.count_weirs (c : Chip) (a n : Nat) : (c.count a n).weirs = c.weirs := rfl
@[simp] theorem Chip.count_tbl (c : Chip) (a n : Nat) : (c.count a n).tbl = c.tbl := rfl
@[simp] theorem Chip.count_slu (c : Chip) (a n : Nat) : (c.count a n).slu = c.slu := rfl
@[simp] theorem Chip.count_flash (c : Chip) (a n : Nat) : (c.count a n).flash = c.flash := rfl

/-! ## countF -/

@[simp] theorem Chip.countF_out (c : Chip) (a hi lo : Nat) : (c.countF a hi lo).out = c.out := rfl
@[simp] theorem Chip.countF_fresh (c : Chip) (a hi lo : Nat) : (c.countF a hi lo).fresh = c.fresh := rfl
@[simp] theorem Chip.countF_shadow (c : Chip) (a hi lo : Nat) : (c.countF a hi lo).shadow = c.shadow := rfl
@[simp] theorem Chip.countF_upsets (c : Chip) (a hi lo : Nat) : (c.countF a hi lo).upsets = c.upsets := rfl
@[simp] theorem Chip.countF_lastBeat (c : Chip) (a hi lo : Nat) : (c.countF a hi lo).lastBeat = c.lastBeat := rfl
@[simp] theorem Chip.countF_beat (c : Chip) (a hi lo : Nat) : (c.countF a hi lo).beat = c.beat := rfl
@[simp] theorem Chip.countF_mbx (c : Chip) (a hi lo : Nat) : (c.countF a hi lo).mbx = c.mbx := rfl
@[simp] theorem Chip.countF_ep (c : Chip) (a hi lo : Nat) : (c.countF a hi lo).ep = c.ep := rfl
@[simp] theorem Chip.countF_pwr (c : Chip) (a hi lo : Nat) : (c.countF a hi lo).pwr = c.pwr := rfl
@[simp] theorem Chip.countF_dma (c : Chip) (a hi lo : Nat) : (c.countF a hi lo).dma = c.dma := rfl
@[simp] theorem Chip.countF_links (c : Chip) (a hi lo : Nat) : (c.countF a hi lo).links = c.links := rfl
@[simp] theorem Chip.countF_frames (c : Chip) (a hi lo : Nat) : (c.countF a hi lo).frames = c.frames := rfl
@[simp] theorem Chip.countF_nextFrame (c : Chip) (a hi lo : Nat) : (c.countF a hi lo).nextFrame = c.nextFrame := rfl
@[simp] theorem Chip.countF_reaches (c : Chip) (a hi lo : Nat) : (c.countF a hi lo).reaches = c.reaches := rfl
@[simp] theorem Chip.countF_buf (c : Chip) (a hi lo : Nat) : (c.countF a hi lo).buf = c.buf := rfl
@[simp] theorem Chip.countF_sw (c : Chip) (a hi lo : Nat) : (c.countF a hi lo).sw = c.sw := rfl
@[simp] theorem Chip.countF_flm (c : Chip) (a hi lo : Nat) : (c.countF a hi lo).flm = c.flm := rfl
@[simp] theorem Chip.countF_tel (c : Chip) (a hi lo : Nat) : (c.countF a hi lo).tel = c.tel := rfl
@[simp] theorem Chip.countF_weirs (c : Chip) (a hi lo : Nat) : (c.countF a hi lo).weirs = c.weirs := rfl
@[simp] theorem Chip.countF_tbl (c : Chip) (a hi lo : Nat) : (c.countF a hi lo).tbl = c.tbl := rfl
@[simp] theorem Chip.countF_slu (c : Chip) (a hi lo : Nat) : (c.countF a hi lo).slu = c.slu := rfl
@[simp] theorem Chip.countF_flash (c : Chip) (a hi lo : Nat) : (c.countF a hi lo).flash = c.flash := rfl

/-! ## count64 -/

@[simp] theorem Chip.count64_out (c : Chip) (lo hi n : Nat) : (c.count64 lo hi n).out = c.out := rfl
@[simp] theorem Chip.count64_fresh (c : Chip) (lo hi n : Nat) : (c.count64 lo hi n).fresh = c.fresh := rfl
@[simp] theorem Chip.count64_shadow (c : Chip) (lo hi n : Nat) : (c.count64 lo hi n).shadow = c.shadow := rfl
@[simp] theorem Chip.count64_upsets (c : Chip) (lo hi n : Nat) : (c.count64 lo hi n).upsets = c.upsets := rfl
@[simp] theorem Chip.count64_lastBeat (c : Chip) (lo hi n : Nat) : (c.count64 lo hi n).lastBeat = c.lastBeat := rfl
@[simp] theorem Chip.count64_beat (c : Chip) (lo hi n : Nat) : (c.count64 lo hi n).beat = c.beat := rfl
@[simp] theorem Chip.count64_mbx (c : Chip) (lo hi n : Nat) : (c.count64 lo hi n).mbx = c.mbx := rfl
@[simp] theorem Chip.count64_ep (c : Chip) (lo hi n : Nat) : (c.count64 lo hi n).ep = c.ep := rfl
@[simp] theorem Chip.count64_pwr (c : Chip) (lo hi n : Nat) : (c.count64 lo hi n).pwr = c.pwr := rfl
@[simp] theorem Chip.count64_dma (c : Chip) (lo hi n : Nat) : (c.count64 lo hi n).dma = c.dma := rfl
@[simp] theorem Chip.count64_links (c : Chip) (lo hi n : Nat) : (c.count64 lo hi n).links = c.links := rfl
@[simp] theorem Chip.count64_frames (c : Chip) (lo hi n : Nat) : (c.count64 lo hi n).frames = c.frames := rfl
@[simp] theorem Chip.count64_nextFrame (c : Chip) (lo hi n : Nat) : (c.count64 lo hi n).nextFrame = c.nextFrame := rfl
@[simp] theorem Chip.count64_reaches (c : Chip) (lo hi n : Nat) : (c.count64 lo hi n).reaches = c.reaches := rfl
@[simp] theorem Chip.count64_buf (c : Chip) (lo hi n : Nat) : (c.count64 lo hi n).buf = c.buf := rfl
@[simp] theorem Chip.count64_sw (c : Chip) (lo hi n : Nat) : (c.count64 lo hi n).sw = c.sw := rfl
@[simp] theorem Chip.count64_flm (c : Chip) (lo hi n : Nat) : (c.count64 lo hi n).flm = c.flm := rfl
@[simp] theorem Chip.count64_tel (c : Chip) (lo hi n : Nat) : (c.count64 lo hi n).tel = c.tel := rfl
@[simp] theorem Chip.count64_weirs (c : Chip) (lo hi n : Nat) : (c.count64 lo hi n).weirs = c.weirs := rfl
@[simp] theorem Chip.count64_tbl (c : Chip) (lo hi n : Nat) : (c.count64 lo hi n).tbl = c.tbl := rfl
@[simp] theorem Chip.count64_slu (c : Chip) (lo hi n : Nat) : (c.count64 lo hi n).slu = c.slu := rfl
@[simp] theorem Chip.count64_flash (c : Chip) (lo hi n : Nat) : (c.count64 lo hi n).flash = c.flash := rfl

/-! ## wr64 -/

@[simp] theorem Chip.wr64_out (c : Chip) (lo hi v : Nat) : (c.wr64 lo hi v).out = c.out := rfl
@[simp] theorem Chip.wr64_fresh (c : Chip) (lo hi v : Nat) : (c.wr64 lo hi v).fresh = c.fresh := rfl
@[simp] theorem Chip.wr64_shadow (c : Chip) (lo hi v : Nat) : (c.wr64 lo hi v).shadow = c.shadow := rfl
@[simp] theorem Chip.wr64_upsets (c : Chip) (lo hi v : Nat) : (c.wr64 lo hi v).upsets = c.upsets := rfl
@[simp] theorem Chip.wr64_lastBeat (c : Chip) (lo hi v : Nat) : (c.wr64 lo hi v).lastBeat = c.lastBeat := rfl
@[simp] theorem Chip.wr64_beat (c : Chip) (lo hi v : Nat) : (c.wr64 lo hi v).beat = c.beat := rfl
@[simp] theorem Chip.wr64_mbx (c : Chip) (lo hi v : Nat) : (c.wr64 lo hi v).mbx = c.mbx := rfl
@[simp] theorem Chip.wr64_ep (c : Chip) (lo hi v : Nat) : (c.wr64 lo hi v).ep = c.ep := rfl
@[simp] theorem Chip.wr64_pwr (c : Chip) (lo hi v : Nat) : (c.wr64 lo hi v).pwr = c.pwr := rfl
@[simp] theorem Chip.wr64_dma (c : Chip) (lo hi v : Nat) : (c.wr64 lo hi v).dma = c.dma := rfl
@[simp] theorem Chip.wr64_links (c : Chip) (lo hi v : Nat) : (c.wr64 lo hi v).links = c.links := rfl
@[simp] theorem Chip.wr64_frames (c : Chip) (lo hi v : Nat) : (c.wr64 lo hi v).frames = c.frames := rfl
@[simp] theorem Chip.wr64_nextFrame (c : Chip) (lo hi v : Nat) : (c.wr64 lo hi v).nextFrame = c.nextFrame := rfl
@[simp] theorem Chip.wr64_reaches (c : Chip) (lo hi v : Nat) : (c.wr64 lo hi v).reaches = c.reaches := rfl
@[simp] theorem Chip.wr64_buf (c : Chip) (lo hi v : Nat) : (c.wr64 lo hi v).buf = c.buf := rfl
@[simp] theorem Chip.wr64_sw (c : Chip) (lo hi v : Nat) : (c.wr64 lo hi v).sw = c.sw := rfl
@[simp] theorem Chip.wr64_flm (c : Chip) (lo hi v : Nat) : (c.wr64 lo hi v).flm = c.flm := rfl
@[simp] theorem Chip.wr64_tel (c : Chip) (lo hi v : Nat) : (c.wr64 lo hi v).tel = c.tel := rfl
@[simp] theorem Chip.wr64_weirs (c : Chip) (lo hi v : Nat) : (c.wr64 lo hi v).weirs = c.weirs := rfl
@[simp] theorem Chip.wr64_tbl (c : Chip) (lo hi v : Nat) : (c.wr64 lo hi v).tbl = c.tbl := rfl
@[simp] theorem Chip.wr64_slu (c : Chip) (lo hi v : Nat) : (c.wr64 lo hi v).slu = c.slu := rfl
@[simp] theorem Chip.wr64_flash (c : Chip) (lo hi v : Nat) : (c.wr64 lo hi v).flash = c.flash := rfl

/-! ## emit -/

@[simp] theorem Chip.emit_regs (c : Chip) (o : Output) : (c.emit o).regs = c.regs := rfl
@[simp] theorem Chip.emit_fresh (c : Chip) (o : Output) : (c.emit o).fresh = c.fresh := rfl
@[simp] theorem Chip.emit_shadow (c : Chip) (o : Output) : (c.emit o).shadow = c.shadow := rfl
@[simp] theorem Chip.emit_upsets (c : Chip) (o : Output) : (c.emit o).upsets = c.upsets := rfl
@[simp] theorem Chip.emit_lastBeat (c : Chip) (o : Output) : (c.emit o).lastBeat = c.lastBeat := rfl
@[simp] theorem Chip.emit_beat (c : Chip) (o : Output) : (c.emit o).beat = c.beat := rfl
@[simp] theorem Chip.emit_mbx (c : Chip) (o : Output) : (c.emit o).mbx = c.mbx := rfl
@[simp] theorem Chip.emit_ep (c : Chip) (o : Output) : (c.emit o).ep = c.ep := rfl
@[simp] theorem Chip.emit_pwr (c : Chip) (o : Output) : (c.emit o).pwr = c.pwr := rfl
@[simp] theorem Chip.emit_dma (c : Chip) (o : Output) : (c.emit o).dma = c.dma := rfl
@[simp] theorem Chip.emit_links (c : Chip) (o : Output) : (c.emit o).links = c.links := rfl
@[simp] theorem Chip.emit_frames (c : Chip) (o : Output) : (c.emit o).frames = c.frames := rfl
@[simp] theorem Chip.emit_nextFrame (c : Chip) (o : Output) : (c.emit o).nextFrame = c.nextFrame := rfl
@[simp] theorem Chip.emit_reaches (c : Chip) (o : Output) : (c.emit o).reaches = c.reaches := rfl
@[simp] theorem Chip.emit_buf (c : Chip) (o : Output) : (c.emit o).buf = c.buf := rfl
@[simp] theorem Chip.emit_sw (c : Chip) (o : Output) : (c.emit o).sw = c.sw := rfl
@[simp] theorem Chip.emit_flm (c : Chip) (o : Output) : (c.emit o).flm = c.flm := rfl
@[simp] theorem Chip.emit_tel (c : Chip) (o : Output) : (c.emit o).tel = c.tel := rfl
@[simp] theorem Chip.emit_weirs (c : Chip) (o : Output) : (c.emit o).weirs = c.weirs := rfl
@[simp] theorem Chip.emit_tbl (c : Chip) (o : Output) : (c.emit o).tbl = c.tbl := rfl
@[simp] theorem Chip.emit_slu (c : Chip) (o : Output) : (c.emit o).slu = c.slu := rfl
@[simp] theorem Chip.emit_flash (c : Chip) (o : Output) : (c.emit o).flash = c.flash := rfl

/-! ## onReach -/

@[simp] theorem Chip.onReach_regs (c : Chip) (r : Nat) (f : ReachSt → ReachSt) : (c.onReach r f).regs = c.regs := rfl
@[simp] theorem Chip.onReach_out (c : Chip) (r : Nat) (f : ReachSt → ReachSt) : (c.onReach r f).out = c.out := rfl
@[simp] theorem Chip.onReach_fresh (c : Chip) (r : Nat) (f : ReachSt → ReachSt) : (c.onReach r f).fresh = c.fresh := rfl
@[simp] theorem Chip.onReach_shadow (c : Chip) (r : Nat) (f : ReachSt → ReachSt) : (c.onReach r f).shadow = c.shadow := rfl
@[simp] theorem Chip.onReach_upsets (c : Chip) (r : Nat) (f : ReachSt → ReachSt) : (c.onReach r f).upsets = c.upsets := rfl
@[simp] theorem Chip.onReach_lastBeat (c : Chip) (r : Nat) (f : ReachSt → ReachSt) : (c.onReach r f).lastBeat = c.lastBeat := rfl
@[simp] theorem Chip.onReach_beat (c : Chip) (r : Nat) (f : ReachSt → ReachSt) : (c.onReach r f).beat = c.beat := rfl
@[simp] theorem Chip.onReach_mbx (c : Chip) (r : Nat) (f : ReachSt → ReachSt) : (c.onReach r f).mbx = c.mbx := rfl
@[simp] theorem Chip.onReach_ep (c : Chip) (r : Nat) (f : ReachSt → ReachSt) : (c.onReach r f).ep = c.ep := rfl
@[simp] theorem Chip.onReach_pwr (c : Chip) (r : Nat) (f : ReachSt → ReachSt) : (c.onReach r f).pwr = c.pwr := rfl
@[simp] theorem Chip.onReach_dma (c : Chip) (r : Nat) (f : ReachSt → ReachSt) : (c.onReach r f).dma = c.dma := rfl
@[simp] theorem Chip.onReach_links (c : Chip) (r : Nat) (f : ReachSt → ReachSt) : (c.onReach r f).links = c.links := rfl
@[simp] theorem Chip.onReach_frames (c : Chip) (r : Nat) (f : ReachSt → ReachSt) : (c.onReach r f).frames = c.frames := rfl
@[simp] theorem Chip.onReach_nextFrame (c : Chip) (r : Nat) (f : ReachSt → ReachSt) : (c.onReach r f).nextFrame = c.nextFrame := rfl
@[simp] theorem Chip.onReach_buf (c : Chip) (r : Nat) (f : ReachSt → ReachSt) : (c.onReach r f).buf = c.buf := rfl
@[simp] theorem Chip.onReach_sw (c : Chip) (r : Nat) (f : ReachSt → ReachSt) : (c.onReach r f).sw = c.sw := rfl
@[simp] theorem Chip.onReach_flm (c : Chip) (r : Nat) (f : ReachSt → ReachSt) : (c.onReach r f).flm = c.flm := rfl
@[simp] theorem Chip.onReach_tel (c : Chip) (r : Nat) (f : ReachSt → ReachSt) : (c.onReach r f).tel = c.tel := rfl
@[simp] theorem Chip.onReach_weirs (c : Chip) (r : Nat) (f : ReachSt → ReachSt) : (c.onReach r f).weirs = c.weirs := rfl
@[simp] theorem Chip.onReach_tbl (c : Chip) (r : Nat) (f : ReachSt → ReachSt) : (c.onReach r f).tbl = c.tbl := rfl
@[simp] theorem Chip.onReach_slu (c : Chip) (r : Nat) (f : ReachSt → ReachSt) : (c.onReach r f).slu = c.slu := rfl
@[simp] theorem Chip.onReach_flash (c : Chip) (r : Nat) (f : ReachSt → ReachSt) : (c.onReach r f).flash = c.flash := rfl

/-! ## onSlu -/

@[simp] theorem Chip.onSlu_regs (c : Chip) (r : Nat) (f : Slu → Slu) : (c.onSlu r f).regs = c.regs := rfl
@[simp] theorem Chip.onSlu_out (c : Chip) (r : Nat) (f : Slu → Slu) : (c.onSlu r f).out = c.out := rfl
@[simp] theorem Chip.onSlu_fresh (c : Chip) (r : Nat) (f : Slu → Slu) : (c.onSlu r f).fresh = c.fresh := rfl
@[simp] theorem Chip.onSlu_shadow (c : Chip) (r : Nat) (f : Slu → Slu) : (c.onSlu r f).shadow = c.shadow := rfl
@[simp] theorem Chip.onSlu_upsets (c : Chip) (r : Nat) (f : Slu → Slu) : (c.onSlu r f).upsets = c.upsets := rfl
@[simp] theorem Chip.onSlu_lastBeat (c : Chip) (r : Nat) (f : Slu → Slu) : (c.onSlu r f).lastBeat = c.lastBeat := rfl
@[simp] theorem Chip.onSlu_beat (c : Chip) (r : Nat) (f : Slu → Slu) : (c.onSlu r f).beat = c.beat := rfl
@[simp] theorem Chip.onSlu_mbx (c : Chip) (r : Nat) (f : Slu → Slu) : (c.onSlu r f).mbx = c.mbx := rfl
@[simp] theorem Chip.onSlu_ep (c : Chip) (r : Nat) (f : Slu → Slu) : (c.onSlu r f).ep = c.ep := rfl
@[simp] theorem Chip.onSlu_pwr (c : Chip) (r : Nat) (f : Slu → Slu) : (c.onSlu r f).pwr = c.pwr := rfl
@[simp] theorem Chip.onSlu_dma (c : Chip) (r : Nat) (f : Slu → Slu) : (c.onSlu r f).dma = c.dma := rfl
@[simp] theorem Chip.onSlu_links (c : Chip) (r : Nat) (f : Slu → Slu) : (c.onSlu r f).links = c.links := rfl
@[simp] theorem Chip.onSlu_frames (c : Chip) (r : Nat) (f : Slu → Slu) : (c.onSlu r f).frames = c.frames := rfl
@[simp] theorem Chip.onSlu_nextFrame (c : Chip) (r : Nat) (f : Slu → Slu) : (c.onSlu r f).nextFrame = c.nextFrame := rfl
@[simp] theorem Chip.onSlu_reaches (c : Chip) (r : Nat) (f : Slu → Slu) : (c.onSlu r f).reaches = c.reaches := rfl
@[simp] theorem Chip.onSlu_buf (c : Chip) (r : Nat) (f : Slu → Slu) : (c.onSlu r f).buf = c.buf := rfl
@[simp] theorem Chip.onSlu_sw (c : Chip) (r : Nat) (f : Slu → Slu) : (c.onSlu r f).sw = c.sw := rfl
@[simp] theorem Chip.onSlu_flm (c : Chip) (r : Nat) (f : Slu → Slu) : (c.onSlu r f).flm = c.flm := rfl
@[simp] theorem Chip.onSlu_tel (c : Chip) (r : Nat) (f : Slu → Slu) : (c.onSlu r f).tel = c.tel := rfl
@[simp] theorem Chip.onSlu_weirs (c : Chip) (r : Nat) (f : Slu → Slu) : (c.onSlu r f).weirs = c.weirs := rfl
@[simp] theorem Chip.onSlu_tbl (c : Chip) (r : Nat) (f : Slu → Slu) : (c.onSlu r f).tbl = c.tbl := rfl
@[simp] theorem Chip.onSlu_flash (c : Chip) (r : Nat) (f : Slu → Slu) : (c.onSlu r f).flash = c.flash := rfl

/-! ## onQueue -/

@[simp] theorem Chip.onQueue_regs (c : Chip) (q : Nat) (f : Queue → Queue) : (c.onQueue q f).regs = c.regs := rfl
@[simp] theorem Chip.onQueue_out (c : Chip) (q : Nat) (f : Queue → Queue) : (c.onQueue q f).out = c.out := rfl
@[simp] theorem Chip.onQueue_fresh (c : Chip) (q : Nat) (f : Queue → Queue) : (c.onQueue q f).fresh = c.fresh := rfl
@[simp] theorem Chip.onQueue_shadow (c : Chip) (q : Nat) (f : Queue → Queue) : (c.onQueue q f).shadow = c.shadow := rfl
@[simp] theorem Chip.onQueue_upsets (c : Chip) (q : Nat) (f : Queue → Queue) : (c.onQueue q f).upsets = c.upsets := rfl
@[simp] theorem Chip.onQueue_lastBeat (c : Chip) (q : Nat) (f : Queue → Queue) : (c.onQueue q f).lastBeat = c.lastBeat := rfl
@[simp] theorem Chip.onQueue_beat (c : Chip) (q : Nat) (f : Queue → Queue) : (c.onQueue q f).beat = c.beat := rfl
@[simp] theorem Chip.onQueue_mbx (c : Chip) (q : Nat) (f : Queue → Queue) : (c.onQueue q f).mbx = c.mbx := rfl
@[simp] theorem Chip.onQueue_ep (c : Chip) (q : Nat) (f : Queue → Queue) : (c.onQueue q f).ep = c.ep := rfl
@[simp] theorem Chip.onQueue_pwr (c : Chip) (q : Nat) (f : Queue → Queue) : (c.onQueue q f).pwr = c.pwr := rfl
@[simp] theorem Chip.onQueue_dma (c : Chip) (q : Nat) (f : Queue → Queue) : (c.onQueue q f).dma = c.dma := rfl
@[simp] theorem Chip.onQueue_links (c : Chip) (q : Nat) (f : Queue → Queue) : (c.onQueue q f).links = c.links := rfl
@[simp] theorem Chip.onQueue_frames (c : Chip) (q : Nat) (f : Queue → Queue) : (c.onQueue q f).frames = c.frames := rfl
@[simp] theorem Chip.onQueue_nextFrame (c : Chip) (q : Nat) (f : Queue → Queue) : (c.onQueue q f).nextFrame = c.nextFrame := rfl
@[simp] theorem Chip.onQueue_reaches (c : Chip) (q : Nat) (f : Queue → Queue) : (c.onQueue q f).reaches = c.reaches := rfl
@[simp] theorem Chip.onQueue_buf (c : Chip) (q : Nat) (f : Queue → Queue) : (c.onQueue q f).buf = c.buf := rfl
@[simp] theorem Chip.onQueue_flm (c : Chip) (q : Nat) (f : Queue → Queue) : (c.onQueue q f).flm = c.flm := rfl
@[simp] theorem Chip.onQueue_tel (c : Chip) (q : Nat) (f : Queue → Queue) : (c.onQueue q f).tel = c.tel := rfl
@[simp] theorem Chip.onQueue_weirs (c : Chip) (q : Nat) (f : Queue → Queue) : (c.onQueue q f).weirs = c.weirs := rfl
@[simp] theorem Chip.onQueue_tbl (c : Chip) (q : Nat) (f : Queue → Queue) : (c.onQueue q f).tbl = c.tbl := rfl
@[simp] theorem Chip.onQueue_slu (c : Chip) (q : Nat) (f : Queue → Queue) : (c.onQueue q f).slu = c.slu := rfl
@[simp] theorem Chip.onQueue_flash (c : Chip) (q : Nat) (f : Queue → Queue) : (c.onQueue q f).flash = c.flash := rfl

/-! ## flStore -/

@[simp] theorem Chip.flStore_regs (c : Chip) (a : Nat) (bs : List Byte) : (c.flStore a bs).regs = c.regs := rfl
@[simp] theorem Chip.flStore_out (c : Chip) (a : Nat) (bs : List Byte) : (c.flStore a bs).out = c.out := rfl
@[simp] theorem Chip.flStore_fresh (c : Chip) (a : Nat) (bs : List Byte) : (c.flStore a bs).fresh = c.fresh := rfl
@[simp] theorem Chip.flStore_shadow (c : Chip) (a : Nat) (bs : List Byte) : (c.flStore a bs).shadow = c.shadow := rfl
@[simp] theorem Chip.flStore_upsets (c : Chip) (a : Nat) (bs : List Byte) : (c.flStore a bs).upsets = c.upsets := rfl
@[simp] theorem Chip.flStore_lastBeat (c : Chip) (a : Nat) (bs : List Byte) : (c.flStore a bs).lastBeat = c.lastBeat := rfl
@[simp] theorem Chip.flStore_beat (c : Chip) (a : Nat) (bs : List Byte) : (c.flStore a bs).beat = c.beat := rfl
@[simp] theorem Chip.flStore_mbx (c : Chip) (a : Nat) (bs : List Byte) : (c.flStore a bs).mbx = c.mbx := rfl
@[simp] theorem Chip.flStore_ep (c : Chip) (a : Nat) (bs : List Byte) : (c.flStore a bs).ep = c.ep := rfl
@[simp] theorem Chip.flStore_pwr (c : Chip) (a : Nat) (bs : List Byte) : (c.flStore a bs).pwr = c.pwr := rfl
@[simp] theorem Chip.flStore_dma (c : Chip) (a : Nat) (bs : List Byte) : (c.flStore a bs).dma = c.dma := rfl
@[simp] theorem Chip.flStore_links (c : Chip) (a : Nat) (bs : List Byte) : (c.flStore a bs).links = c.links := rfl
@[simp] theorem Chip.flStore_frames (c : Chip) (a : Nat) (bs : List Byte) : (c.flStore a bs).frames = c.frames := rfl
@[simp] theorem Chip.flStore_nextFrame (c : Chip) (a : Nat) (bs : List Byte) : (c.flStore a bs).nextFrame = c.nextFrame := rfl
@[simp] theorem Chip.flStore_reaches (c : Chip) (a : Nat) (bs : List Byte) : (c.flStore a bs).reaches = c.reaches := rfl
@[simp] theorem Chip.flStore_buf (c : Chip) (a : Nat) (bs : List Byte) : (c.flStore a bs).buf = c.buf := rfl
@[simp] theorem Chip.flStore_sw (c : Chip) (a : Nat) (bs : List Byte) : (c.flStore a bs).sw = c.sw := rfl
@[simp] theorem Chip.flStore_tel (c : Chip) (a : Nat) (bs : List Byte) : (c.flStore a bs).tel = c.tel := rfl
@[simp] theorem Chip.flStore_weirs (c : Chip) (a : Nat) (bs : List Byte) : (c.flStore a bs).weirs = c.weirs := rfl
@[simp] theorem Chip.flStore_tbl (c : Chip) (a : Nat) (bs : List Byte) : (c.flStore a bs).tbl = c.tbl := rfl
@[simp] theorem Chip.flStore_slu (c : Chip) (a : Nat) (bs : List Byte) : (c.flStore a bs).slu = c.slu := rfl
@[simp] theorem Chip.flStore_flash (c : Chip) (a : Nat) (bs : List Byte) : (c.flStore a bs).flash = c.flash := rfl

/-! ## free -/

@[simp] theorem Chip.free_regs (c : Chip) : c.free.2.regs = c.regs := rfl
@[simp] theorem Chip.free_out (c : Chip) : c.free.2.out = c.out := rfl
@[simp] theorem Chip.free_shadow (c : Chip) : c.free.2.shadow = c.shadow := rfl
@[simp] theorem Chip.free_upsets (c : Chip) : c.free.2.upsets = c.upsets := rfl
@[simp] theorem Chip.free_lastBeat (c : Chip) : c.free.2.lastBeat = c.lastBeat := rfl
@[simp] theorem Chip.free_beat (c : Chip) : c.free.2.beat = c.beat := rfl
@[simp] theorem Chip.free_mbx (c : Chip) : c.free.2.mbx = c.mbx := rfl
@[simp] theorem Chip.free_ep (c : Chip) : c.free.2.ep = c.ep := rfl
@[simp] theorem Chip.free_pwr (c : Chip) : c.free.2.pwr = c.pwr := rfl
@[simp] theorem Chip.free_dma (c : Chip) : c.free.2.dma = c.dma := rfl
@[simp] theorem Chip.free_links (c : Chip) : c.free.2.links = c.links := rfl
@[simp] theorem Chip.free_frames (c : Chip) : c.free.2.frames = c.frames := rfl
@[simp] theorem Chip.free_nextFrame (c : Chip) : c.free.2.nextFrame = c.nextFrame := rfl
@[simp] theorem Chip.free_reaches (c : Chip) : c.free.2.reaches = c.reaches := rfl
@[simp] theorem Chip.free_buf (c : Chip) : c.free.2.buf = c.buf := rfl
@[simp] theorem Chip.free_sw (c : Chip) : c.free.2.sw = c.sw := rfl
@[simp] theorem Chip.free_flm (c : Chip) : c.free.2.flm = c.flm := rfl
@[simp] theorem Chip.free_tel (c : Chip) : c.free.2.tel = c.tel := rfl
@[simp] theorem Chip.free_weirs (c : Chip) : c.free.2.weirs = c.weirs := rfl
@[simp] theorem Chip.free_tbl (c : Chip) : c.free.2.tbl = c.tbl := rfl
@[simp] theorem Chip.free_slu (c : Chip) : c.free.2.slu = c.slu := rfl
@[simp] theorem Chip.free_flash (c : Chip) : c.free.2.flash = c.flash := rfl
@[simp] theorem Chip.free_fresh (c : Chip) : c.free.2.fresh = c.fresh + 1 := rfl
@[simp] theorem Chip.emit_out (c : Chip) (o : Output) : (c.emit o).out = c.out ++ [o] := rfl

/-! ## Changes made while a clock runs -/

@[simp] theorem State.onCore_pending (s : State) (f : Chip → Chip) : (s.onCore f).pending = s.pending := by unfold State.onCore; split <;> rfl
@[simp] theorem State.onCore_aux (s : State) (f : Chip → Chip) : (s.onCore f).aux = s.aux := by unfold State.onCore; split <;> rfl
@[simp] theorem State.onCore_clk (s : State) (f : Chip → Chip) : (s.onCore f).clk = s.clk := by unfold State.onCore; split <;> rfl
@[simp] theorem State.onCore_vault (s : State) (f : Chip → Chip) : (s.onCore f).vault = s.vault := by unfold State.onCore; split <;> rfl
theorem State.onCore_chip {s : State} (f : Chip → Chip) (h : s.coreOn = true) : s.onCore f = { s with chip := f s.chip } := by simp [State.onCore, h]
theorem State.onCore_off {s : State} (f : Chip → Chip) (h : s.coreOn = false) : s.onCore f = s := by simp [State.onCore, h]
@[simp] theorem State.onLive_pending (s : State) (f : Chip → Chip) : (s.onLive f).pending = s.pending := by unfold State.onLive; split <;> rfl
@[simp] theorem State.onLive_aux (s : State) (f : Chip → Chip) : (s.onLive f).aux = s.aux := by unfold State.onLive; split <;> rfl
@[simp] theorem State.onLive_clk (s : State) (f : Chip → Chip) : (s.onLive f).clk = s.clk := by unfold State.onLive; split <;> rfl
@[simp] theorem State.onLive_vault (s : State) (f : Chip → Chip) : (s.onLive f).vault = s.vault := by unfold State.onLive; split <;> rfl
theorem State.onLive_chip {s : State} (f : Chip → Chip) (h : s.live = true) : s.onLive f = { s with chip := f s.chip } := by simp [State.onLive, h]
theorem State.onLive_off {s : State} (f : Chip → Chip) (h : s.live = false) : s.onLive f = s := by simp [State.onLive, h]

theorem State.live_of_coreOn {s : State} (h : s.coreOn = true) : s.live = true := by
  simp only [State.coreOn, Bool.and_eq_true] at h; exact h.1.1

/-! ## One place of a list -/

@[simp] theorem length_modAt {α : Type} (l : List α) (i : Nat) (f : α → α) : (modAt l i f).length = l.length := by
  unfold modAt; split <;> simp

end Sys2Proof.Machine
end

