-- ==== Sys2Proof/Laws/Ops.lean ====
section
/-!
SUPPORT. Laws/Ops.lean: what each shared operation can do, said once: registers, causes, access errors, the access of an agent, and the
end of a command.
-/
namespace Sys2Proof.Machine

/-! ## Registers -/

@[simp] theorem Chip.rd_wr_same (c : Chip) (a : Nat) (v : Word) : (c.wr a v).rd a = v := by
  unfold Chip.rd Chip.wr
  by_cases h : v = rstVal a <;> simp [h]

theorem Chip.rd_wr_ne (c : Chip) {a b : Nat} (v : Word) (h : b ≠ a) : (c.wr a v).rd b = c.rd b := by
  simp [Chip.rd, Chip.wr, mget_mput_ne _ _ h]

theorem Chip.rd_wr (c : Chip) (a b : Nat) (v : Word) : (c.wr a v).rd b = if b = a then v else c.rd b := by
  by_cases h : b = a
  · subst h; simp
  · simp [h, Chip.rd_wr_ne c v h]

theorem Chip.rd_wrF_ne (c : Chip) {a b : Nat} (hi lo v : Nat) (h : b ≠ a) : (c.wrF a hi lo v).rd b = c.rd b := Chip.rd_wr_ne c _ h
theorem Chip.rd_orW_ne (c : Chip) {a b : Nat} (m : Word) (h : b ≠ a) : (c.orW a m).rd b = c.rd b := Chip.rd_wr_ne c _ h
theorem Chip.rd_count_ne (c : Chip) {a b : Nat} (n : Nat) (h : b ≠ a) : (c.count a n).rd b = c.rd b := Chip.rd_wr_ne c _ h
theorem Chip.rd_countF_ne (c : Chip) {a b : Nat} (hi lo : Nat) (h : b ≠ a) : (c.countF a hi lo).rd b = c.rd b :=
  Chip.rd_wr_ne c _ h
@[simp] theorem Chip.rd_wrF_same (c : Chip) (a hi lo v : Nat) : (c.wrF a hi lo v).rd a = setFld (c.rd a) hi lo v :=
  Chip.rd_wr_same c a _
@[simp] theorem Chip.rd_orW_same (c : Chip) (a : Nat) (m : Word) : (c.orW a m).rd a = c.rd a ||| m := Chip.rd_wr_same c a _
@[simp] theorem Chip.rd_count_same (c : Chip) (a n : Nat) : (c.count a n).rd a = satAdd (c.rd a) n := Chip.rd_wr_same c a _
@[simp] theorem Chip.rd_emit (c : Chip) (o : Output) (a : Nat) : (c.emit o).rd a = c.rd a := rfl
@[simp] theorem Chip.rd_free (c : Chip) (a : Nat) : c.free.2.rd a = c.rd a := rfl

theorem Chip.rd_congr {c d : Chip} (h : c.regs = d.regs) (a : Nat) : c.rd a = d.rd a := by simp [Chip.rd, h]

/-- A register write keeps the register store canonical. -/
theorem Chip.regsWf_wr {c : Chip} (a : Nat) (v : Word) (h : c.regsWf = true) : (c.wr a v).regsWf = true := by
  refine mwf_mput a _ (fun x hx => ?_) h
  by_cases hv : v = rstVal a
  · simp [hv] at hx
  · simp only [hv, if_false, Option.mem_def, Option.some.injEq] at hx
    simp [← hx, hv]

theorem Chip.regsWf_congr {c d : Chip} (h : c.regs = d.regs) : c.regsWf = d.regsWf := by simp [Chip.regsWf, h]

/-! ## Cause bits (R44, R45, R54): registers of the page alone, and at most one MSI-X message -/

/-- Two chips agree outside their registers and outputs. -/
def Chip.onlyRegs (c d : Chip) : Prop := d = { c with regs := d.regs, out := d.out }

theorem Chip.onlyRegs_refl (c : Chip) : c.onlyRegs c := rfl

theorem Chip.onlyRegs_trans {c d e : Chip} (h : c.onlyRegs d) (h' : d.onlyRegs e) : c.onlyRegs e := by
  unfold Chip.onlyRegs at *
  rw [h', h]

theorem Chip.onlyRegs_wr (c : Chip) (a : Nat) (v : Word) : c.onlyRegs (c.wr a v) := rfl
theorem Chip.onlyRegs_emit (c : Chip) (o : Output) : c.onlyRegs (c.emit o) := rfl

theorem Chip.onlyRegs_message (c : Chip) (fv : Nat × Nat) : c.onlyRegs (c.message fv) := by
  unfold Chip.message; split
  · rfl
  · exact Chip.onlyRegs_emit c _

@[simp] theorem Chip.message_regs (c : Chip) (fv : Nat × Nat) : (c.message fv).regs = c.regs := by
  unfold Chip.message; split <;> rfl

/-- `settle` sends at most a message. -/
theorem Chip.settle_cases (c d : Chip) (pg : Nat) : c.settle d pg = d ∨ ∃ fv, c.settle d pg = d.message fv := by
  unfold Chip.settle
  split
  · split
    · split
      · exact .inl rfl
      · exact .inr ⟨_, rfl⟩
    · exact .inl rfl
  · exact .inl rfl

@[simp] theorem Chip.settle_regs (c d : Chip) (pg : Nat) : (c.settle d pg).regs = d.regs := by
  rcases Chip.settle_cases c d pg with h | ⟨fv, h⟩ <;> simp [h]

theorem Chip.onlyRegs_settle (c d : Chip) (pg : Nat) : d.onlyRegs (c.settle d pg) := by
  rcases Chip.settle_cases c d pg with h | ⟨fv, h⟩
  · rw [h]; exact Chip.onlyRegs_refl d
  · rw [h]; exact Chip.onlyRegs_message d fv

theorem Chip.onlyRegs_firstCause (c : Chip) (pg i : Nat) : c.onlyRegs (c.firstCause pg i) := by
  unfold Chip.firstCause; split
  · rfl
  · exact Chip.onlyRegs_wr c _ _

theorem Chip.onlyRegs_raiseM (c : Chip) (pg : Nat) (m : Word) : c.onlyRegs (c.raiseM pg m) := by
  unfold Chip.raiseM
  simp only []
  refine Chip.onlyRegs_trans ?_ (Chip.onlyRegs_settle c _ pg)
  split
  · exact Chip.onlyRegs_trans (Chip.onlyRegs_wr c _ _) (Chip.onlyRegs_firstCause _ _ _)
  · exact Chip.onlyRegs_wr c _ _

theorem Chip.onlyRegs_raise (c : Chip) (pg i : Nat) : c.onlyRegs (c.raise pg i) := Chip.onlyRegs_raiseM c pg _

/-- Cause bits that set change INT_CAUSE and INT_FIRST of their page and no other register. -/
theorem Chip.rd_raiseM_ne (c : Chip) {pg a : Nat} (m : Word) (h : a ≠ Reg.INT_CAUSE pg) (h' : a ≠ Reg.INT_FIRST pg) :
    (c.raiseM pg m).rd a = c.rd a := by
  unfold Chip.raiseM
  simp only []
  rw [Chip.rd_congr (Chip.settle_regs _ _ _)]
  split
  · unfold Chip.firstCause
    split
    · exact Chip.rd_orW_ne c m h
    · rw [Chip.rd_wr_ne _ _ h', Chip.rd_orW_ne c m h]
  · exact Chip.rd_orW_ne c m h

theorem Chip.rd_raise_ne (c : Chip) {pg a : Nat} (i : Nat) (h : a ≠ Reg.INT_CAUSE pg) (h' : a ≠ Reg.INT_FIRST pg) :
    (c.raise pg i).rd a = c.rd a := Chip.rd_raiseM_ne c _ h h'

/-- The cause bits are set afterwards. -/
theorem Chip.cause_raiseM (c : Chip) (pg : Nat) (m : Word) (hne : Reg.INT_CAUSE pg ≠ Reg.INT_FIRST pg) :
    (c.raiseM pg m).rd (Reg.INT_CAUSE pg) = c.rd (Reg.INT_CAUSE pg) ||| m := by
  unfold Chip.raiseM
  simp only []
  rw [Chip.rd_congr (Chip.settle_regs _ _ _)]
  split
  · unfold Chip.firstCause
    split
    · simp
    · rw [Chip.rd_wr_ne _ _ hne, Chip.rd_orW_same]
  · simp

theorem Chip.regsWf_raiseM {c : Chip} (pg : Nat) (m : Word) (h : c.regsWf = true) : (c.raiseM pg m).regsWf = true := by
  unfold Chip.raiseM
  simp only []
  rw [Chip.regsWf_congr (Chip.settle_regs _ _ _)]
  split
  · unfold Chip.firstCause
    split
    · exact Chip.regsWf_wr _ _ h
    · exact Chip.regsWf_wr _ _ (Chip.regsWf_wr _ _ h)
  · exact Chip.regsWf_wr _ _ h

theorem Chip.regsWf_raise {c : Chip} (pg i : Nat) (h : c.regsWf = true) : (c.raise pg i).regsWf = true := Chip.regsWf_raiseM pg _ h

/-! ## Access errors (R49) -/

theorem Chip.onlyRegs_accErr (c : Chip) (agent a kind : Nat) : c.onlyRegs (c.accErr agent a kind) := by
  unfold Chip.accErr
  simp only []
  generalize (if (Reg.kindOf (a / 65536)).isSome = true then a / 65536 else 0) = pg at *
  split
  · exact Chip.onlyRegs_raise c _ _
  · exact Chip.onlyRegs_trans (Chip.onlyRegs_raise c _ _)
      (Chip.onlyRegs_trans (Chip.onlyRegs_wr _ _ _) (Chip.onlyRegs_wr _ _ _))

/-- An access error changes INT_CAUSE and INT_FIRST of its page, ACC_ADDR and ACC_INFO, and no other register. -/
theorem Chip.rd_accErr_ne (c : Chip) (agent a kind : Nat) {x : Nat}
    (h : x ∉ [Reg.INT_CAUSE (if (Reg.kindOf (a / 65536)).isSome then a / 65536 else 0),
      Reg.INT_FIRST (if (Reg.kindOf (a / 65536)).isSome then a / 65536 else 0), Reg.chip_ACC_ADDR, Reg.chip_ACC_INFO]) :
    (c.accErr agent a kind).rd x = c.rd x := by
  simp only [List.mem_cons, List.not_mem_nil, or_false, not_or] at h
  obtain ⟨h1, h2, h3, h4⟩ := h
  unfold Chip.accErr
  simp only []
  generalize (if (Reg.kindOf (a / 65536)).isSome = true then a / 65536 else 0) = pg at *
  split
  · exact Chip.rd_raise_ne c _ h1 h2
  · rw [Chip.rd_wr_ne _ _ h4, Chip.rd_wr_ne _ _ h3, Chip.rd_raise_ne c _ h1 h2]

theorem Chip.regsWf_accErr {c : Chip} (agent a kind : Nat) (h : c.regsWf = true) : (c.accErr agent a kind).regsWf = true := by
  unfold Chip.accErr
  simp only []
  generalize (if (Reg.kindOf (a / 65536)).isSome = true then a / 65536 else 0) = pg at *
  split
  · exact Chip.regsWf_raise _ _ h
  · exact Chip.regsWf_wr _ _ (Chip.regsWf_wr _ _ (Chip.regsWf_raise _ _ h))

/-! ## A register access -/

/-- A reserved page or offset is written with an access error of kind 3 and nothing else (R34, R49). -/
theorem State.writeAt_reserved {s : State} (env : BusEnv) (agent a be : Nat) (v : Word) (hl : s.live = true)
    (h : Reg.kindOf (a / 65536) = none ∨ Reg.rowAt a = none) : s.writeAt env agent a be v = (3, s.accErr agent a 3) := by
  unfold State.writeAt
  simp only [hl, Bool.not_true, Bool.false_eq_true, if_false]
  rcases h with h | h
  · simp [h, State.refusedWrite]
  · cases hk : Reg.kindOf (a / 65536) <;> simp [h, State.refusedWrite]

/-- A page that the agent may not reach: kind 5 and nothing else. -/
theorem State.writeAt_denied {s : State} (env : BusEnv) (agent a be : Nat) (v : Word) {k : Reg.Kind} {row : Reg.Row} (hl : s.live = true)
    (hk : Reg.kindOf (a / 65536) = some k) (hr : Reg.rowAt a = some row) (hm : s.mayReach agent (a / 65536) true = false) :
    s.writeAt env agent a be v = (5, s.accErr agent a 5) := by
  unfold State.writeAt
  simp [hl, hk, hr, hm, State.refusedWrite]

/-- A whole-word write that its register takes, with no 1 in an RSV bit, on a page ready for it and, for an epoch register, in
staging: what the register does, and no access error. -/
theorem State.writeAt_ok {s s1 : State} (env : BusEnv) (agent a : Nat) (v : Word) {k : Reg.Kind} {row : Reg.Row} (hl : s.live = true)
    (hk : Reg.kindOf (a / 65536) = some k) (hr : Reg.rowAt a = some row) (hm : s.mayReach agent (a / 65536) true = true)
    (hn : s.notReady (a / 65536) (a % 65536) = false) (he : row.rwe = 0 ∨ s.chip.staging = true)
    (hv : v &&& ~~~ allowedBits k row (a % 65536) = 0)
    (hw : s.writeReg env agent k row a (v &&& allowedBits k row (a % 65536)) = (true, s1)) :
    s.writeAt env agent a 15 v = (0, s1) := by
  unfold State.writeAt
  simp only [hl, hk, hr, hm, hn, hv, hw, Bool.not_true, Bool.false_eq_true, if_false]
  rcases he with he | he <;> simp [he]

/-! ## The end of a command -/

/-- Where nothing is left to settle, the end of a command changes nothing. -/
theorem State.finish_of_settled {s1 s : State} (h0 : s1.settleFrom s = s1) (h : s1.chip.settled = true) (hp : s1.aux.pstate = 0) :
    s1.finish s = s1 := by
  unfold State.finish
  simp only [h0]
  simp only [Chip.settled, Bool.and_eq_true] at h
  obtain ⟨⟨⟨⟨hl, hi⟩, hw⟩, _⟩, _⟩ := h
  have hinj : s1.chip.injectSettle = s1.chip := by unfold Chip.injectSettle; simp only [hi, if_true]
  have hlist : s1.chip.listsAdvance s1.clk = s1.chip := by
    have : s1.chip.dma.lists = [] := List.isEmpty_iff.mp hl
    simp [Chip.listsAdvance, this]
  have hpow : s1.powerSettle = s1 := by simp [State.powerSettle, hp]
  simp only [hinj, hw, if_true, hlist]
  split <;> exact hpow

/-- Every command answers a next state: what `ran` ends. -/
theorem Completes.of_ran {i : Instr} {s s1 : State} {P : State → Prop} (h : exec i s = ran s s1) (hp : P (s1.finish s)) :
    Completes i s P := ⟨_, h, hp⟩

end Sys2Proof.Machine
end

