-- ==== Sys2Proof/WellFormed.lean ====
section
/-!
DEFINITION. WellFormed.lean: what a command's operands must satisfy beyond their types: a BAR0 offset is a
word offset inside the 256 MiB of BAR0 (R33, R35), a page number is below 4,096, and a list operand has the
length the spec gives it.
-/
namespace Sys2Proof

/-- The operands lie in the ranges the spec gives them. -/
def Instr.wellFormed : Instr → Bool
  | .regWrite _ off _ _ => decide (off < 0x10000000 ∧ off % 4 = 0)
  | .rcRead _ off => decide (off < 0x10000000 ∧ off % 4 = 0)
  | .counterLoRead _ off => decide (off < 0x10000000 ∧ off % 4 = 0)
  | .intCauseClear _ pg _ => decide (pg < 0x1000)
  | .intForce _ pg _ => decide (pg < 0x1000)
  | .errAddrRearm _ pg => decide (pg < 0x1000)
  | .accInfoRearm _ => true
  | .vecRearm _ _ => true
  | .softRst _ pg => decide (pg < 0x1000)
  | .softResetDone pg => decide (pg < 0x1000)
  | .scrubNow _ pg => decide (pg < 0x1000)
  | .scrubSlot pg mem word _ => decide (pg < 0x1000 ∧ mem < 64 ∧ word < 0x1000000)
  | .portModeWrite _ _ _ => true
  | .txEqWrite _ _ _ => true
  | .brdDlyWrite _ _ _ _ => true
  | .adaptRestart _ _ => true
  | .adaptDone _ _ taps => decide (taps.length = 12)
  | .contAdaptTick _ moves _ _ => decide (moves.length = 12 ∧ moves.all (fun m => decide (-1 ≤ m) && decide (m ≤ 1)) = true)
  | .fecCodeword _ _ => true
  | .fecDegradeWindow _ => true
  | .hiSer _ => true
  | .hostReqWrite _ _ _ => true
  | .pmReqWrite _ _ _ => true
  | .quietIdleExpiry _ => true
  | .laneTransitionDone _ => true
  | .pllStopDone _ => true
  | .pllUnlock _ _ => true
  | .pllLocked _ _ => true
  | .rawEnSet _ _ => true
  | .rawEnClear _ _ => true
  | .slip _ _ => true
  | .slipDone _ => true
  | .prbsWordCheck _ _ => true
  | .prbsLock _ => true
  | .prbsLockLost _ => true
  | .adminUpSet _ _ => true
  | .adminUpClear _ _ => true
  | .anComplete _ => true
  | .anFail _ => true
  | .trainDone _ => true
  | .trainTmo _ => true
  | .adaptTimeout _ => true
  | .alignLock _ => true
  | .alignTimeout _ => true
  | .calDone _ _ _ => true
  | .lossCondition _ _ _ => true
  | .linkDownHoldExpiry _ => true
  | .remoteFault _ => true
  | .remoteFaultClear _ => true
  | .flushDone _ => true
  | .frameReceive _ _ => true
  | .parseWalk _ => true
  | .frameEnd _ => true
  | .lengthMismatch _ => true
  | .beatBoundary => true
  | .recircReady _ => true
  | .csWrite _ _ => true
  | .csRead _ _ => true
  | .csRepair _ _ => true
  | .mtrWrite _ _ _ => true
  | .mtrRead _ _ _ => true
  | .cntRead _ _ _ => true
  | .cntReadClear _ _ _ => true
  | .cntClear _ _ _ => true
  | .indWriteEntry _ _ _ => true
  | .indReadEntry _ _ _ => true
  | .indWriteGroup _ _ => true
  | .indReadGroup _ _ => true
  | .sluiceWord _ => true
  | .sluRegRd _ => true
  | .sluRegWr _ => true
  | .sluFlumeRd _ => true
  | .sluFlumeWr _ => true
  | .sluHostRd _ _ => true
  | .sluHostWr _ => true
  | .sluTblCmd _ => true
  | .sluVaultJob _ => true
  | .sluLockTry _ => true
  | .sluLockAcq _ => true
  | .sluMbxPost _ => true
  | .sluLearnPop _ => true
  | .sluInject _ => true
  | .requestComplete _ => true
  | .waitTimeout _ _ => true
  | .timerExpiry _ _ => true
  | .tick => true
  | .pollWatchdog _ _ => true
  | .heartbeatWatchdog _ => true
  | .sluiceRestart _ => true
  | .sluStart _ _ => true
  | .sluStop _ _ => true
  | .imgCmdGo _ _ _ => true
  | .imgLoadDone _ _ => true
  | .sluCsWrite _ _ => true
  | .sluCsRead _ _ => true
  | .dsDataAccess _ _ _ => true
  | .emInsert src => decide (src.blockOk = true)
  | .emInsertRelocate _ => true
  | .emDelete src => decide (src.blockOk = true)
  | .emRead src => decide (src.blockOk = true)
  | .emUpdate src => decide (src.blockOk = true)
  | .emSwap src => decide (src.blockOk = true)
  | .emSearch src => decide (src.blockOk = true)
  | .emAge src => decide (src.blockOk = true)
  | .emLockBucket src => decide (src.blockOk = true)
  | .emWriteSlot src => decide (src.blockOk = true)
  | .emUnlock src => decide (src.blockOk = true)
  | .emRelocate src => decide (src.blockOk = true)
  | .bucketLockTimeout _ b => decide (b < 262144)
  | .emGeomWrite _ _ _ => true
  | .emClearDone _ => true
  | .learnHandle => true
  | .ageWalk _ => true
  | .pinHoldExpiry _ key => decide (key.length = 16)
  | .setPolicy _ _ _ _ => true
  | .getPolicy _ => true
  | .unpin _ key => decide (key.length = 16)
  | .emFlush _ _ => true
  | .pfxInsert _ src => decide (src.blockOk = true)
  | .pfxDelete _ src => decide (src.blockOk = true)
  | .pfxRead _ src => decide (src.blockOk = true)
  | .pfxUpdate _ src => decide (src.blockOk = true)
  | .pfxSwap _ src => decide (src.blockOk = true)
  | .pfxSearch _ src => decide (src.blockOk = true)
  | .pfxPin _ src => decide (src.blockOk = true)
  | .pfxUnpin _ src => decide (src.blockOk = true)
  | .pfxLookupCmd _ src => decide (src.blockOk = true)
  | .camRead src => decide (src.blockOk = true)
  | .camWriteSlot src => decide (src.blockOk = true)
  | .camLookupCmd src => decide (src.blockOk = true)
  | .pfxS3Done _ => true
  | .pfxOverflowReturn _ _ _ _ => true
  | .pfxFamilyEnable _ _ => true
  | .pfxClearDone _ => true
  | .pfxRebuildDone => true
  | .camBlkWrite _ _ _ => true
  | .carveWrite _ _ => true
  | .bmEnable _ => true
  | .bmBuildDone => true
  | .bufferAlloc _ => true
  | .chainBufferRequest _ => true
  | .poolEmptyGrant _ => true
  | .noBufferTimeout _ => true
  | .bitmapRebuildDone _ _ => true
  | .bufRead _ _ _ => true
  | .bufFree _ _ _ => true
  | .xoffChange _ _ => true
  | .pfcRefresh _ => true
  | .pfcReceive _ _ => true
  | .pauseExpiry _ _ => true
  | .macctlOtherReceive _ _ => true
  | .fcCtlWrite _ _ _ => true
  | .copyLink => true
  | .transmitStart _ => true
  | .copyTransmitEnd _ => true
  | .wdStorm _ _ => true
  | .wdRestore _ _ => true
  | .wdClr _ _ _ => true
  | .qcmdRead _ _ => true
  | .qcmdWrite _ _ => true
  | .qcmdReadClear _ _ => true
  | .mcWriteGroup _ _ => true
  | .mcReadGroup _ _ => true
  | .mcWriteMember _ _ => true
  | .mcReadMember _ _ => true
  | .wheelService _ => true
  | .wheelReplace _ => true
  | .gateWrite _ _ => true
  | .gateRead _ _ => true
  | .gateSwitch _ => true
  | .gateClosePreempt _ => true
  | .preemptVerifyResult _ _ => true
  | .queueSample _ => true
  | .flPartWrite _ _ => true
  | .spillWrite _ => true
  | .spillReturn _ => true
  | .spillReturnDone _ => true
  | .patrolRead => true
  | .flumeLinkFail _ => true
  | .flumeDrainDone => true
  | .flumeDrainTimeout => true
  | .todVoteReload _ => true
  | .syncWord _ => true
  | .refSelWrite _ _ => true
  | .refLoss => true
  | .txtsRead _ _ => true
  | .sampleSubmit _ _ => true
  | .sampleTmo => true
  | .glide _ => true
  | .servoEnSet _ => true
  | .servoEnClear _ => true
  | .stepAdd _ _ => true
  | .stepSet _ _ => true
  | .stepApply => true
  | .ppsInEdge _ => true
  | .ppsInRead _ => true
  | .ppsOutEdge => true
  | .ppsOutFall => true
  | .clockCfg _ _ _ _ _ _ _ => true
  | .portCfg _ _ _ _ rates _ _ => decide (rates.length = 4)
  | .ptpGetStatus _ => true
  | .svcStep _ _ _ _ _ => true
  | .levelHoldRelease _ => true
  | .sampleRingWrite => true
  | .histCfgWrite _ _ _ _ => true
  | .captureRecordWrite => true
  | .blockCloseAge => true
  | .timeTraceWrite => true
  | .stepRecordWrite => true
  | .collectorCfg _ _ _ _ v6 addrs _ _ => decide (addrs.length = (if v6 then 32 else 8))
  | .templateCfg _ _ _ _ _ _ => true
  | .samplerBind _ _ _ _ => true
  | .samplerStats _ => true
  | .ledgerCfg _ _ _ => true
  | .keyLoad blob => decide (blob.length = 64)
  | .ledgerStart => true
  | .ledgerStop => true
  | .extract _ _ _ _ => true
  | .ledgerRelease _ => true
  | .ledgerNote _ => true
  | .postCmd _ _ => true
  | .mbxTake _ _ => true
  | .mbxAck _ _ _ => true
  | .ackTimeout _ => true
  | .lockRead _ _ => true
  | .lockRelease _ _ _ => true
  | .lockBreak _ _ => true
  | .saInstall _ _ _ _ _ _ _ => true
  | .saRead _ _ _ _ _ _ => true
  | .saRetire _ _ _ _ _ _ => true
  | .txAnWrite _ _ _ => true
  | .upOwnerWrite _ _ _ => true
  | .jobSubmit _ _ => true
  | .gcmEnc _ _ => true
  | .gcmDec _ _ => true
  | .gmac _ _ => true
  | .sha384 _ _ => true
  | .hmac384 _ _ => true
  | .ecdsaSign _ _ => true
  | .ecdsaVerify _ _ => true
  | .unwrap _ _ => true
  | .wrap _ => true
  | .keygen _ => true
  | .zero _ => true
  | .random _ => true
  | .advance _ => true
  | .healthTestFail => true
  | .zeroizeAll _ _ => true
  | .katDone _ => true
  | .kekIssue _ _ _ => true
  | .epochOpen _ _ => true
  | .epochAbort _ _ => true
  | .epochCommit _ _ => true
  | .epochRollback _ _ => true
  | .epochCopyDone => true
  | .commitBeat => true
  | .retireDone => true
  | .retireTimeout => true
  | .retireDropsDone => true
  | .journalReplay => true
  | .cfgWrite _ _ _ _ _ => true
  | .cfgRead _ _ _ => true
  | .cfgSaveActive _ => true
  | .jnlSave => true
  | .flashErase _ => true
  | .estimateTick raw => decide (raw.length = 7)
  | .pmbusWindow _ _ => true
  | .calClr _ => true
  | .fracApply _ => true
  | .paceInstant _ => true
  | .pacePllLock => true
  | .droopStart => true
  | .droopEnd => true
  | .paceDeferResume => true
  | .groupFrameReceive _ => true
  | .groupLoss => true
  | .groupExit => true
  | .capSet _ capW fr => decide (capW < 1024 ∧ fr.length = 7)
  | .pwrGetStatus => true
  | .groupCfg _ _ _ _ => true
  | .thermalSample t _ => decide (t.length = 26)
  | .thermtrip => true
  | .thermClr _ _ => true
  | .fatalFault pg _ => decide (pg < 0x1000)
  | .dieLinkFail _ => true
  | .dlinkCmd _ _ _ => true
  | .provision _ _ => true
  | .deploy _ _ => true
  | .challenge _ _ => true
  | .unlock _ _ => true
  | .relock _ _ => true
  | .rma _ _ => true
  | .disable _ _ => true
  | .addKey _ _ => true
  | .revokeKey _ _ => true
  | .svnAdvance _ _ => true
  | .challengeExpiry => true
  | .dbgWarn => true
  | .debugSessionExpiry => true
  | .recovCmd _ _ _ => true
  | .freezeN => true
  | .frzNow _ => true
  | .frozenRead _ => true
  | .frzClr _ _ => true
  | .auxPowerOn => true
  | .porN _ => true
  | .sysRstN _ => true
  | .swRst _ _ _ => true
  | .perstN => true
  | .refclkLoss _ => true
  | .useSpareWrite _ _ => true
  | .quiesce _ => true
  | .active _ => true
  | .standby _ => true
  | .drainTmo => true
  | .ringDoorbell _ _ _ => true
  | .txDescriptor _ desc _ => decide (desc.length = 32)
  | .rxDescriptor _ _ => true
  | .tableDescriptor _ desc blocks => decide (desc.length = 32 ∧ blocks.all (fun b => b.length == 64) = true)
  | .dmaReadError _ _ desc _ => decide (desc.length = 32)
  | .cplTmo _ desc _ => decide (desc.length = 32)
  | .coalTime _ => true
  | .ringCfgWrite _ _ _ => true
  | .flr _ => true
  | .vfEnableChange _ _ => true
  | .smbusReadWord _ => true
  | .storageUpset pg mem word _ _ _ _ => decide (pg < 0x1000 ∧ mem < 64 ∧ word < 0x1000000)
  | .powerRemoval => true
  | .timeRefReturn => true
  | .refclkReturn _ => true
  | .lossConditionClear _ => true
  | .linkTrainingRequest _ _ _ => true
  | .preemptResume _ => true
  | .sluiceHaltTimeout _ _ => true
  | .boundaryScan _ => true

end Sys2Proof
end

section
/-!
SUPPORT. A chip that leaves nothing to settle. The end of a command changes nothing on it (`State.finish_of_calm`), and
writes of ordinary registers, causes, access errors and outputs keep it so.
-/
namespace Sys2Proof.Machine

/-! ## Entries of a store -/

theorem mem_of_mget {α : Type} {m : SMap α} {a : Nat} {v : α} (h : mget m a = some v) : (a, v) ∈ m := by
  induction m with
  | nil => cases h
  | cons kv m ih =>
    obtain ⟨k, w⟩ := kv
    rw [mget_cons] at h
    split at h
    case isTrue hk => cases h; simp [hk]
    case isFalse => exact List.mem_cons_of_mem _ (ih h)

theorem mem_mput {α : Type} {m : SMap α} {a : Nat} {x : Option α} {kv : Nat × α} (h : kv ∈ mput m a x) : kv.1 = a ∨ kv ∈ m := by
  cases x with
  | none => exact .inr (mem_merase h)
  | some v =>
    rcases mem_minsert h with rfl | hm
    · exact .inl rfl
    · exact .inr (mem_merase hm)

/-! ## The form -/

/-- No injected header is on its way (R152). -/
def Chip.injectsAnswered (c : Chip) : Bool :=
  c.slu.s.all fun u => u.reqs.all fun q => q.op != 13 || q.at_ == 0 || q.status.isSome

/-- Nothing that the end of a command settles is waiting, whatever lies at the addresses that `Chip.watches` looks at on pages other than
the sluices' (R541, R152, R153, R511): what `Chip.settled` gives and what register writes keep. -/
structure Chip.Calm (c : Chip) : Prop where
  lists : c.dma.lists = []
  injects : c.injectsAnswered = true
  unwatched : ∀ r < 16, ∀ i < 8, c.rdB (Reg.sluice_SL_WATCH r i) 31 = false
  untriggered : ∀ kv ∈ c.regs, kv.1 % 65536 = 8 → kv.1 < 0x10000000 → bit kv.2 2 = false
  unfrozen : c.rdB Reg.life_FRZ_CTL 0 = false

theorem rstVal_SL_WATCH : ∀ r < 16, ∀ i < 8, rstVal (Reg.sluice_SL_WATCH r i) = 0 := by decide

theorem Chip.rd_SL_WATCH_of_not_watches {c : Chip} (h : c.watches = false) {r i : Nat} (hr : r < 16) (hi : i < 8) :
    c.rd (Reg.sluice_SL_WATCH r i) = 0 := by
  cases hv : mget c.regs (Reg.sluice_SL_WATCH r i) with
  | none => simp only [Chip.rd, hv, Option.getD_none, rstVal_SL_WATCH r hr i hi]
  | some v =>
    refine absurd ?_ (List.any_eq_false.mp h _ (mem_of_mget hv))
    simp only [Bool.and_eq_true, decide_eq_true_eq]
    simp only [Reg.sluice_SL_WATCH, Reg.at_, Reg.pg_sluice]
    omega

theorem Chip.calm_of_settled {c : Chip} (h : c.settled = true) : c.Calm := by
  simp only [Chip.settled, Bool.and_eq_true, Bool.not_eq_true'] at h
  obtain ⟨⟨⟨⟨hl, hi⟩, hw⟩, ht⟩, hf⟩ := h
  refine ⟨List.isEmpty_iff.mp hl, hi, fun r hr i hi => ?_, fun kv hkv h8 hlt => ?_, hf⟩
  · simp [Chip.rdB, bit, Chip.rd_SL_WATCH_of_not_watches hw hr hi]
  · simpa [h8, hlt] using List.all_eq_true.mp ht kv hkv

/-! ## The end of a command -/

theorem Chip.Calm.extLatch_eq {c : Chip} (h : c.Calm) {r : Nat} (hr : r < 16) : c.extLatch r = c := by
  have hn : c.extNow r = false := by
    refine List.any_eq_false.mpr fun i hi => ?_
    have := h.unwatched r hr i (List.mem_range.mp hi)
    simp only [Chip.rdB] at this
    simp [this]
  simp [Chip.extLatch, hn]

theorem Chip.Calm.foldl_extLatch_eq {c : Chip} (h : c.Calm) (l : List Nat) (hl : ∀ r ∈ l, r < 16) :
    l.foldl (fun c r => c.extLatch r) c = c := by
  induction l with
  | nil => rfl
  | cons r l ih =>
    rw [List.foldl_cons, h.extLatch_eq (hl r List.mem_cons_self)]
    exact ih fun x hx => hl x (List.mem_cons_of_mem r hx)

theorem newFatal_of_calm (c : Chip) {d : Chip} (h : d.Calm) : newFatal c d = none := by
  have hf : (d.regs.filter fun kv => kv.1 % 65536 == 8 && decide (kv.1 < 0x10000000) && bit kv.2 2) = [] := by
    refine List.filter_eq_nil_iff.mpr fun kv hkv => ?_
    have := h.untriggered kv hkv
    simp only [Bool.and_eq_true, beq_iff_eq, decide_eq_true_eq, not_and, Bool.not_eq_true]
    exact fun hx => this hx.1 hx.2
  simp [newFatal, hf]

theorem State.settleFrom_of_calm (s : State) {s1 : State} (h : s1.chip.Calm) : s1.settleFrom s = s1 := by
  simp [State.settleFrom, newFatal_of_calm s.chip h, h.unfrozen]

/-- The end of a command changes nothing on a calm chip in ACTIVE. -/
theorem State.finish_of_calm (s : State) {s1 : State} (h : s1.chip.Calm) (hp : s1.aux.pstate = 0) : s1.finish s = s1 := by
  have hinj : s1.chip.injectSettle = s1.chip := if_pos h.injects
  have hext := h.foldl_extLatch_eq (List.range 16) fun r => List.mem_range.mp
  have hlist : s1.chip.listsAdvance s1.clk = s1.chip := by simp [Chip.listsAdvance, h.lists]
  have hpow : s1.powerSettle = s1 := by simp [State.powerSettle, hp]
  simp only [State.finish, State.settleFrom_of_calm s h, hinj, hext, ite_self, hlist]
  exact hpow

/-- A command that changes an active device's chip alone, and leaves it calm, completes in the changed state. -/
theorem Completes.of_calm {i : Instr} {s : State} {c : Chip} {P : State → Prop} (ha : Active s)
    (h : exec i s = ran s { s with chip := c }) (hc : c.Calm) (hp : P { s with chip := c }) : Completes i s P := by
  have hf : ({ s with chip := c } : State).finish s = { s with chip := c } := State.finish_of_calm s hc ha.2.1
  exact .of_ran h (by rwa [hf])

theorem Active.calm {s : State} (ha : Active s) : s.chip.Calm := Chip.calm_of_settled ha.2.2

theorem onlyChip_chip (s : State) (c : Chip) : OnlyChip s { s with chip := c } := ⟨rfl, rfl, rfl, rfl⟩

/-! ## Addresses at which a write keeps a chip calm -/

/-- Not PAGE_CTL, FRZ_CTL or SL_WATCH. -/
def calmKey (a : Nat) : Prop :=
  a % 65536 ≠ 8 ∧ a ≠ Reg.life_FRZ_CTL ∧ ¬ (a / 65536 % 16 = 3 ∧ 0x280 ≤ a % 65536 ∧ a % 65536 < 0x2A0)

theorem calmKey_header (pg : Nat) {off : Nat} (h : off < 0x100) (h8 : off ≠ 8) : calmKey (Reg.at_ pg off) := by
  simp only [calmKey, Reg.at_, Reg.life_FRZ_CTL, Reg.pg_life]
  omega

theorem calmKey_at {pg off : Nat} (ho : off < 65536) (h8 : off ≠ 8) (h4 : pg ≠ 4) (h3 : pg % 16 ≠ 3) : calmKey (Reg.at_ pg off) := by
  simp only [calmKey, Reg.at_, Reg.life_FRZ_CTL, Reg.pg_life]
  omega

theorem Chip.Calm.wr {c : Chip} (h : c.Calm) {a : Nat} (ha : calmKey a) (v : Word) : (c.wr a v).Calm := by
  obtain ⟨h8, hfrz, hsl⟩ := ha
  refine ⟨h.lists, h.injects, fun r hr i hi => ?_, fun kv hkv => ?_, ?_⟩
  · have hne : Reg.sluice_SL_WATCH r i ≠ a := by
      rintro rfl
      simp only [Reg.sluice_SL_WATCH, Reg.at_, Reg.pg_sluice] at hsl
      omega
    simpa only [Chip.rdB, Chip.rd_wr_ne c v hne] using h.unwatched r hr i hi
  · rcases mem_mput hkv with rfl | hm
    · exact fun hx => absurd hx h8
    · exact h.untriggered kv hm
  · simpa only [Chip.rdB, Chip.rd_wr_ne c v (Ne.symm hfrz)] using h.unfrozen

theorem Chip.Calm.congr {c d : Chip} (h : c.Calm) (hr : d.regs = c.regs) (hd : d.dma = c.dma) (hs : d.slu = c.slu) : d.Calm := by
  have hrd := Chip.rd_congr hr
  refine ⟨hd ▸ h.lists, ?_, fun r h16 i h8 => ?_, hr ▸ h.untriggered, ?_⟩
  · simpa only [Chip.injectsAnswered, hs] using h.injects
  · simpa only [Chip.rdB, hrd] using h.unwatched r h16 i h8
  · simpa only [Chip.rdB, hrd] using h.unfrozen

/-! ## Causes and access errors keep a chip calm -/

theorem Chip.Calm.emit {c : Chip} (h : c.Calm) (o : Output) : (c.emit o).Calm := h.congr rfl rfl rfl

theorem Chip.Calm.message {c : Chip} (h : c.Calm) (fv : Nat × Nat) : (c.message fv).Calm := by
  unfold Chip.message; split
  · exact h
  · exact h.emit _

theorem Chip.Calm.settle {d : Chip} (h : d.Calm) (c : Chip) (pg : Nat) : (c.settle d pg).Calm := by
  rcases Chip.settle_cases c d pg with e | ⟨fv, e⟩
  · rwa [e]
  · rw [e]; exact h.message fv

theorem Chip.Calm.firstCause {c : Chip} (h : c.Calm) (pg i : Nat) : (c.firstCause pg i).Calm := by
  unfold Chip.firstCause; split
  · exact h
  · exact h.wr (calmKey_header pg (by decide) (by decide)) _

theorem Chip.Calm.firstSettle {c : Chip} (h : c.Calm) (pg : Nat) : (c.firstSettle pg).Calm := by
  unfold Chip.firstSettle; split
  · exact h.wr (calmKey_header pg (by decide) (by decide)) _
  · exact h

theorem Chip.Calm.edge {d : Chip} (h : d.Calm) (c : Chip) (pg : Nat) : (c.edge d pg).Calm := by
  unfold Chip.edge
  refine Chip.Calm.settle ?_ c pg
  split
  · exact h.firstCause _ _
  · exact h

theorem Chip.Calm.raiseM {c : Chip} (h : c.Calm) (pg : Nat) (m : Word) : (c.raiseM pg m).Calm := by
  have h1 : (c.orW (Reg.INT_CAUSE pg) m).Calm := h.wr (calmKey_header pg (by decide) (by decide)) _
  unfold Chip.raiseM
  refine Chip.Calm.settle ?_ c pg
  split
  · exact h1.firstCause _ _
  · exact h1

theorem Chip.Calm.raise {c : Chip} (h : c.Calm) (pg i : Nat) : (c.raise pg i).Calm := h.raiseM pg _

theorem Chip.Calm.pend {c : Chip} (h : c.Calm) (pg : Nat) {a : Nat} (ha : calmKey a) (m : Word) (i : Nat) : (c.pend pg a m i).Calm := by
  have h1 : (c.orW a m).Calm := h.wr ha _
  unfold Chip.pend
  refine Chip.Calm.settle ?_ c pg
  split
  · exact h1
  · split
    · exact h1.firstCause _ _
    · exact h1

theorem Chip.Calm.accErr {c : Chip} (h : c.Calm) (agent a kind : Nat) : (c.accErr agent a kind).Calm := by
  unfold Chip.accErr
  simp only []
  generalize (if (Reg.kindOf (a / 65536)).isSome then a / 65536 else 0) = pg
  have hr := h.raise pg 28
  split
  · exact hr
  · exact (hr.wr (a := Reg.chip_ACC_ADDR) (calmKey_at (by decide) (by decide) (by decide) (by decide)) _).wr
      (a := Reg.chip_ACC_INFO) (calmKey_at (by decide) (by decide) (by decide) (by decide)) _

end Sys2Proof.Machine
end

section
/-!
SUPPORT. A register access of an active device to a page that the agent reaches: what `State.put`, `State.regWrite`
and `State.get` come to once the register's own rule is known.
-/
namespace Sys2Proof.Machine

/-! ## Rows of a page -/

@[simp] theorem Reg.at_div {pg off : Nat} (h : off < 65536) : Reg.at_ pg off / 65536 = pg := by
  simp only [Reg.at_]; omega

@[simp] theorem Reg.at_mod {pg off : Nat} (h : off < 65536) : Reg.at_ pg off % 65536 = off := by
  simp only [Reg.at_]; omega

theorem Reg.rowAt_header {pg off : Nat} {k : Reg.Kind} (hk : Reg.kindOf pg = some k) (ho : off < 0x100) :
    Reg.rowAt (Reg.at_ pg off) = Reg.rows_header.find? (·.covers off) := by
  have h : off < 65536 := by omega
  simp [Reg.rowAt, h, hk, ho]

theorem Reg.rowAt_mem {a : Nat} {k : Reg.Kind} {row : Reg.Row} (hk : Reg.kindOf (a / 65536) = some k) (ho : 0x100 ≤ a % 65536)
    (hr : Reg.rowAt a = some row) : row ∈ Reg.rowsOf k := by
  simp only [Reg.rowAt, hk, Nat.not_lt.mpr ho, if_false] at hr
  exact List.mem_of_find?_eq_some hr

/-- The low half of a counter pair is a counter that a read clears (R6, R36). -/
theorem Reg.rc_of_half {k : Reg.Kind} : ∀ row ∈ Reg.rowsOf k, row.half = 1 → row.rc ≠ 0 := by
  cases k <;> decide

/-! ## An active device -/

theorem Active.live {s : State} (ha : Active s) : s.live = true := State.live_of_coreOn ha.1

theorem Active.pageAsleep {s : State} (ha : Active s) (pg : Nat) : s.pageAsleep pg = false := by
  obtain ⟨hc, hp, _⟩ := ha
  simp only [State.coreOn, Bool.and_eq_true, beq_iff_eq] at hc
  simp [State.pageAsleep, hc.2, hp]

theorem Active.notReady {s : State} (ha : Active s) {pg : Nat} (hr : s.chip.inReset pg = false) (off : Nat) :
    s.notReady pg off = false := by
  simp [State.notReady, ha.pageAsleep pg, hr]

theorem Active.readsZero {s : State} (ha : Active s) {pg : Nat} (hr : s.chip.inReset pg = false) (off : Nat) :
    s.readsZero pg off = false := by
  simp [State.readsZero, ha.pageAsleep pg, hr]

/-! ## Writes -/

theorem and_eq_self_of_no_rsv {v m : Word} (h : v &&& ~~~ m = 0) : v &&& m = v := by
  have : v &&& m ||| v &&& ~~~ m = v := by
    rw [← BitVec.and_or_distrib_left, BitVec.or_not_self, BitVec.and_allOnes]
  simpa [h] using this

/-- A write of a word without a 1 in an RSV bit comes to what the register's own rule does. -/
theorem State.put_eq {s s1 : State} {a : Agent} {off : Nat} {v : Word} {k : Reg.Kind} {row : Reg.Row} (ha : Active s)
    (hm : MayWrite s a (off / 65536)) (hk : Reg.kindOf (off / 65536) = some k) (hr : Reg.rowAt off = some row)
    (he : row.rwe = 0 ∨ s.chip.staging = true) (hv : v &&& ~~~ allowedBits k row (off % 65536) = 0)
    (hw : s.writeReg {} a.num k row off v = (true, s1)) : s.put a off v = s1 := by
  have h := State.writeAt_ok (s := s) {} a.num off v ha.live hk hr hm.1 (ha.notReady hm.2 _) he hv
    (by rwa [and_eq_self_of_no_rsv hv])
  simp [State.put, State.busWrite, h]

/-- The same at the header of a page. -/
theorem State.put_header {s : State} {a : Agent} {pg off : Nat} {v : Word} {k : Reg.Kind} {row : Reg.Row} (ha : Active s)
    (hm : MayWrite s a pg) (hk : Reg.kindOf pg = some k) (ho : off < 0x100) (hr : Reg.rows_header.find? (·.covers off) = some row)
    (he : row.rwe = 0) (hv : v &&& ~~~ allowedBits k row off = 0) :
    s.put a (Reg.at_ pg off) v = s.headerWrite k row (Reg.at_ pg off) v := by
  have h : off < 65536 := by omega
  refine State.put_eq (k := k) (row := row) ha (by rwa [Reg.at_div h]) (by rwa [Reg.at_div h]) ?_ (.inl he)
    (by rwa [Reg.at_mod h]) ?_
  · rw [Reg.rowAt_header hk ho, hr]
  · simp [State.writeReg, h, ho]

/-- A write without all byte enables changes nothing but by its access error (R35, R49). -/
theorem State.writeAt_partial {s s1 : State} {a : Agent} {off be : Nat} {v : Word} {k : Reg.Kind} {row : Reg.Row} (ha : Active s)
    (hm : MayWrite s a (off / 65536)) (hk : Reg.kindOf (off / 65536) = some k) (hr : Reg.rowAt off = some row) (hbe : be ≠ 15)
    (hw : s.writeReg {} a.num k row off (v &&& allowedBits k row (off % 65536)) = (true, s1)) :
    s.writeAt {} a.num off be v = (2, s.accErr a.num off 2) := by
  simp [State.writeAt, ha.live, hk, hr, hm.1, hw, ha.notReady hm.2, hbe, State.refusedWrite]

/-- A whole-word write comes to what the register's own rule does, and an access error of kind 4 where an RSV bit is 1 (R49). -/
theorem State.writeAt_whole {s s1 : State} {a : Agent} {off : Nat} {v : Word} {k : Reg.Kind} {row : Reg.Row} (ha : Active s)
    (hm : MayWrite s a (off / 65536)) (hk : Reg.kindOf (off / 65536) = some k) (hr : Reg.rowAt off = some row)
    (he : row.rwe = 0 ∨ s.chip.staging = true)
    (hw : s.writeReg {} a.num k row off (v &&& allowedBits k row (off % 65536)) = (true, s1)) :
    s.writeAt {} a.num off 15 v =
      if v &&& ~~~ allowedBits k row (off % 65536) = 0 then (0, s1) else (4, s1.accErr a.num off 4) := by
  have he' : ¬ (row.rwe ≠ 0 ∧ (!s.chip.staging) = true) := by
    rcases he with h | h <;> simp [h]
  simp only [State.writeAt, ha.live, hk, hr, hm.1, hw, ha.notReady hm.2, Bool.not_true, Bool.false_eq_true, if_false, he',
    ne_eq, not_true_eq_false, State.refusedWrite, ite_not]

/-- Away from SW_RST and RECOV_CMD a register write is its access alone. -/
theorem State.regWrite_eq (env : BusEnv) (s : State) (b : Boot) (img : List Byte) (agent a be : Nat) (v : Word)
    (h1 : a / 65536 ≠ 1) (h4 : a / 65536 ≠ 4) : s.regWrite env b img agent a be v = (s.writeAt env agent a be v).2 := by
  have h1' : a ≠ 0x00010104 := by omega
  have h4' : a ≠ 0x00040590 := by omega
  simp [State.regWrite, h1', h4']

/-! ## Reads -/

/-- A read of a page that has no read of its own there. -/
theorem State.get_eq {s s1 : State} {a : Agent} {off : Nat} {k : Reg.Kind} {row : Reg.Row} {v : Word} (ha : Active s)
    (hm : MayRead s a (off / 65536)) (hk : Reg.kindOf (off / 65536) = some k) (hr : Reg.rowAt off = some row)
    (hw : s.readReg a.num k row off = readOk (v, s1)) :
    s.get a off = { s1 with chip := s1.chip.emit (.read a.num off v) } := by
  have h : s.readAt a.num off = readOk (v, s1) := by
    simp [State.readAt, ha.live, hk, hr, hm.1, ha.readsZero hm.2, hw]
  simp [State.get, ha.live, State.busRead, h, readOk]

end Sys2Proof.Machine
end

section
/-!
SUPPORT. The pages whose registers have no write or read of their own (`plainPage`): what an ordinary write and read
do there (R6, R36, R48).
-/
namespace Sys2Proof.Machine

theorem plainPage_kind {pg : Nat} {k : Reg.Kind} (hp : plainPage pg = true) (hk : Reg.kindOf pg = some k) :
    k = .reachCommon ∨ k = .parser ∨ k = .wheel ∨ k = .level ∨ k = .spill ∨ k = .telemetry ∨ k = .dma := by
  rw [plainPage, hk] at hp
  cases k <;> simp at hp ⊢

theorem plainPage_isSome {pg : Nat} (hp : plainPage pg = true) : ∃ k, Reg.kindOf pg = some k := by
  cases hk : Reg.kindOf pg with
  | none => simp [plainPage, hk] at hp
  | some k => exact ⟨k, rfl⟩

/-- No plain page is a sluice's, nor one of the first 0x120 pages. -/
theorem plainPage_place {pg : Nat} (hp : plainPage pg = true) : 0x120 ≤ pg ∧ pg % 16 ≠ 3 := by
  obtain ⟨k, hk⟩ := plainPage_isSome hp
  have hkind := plainPage_kind hp hk
  unfold Reg.kindOf at hk
  split at hk
  case h_22 =>
    by_cases hreach : 0x120 ≤ pg ∧ pg < 0x220
    · refine ⟨hreach.1, fun h3 => ?_⟩
      rw [if_neg (by omega), if_neg (by omega), if_neg (by omega), if_pos hreach, h3] at hk
      cases hk; simp at hkind
    · rw [if_neg hreach] at hk
      split at hk
      · cases hk; simp at hkind
      split at hk
      · cases hk; simp at hkind
      split at hk
      · cases hk; simp at hkind
      split at hk
      · cases hk; simp at hkind
      · cases hk
  all_goals
    cases hk
    revert hkind
    decide

theorem calmKey_plain {a : Nat} (hp : plainPage (a / 65536) = true) (ho : 0x100 ≤ a % 65536) : calmKey a := by
  have hpl := plainPage_place hp
  simp only [calmKey, Reg.life_FRZ_CTL, Reg.at_, Reg.pg_life]
  omega

/-- The other half of a counter pair. -/
theorem calmKey_plain_add_four {a : Nat} (hp : plainPage (a / 65536) = true) (ho : 0x100 ≤ a % 65536) : calmKey (a + 4) := by
  have hpl := plainPage_place hp
  simp only [calmKey, Reg.life_FRZ_CTL, Reg.at_, Reg.pg_life]
  omega

theorem calmKey_plain_bankKey {a : Nat} (b : Bool) (hp : plainPage (a / 65536) = true) (ho : 0x100 ≤ a % 65536) :
    calmKey (bankKey b a) := by
  have hpl := plainPage_place hp
  simp only [bankKey, calmKey, Reg.life_FRZ_CTL, Reg.at_, Reg.pg_life]
  split <;> omega

/-! ## The ordinary write -/

theorem State.writeReg_plain (env : BusEnv) (s : State) (agent : Nat) {k : Reg.Kind} (row : Reg.Row) {a : Nat} (v : Word)
    (hp : plainPage (a / 65536) = true) (hk : Reg.kindOf (a / 65536) = some k) (ho : 0x100 ≤ a % 65536) :
    s.writeReg env agent k row a v = (true, { s with chip := s.chip.plainWrite row a v }) := by
  unfold State.writeReg
  rw [if_neg (Nat.not_lt.mpr ho)]
  rcases plainPage_kind hp hk with rfl | rfl | rfl | rfl | rfl | rfl | rfl <;> rfl

theorem Chip.rd_firstSettle_ne (c : Chip) {pg a : Nat} (h : a ≠ Reg.INT_FIRST pg) : (c.firstSettle pg).rd a = c.rd a := by
  unfold Chip.firstSettle; split
  · exact Chip.rd_wr_ne c _ h
  · rfl

theorem Chip.rd_firstCause_ne (c : Chip) {pg a : Nat} (i : Nat) (h : a ≠ Reg.INT_FIRST pg) : (c.firstCause pg i).rd a = c.rd a := by
  unfold Chip.firstCause; split
  · rfl
  · exact Chip.rd_wr_ne c _ h

theorem Chip.rd_edge_ne (c d : Chip) {pg a : Nat} (h : a ≠ Reg.INT_FIRST pg) : (c.edge d pg).rd a = d.rd a := by
  unfold Chip.edge
  rw [Chip.rd_congr (Chip.settle_regs _ _ _)]
  split
  · exact Chip.rd_firstCause_ne d _ h
  · rfl

/-- Around the store a write changes INT_FIRST of its page alone. -/
theorem Chip.rd_plainWrite_ne (c : Chip) (row : Reg.Row) (a : Nat) (v : Word) {x : Nat} (h : x ≠ Reg.INT_FIRST (a / 65536)) :
    (c.plainWrite row a v).rd x = (c.store row a v).rd x := by
  unfold Chip.plainWrite
  rw [Chip.rd_firstSettle_ne _ h, Chip.rd_edge_ne _ _ h]

theorem Chip.rd_store_same (c : Chip) {row : Reg.Row} (a : Nat) (v : Word) (h : row.rwe = 0) :
    (c.store row a v).rd a = ((c.rd a &&& ~~~ wd row.rw) ||| (v &&& wd row.rw)) &&& ~~~ (v &&& wd row.w1c) := by
  simp [Chip.store, h]

theorem Chip.store_staging {c : Chip} {row : Reg.Row} (a : Nat) (v : Word) (h : row.rwe ≠ 0) (hs : c.staging = true) :
    c.store row a v = c.wr (bankKey (!c.bankB) a) ((c.rdE (!c.bankB) a &&& ~~~ wd row.rwe) ||| (v &&& wd row.rwe)) := by
  simp [Chip.store, h, hs, Chip.rdE]

theorem bankKey_ne (b : Bool) (a : Nat) : bankKey b a ≠ bankKey (!b) a := by
  cases b <;> simp [bankKey]

theorem Chip.Calm.store {c : Chip} (h : c.Calm) (row : Reg.Row) {a : Nat} (v : Word) (ha : ∀ b, calmKey (bankKey b a)) :
    (c.store row a v).Calm := by
  unfold Chip.store
  split
  · split
    · exact h.wr (ha _) _
    · exact h
  · exact h.wr (ha false) _

theorem Chip.Calm.plainWrite {c : Chip} (h : c.Calm) (row : Reg.Row) {a : Nat} (v : Word) (ha : ∀ b, calmKey (bankKey b a)) :
    (c.plainWrite row a v).Calm :=
  ((h.store row v ha).edge c _).firstSettle _

/-! ## The bits that a write takes -/

theorem wd_or (a b : Nat) : wd (a ||| b) = wd a ||| wd b := BitVec.ofNat_or

theorem allowedBits_of_le {k : Reg.Kind} (row : Reg.Row) {off : Nat} (ho : 0x100 ≤ off) :
    allowedBits k row off = wd (row.rw ||| row.ro ||| row.wo ||| row.w1c ||| row.w1s ||| row.rc ||| row.rwe) :=
  if_neg (by omega)

/-- The bits of an access code are among those that a write may set. -/
theorem and_allowedBits_and (k : Reg.Kind) (row : Reg.Row) {off : Nat} (ho : 0x100 ≤ off) (v : Word) {x : Nat}
    (hx : x = row.rw ∨ x = row.w1c ∨ x = row.rwe) : v &&& allowedBits k row off &&& wd x = v &&& wd x := by
  rw [allowedBits_of_le row ho]
  ext i
  simp only [wd_or, BitVec.getElem_and, BitVec.getElem_or]
  rcases hx with rfl | rfl | rfl <;> grind

/-! ## REG_WRITE on a plain page -/

theorem Chip.rd_accErr_page (c : Chip) (agent a kind : Nat) {x : Nat} (ho : 0x100 ≤ x % 65536) (hx : x / 65536 ≠ 0) :
    (c.accErr agent a kind).rd x = c.rd x := by
  refine Chip.rd_accErr_ne c agent a kind ?_
  simp only [List.mem_cons, List.not_mem_nil, or_false, not_or, Reg.INT_CAUSE, Reg.INT_FIRST, Reg.chip_ACC_ADDR, Reg.chip_ACC_INFO,
    Reg.at_, Reg.pg_chip]
  omega

/-- A whole-word write stores its allowed bits: beyond the page's header and CHIP nothing but the store shows. -/
theorem State.regWrite_plain {s : State} {a : Agent} {off : Nat} (v : Word) {k : Reg.Kind} {row : Reg.Row} (ha : Active s)
    (hm : MayWrite s a (off / 65536)) (hp : plainPage (off / 65536) = true) (ho : 0x100 ≤ off % 65536)
    (hk : Reg.kindOf (off / 65536) = some k) (hr : Reg.rowAt off = some row) (he : row.rwe = 0 ∨ s.chip.staging = true) :
    ∃ c : Chip, s.regWrite {} {} [] a.num off 15 v = { s with chip := c } ∧ c.Calm ∧
      ∀ x, 0x100 ≤ x % 65536 → x / 65536 ≠ 0 →
        c.rd x = (s.chip.store row off (v &&& allowedBits k row (off % 65536))).rd x := by
  have hpl := plainPage_place hp
  have hw := State.writeReg_plain {} s a.num row (v &&& allowedBits k row (off % 65536)) hp hk ho
  have hcalm := ha.calm.plainWrite row (v &&& allowedBits k row (off % 65536)) fun b => calmKey_plain_bankKey b hp ho
  have hrd : ∀ x, 0x100 ≤ x % 65536 → (s.chip.plainWrite row off (v &&& allowedBits k row (off % 65536))).rd x =
      (s.chip.store row off (v &&& allowedBits k row (off % 65536))).rd x := fun x hx =>
    Chip.rd_plainWrite_ne s.chip row off _ (by simp only [Reg.INT_FIRST, Reg.at_]; omega)
  rw [State.regWrite_eq _ _ _ _ _ _ _ _ (by omega) (by omega), State.writeAt_whole ha hm hk hr he hw]
  split
  · exact ⟨_, rfl, hcalm, fun x hx _ => hrd x hx⟩
  · exact ⟨_, rfl, hcalm.accErr _ _ _, fun x hx h0 => (Chip.rd_accErr_page _ _ _ _ hx h0).trans (hrd x hx)⟩

theorem State.regWrite_plain_partial {s : State} {a : Agent} {off be : Nat} (v : Word) {k : Reg.Kind} {row : Reg.Row} (ha : Active s)
    (hm : MayWrite s a (off / 65536)) (hp : plainPage (off / 65536) = true) (ho : 0x100 ≤ off % 65536)
    (hk : Reg.kindOf (off / 65536) = some k) (hr : Reg.rowAt off = some row) (hbe : be ≠ 15) :
    s.regWrite {} {} [] a.num off be v = { s with chip := s.chip.accErr a.num off 2 } := by
  have hpl := plainPage_place hp
  rw [State.regWrite_eq _ _ _ _ _ _ _ _ (by omega) (by omega),
    State.writeAt_partial ha hm hk hr hbe (State.writeReg_plain {} s a.num row _ hp hk ho)]
  rfl

/-! ## Reads of a plain page -/

theorem State.readReg_plain (s : State) (agent : Nat) {k : Reg.Kind} (row : Reg.Row) {a : Nat} (hp : plainPage (a / 65536) = true)
    (hk : Reg.kindOf (a / 65536) = some k) : s.readReg agent k row a = readOk (s.plainRead agent k row a) := by
  rcases plainPage_kind hp hk with rfl | rfl | rfl | rfl | rfl | rfl | rfl <;> rfl

/-- The chip after an ordinary read of a register that is no half of a pair. -/
def Chip.afterRead (c : Chip) (row : Reg.Row) (a : Nat) : Chip :=
  if row.rc ≠ 0 then c.wr a (c.rd a &&& ~~~ wd row.rc) else c

/-- The chip after a read of the low half of a counter pair. -/
def Chip.afterPairRead (c : Chip) (agent a : Nat) : Chip :=
  (({ c with shadow := mput c.shadow (shadowKey agent a) (some (c.rd (a + 4))) } : Chip).wr a 0).wr (a + 4) 0

theorem State.plainRead_single (s : State) (agent : Nat) (k : Reg.Kind) {row : Reg.Row} (a : Nat) (h : row.half = 0) :
    s.plainRead agent k row a = (s.peek k row a, { s with chip := s.chip.afterRead row a }) := by
  unfold State.plainRead Chip.afterRead
  by_cases hrc : row.rc = 0 <;> simp [h, hrc]

theorem State.plainRead_low (s : State) (agent : Nat) (k : Reg.Kind) {row : Reg.Row} (a : Nat) (h : row.half = 1) (hrc : row.rc ≠ 0) :
    s.plainRead agent k row a = (s.peek k row a, { s with chip := s.chip.afterPairRead agent a }) := by
  simp [State.plainRead, Chip.afterPairRead, h, hrc]

theorem Chip.rd_afterRead (c : Chip) (row : Reg.Row) (a : Nat) : (c.afterRead row a).rd a = c.rd a &&& ~~~ wd row.rc := by
  unfold Chip.afterRead
  split
  · exact Chip.rd_wr_same c a _
  case isFalse h =>
    have hone : ~~~ wd 0 = BitVec.allOnes 32 := rfl
    rw [Decidable.not_not.mp h, hone, BitVec.and_allOnes]

@[simp] theorem Chip.afterRead_out (c : Chip) (row : Reg.Row) (a : Nat) : (c.afterRead row a).out = c.out := by
  unfold Chip.afterRead; split <;> rfl

theorem Chip.Calm.afterRead {c : Chip} (h : c.Calm) (row : Reg.Row) {a : Nat} (ha : calmKey a) : (c.afterRead row a).Calm := by
  unfold Chip.afterRead; split
  · exact h.wr ha _
  · exact h

theorem Chip.Calm.afterPairRead {c : Chip} (h : c.Calm) (agent : Nat) {a : Nat} (ha : calmKey a) (ha' : calmKey (a + 4)) :
    (c.afterPairRead agent a).Calm :=
  ((h.congr (d := { c with shadow := mput c.shadow (shadowKey agent a) (some (c.rd (a + 4))) }) rfl rfl rfl).wr ha _).wr ha' _

end Sys2Proof.Machine
end

section
/-!
O1: register writes and reads, counter pairs, and the interrupt and capture registers (R6, R36 to R54).
-/
namespace Sys2Proof.Machine

/-! ## Registers of the header -/

theorem Reg.INT_CAUSE_ne_INT_FIRST (pg : Nat) : Reg.INT_CAUSE pg ≠ Reg.INT_FIRST pg := by
  simp [Reg.INT_CAUSE, Reg.INT_FIRST, Reg.at_]

theorem Chip.rd_firstSettle_cause (c : Chip) (pg : Nat) : (c.firstSettle pg).rd (Reg.INT_CAUSE pg) = c.rd (Reg.INT_CAUSE pg) :=
  c.rd_firstSettle_ne (Reg.INT_CAUSE_ne_INT_FIRST pg)

theorem bit_or (v w : Word) (i : Nat) : bit (v ||| w) i = (bit v i || bit w i) := BitVec.getLsbD_or

theorem Chip.rdB_cause_raise (c : Chip) (pg : Nat) {i : Nat} (hi : bit (oneBit i) i = true) :
    (c.raise pg i).rdB (Reg.INT_CAUSE pg) i = true := by
  rw [Chip.rdB, Chip.raise, Chip.cause_raiseM c pg _ (Reg.INT_CAUSE_ne_INT_FIRST pg), bit_or, hi, Bool.or_true]

/-- An access error sets ACC_EV of its page (R49). -/
theorem Chip.rdB_accErr_cause (c : Chip) (agent a kind : Nat) (h : (Reg.kindOf (a / 65536)).isSome = true) :
    (c.accErr agent a kind).rdB (Reg.INT_CAUSE (a / 65536)) 28 = true := by
  have hc := c.rdB_cause_raise (a / 65536) (i := 28) (by decide)
  unfold Chip.accErr
  simp only [h, if_true]
  split
  · exact hc
  · have haddr : Reg.INT_CAUSE (a / 65536) ≠ Reg.chip_ACC_ADDR := by
      simp only [Reg.INT_CAUSE, Reg.chip_ACC_ADDR, Reg.at_, Reg.pg_chip]; omega
    have hinfo : Reg.INT_CAUSE (a / 65536) ≠ Reg.chip_ACC_INFO := by
      simp only [Reg.INT_CAUSE, Reg.chip_ACC_INFO, Reg.at_, Reg.pg_chip]; omega
    rwa [Chip.rdB, Chip.rd_wr_ne _ _ hinfo, Chip.rd_wr_ne _ _ haddr]

/-- Bit 31 of a W1C register clears when it is written 1. -/
theorem Chip.rdB_store_w1c (c : Chip) {row : Reg.Row} (a : Nat) {v : Word} {i : Nat} (he : row.rwe = 0) (hv : bit v i = true)
    (hw : bit (wd row.w1c) i = true) (hi : i < 32) : (c.store row a v).rdB a i = false := by
  rw [Chip.rdB, Chip.rd_store_same c a v he]
  simp only [bit] at *
  simp [hv, hw, hi]

/-! ## Vectors (R54) -/

theorem Chip.message_out (c : Chip) (fv : Nat × Nat) :
    (c.message fv).out = c.out ++ if c.dma.masked.contains (128 * fv.1 + fv.2) then [] else [.msix fv.1 fv.2] := by
  unfold Chip.message; split <;> simp

theorem Chip.vecRearm_out (c : Chip) (v : Word) : (c.vecRearm v).out = c.out ++
    (if c.vecPending (fld v 18 16, fld v 6 0) ∧ ¬ c.dma.masked.contains (128 * fld v 18 16 + fld v 6 0) then
      [.msix (fld v 18 16) (fld v 6 0)] else []) := by
  unfold Chip.vecRearm
  by_cases hpend : c.vecPending (fld v 18 16, fld v 6 0) = true
  · simp only [hpend, if_true, Chip.message_out, true_and, ite_not]
  · simp [hpend]

theorem Chip.Calm.vecRearm {c : Chip} (h : c.Calm) (v : Word) : (c.vecRearm v).Calm := by
  unfold Chip.vecRearm
  simp only []
  split
  · exact h.message _
  · exact h

/-! ## REG_WRITE -/

section Write
variable {s : State} {a : Agent} {off : Nat} {row : Reg.Row} (ha : Active s) (hm : MayWrite s a (off / 65536))
  (hp : plainPage (off / 65536) = true) (ho : 0x100 ≤ off % 65536) (hr : Reg.rowAt off = some row)
include ha hm hp ho hr

theorem regWrite_ordinary_completes (v : Word) (he : row.rwe = 0) : Completes (.regWrite a off 15 v) s fun t => OnlyChip s t ∧
    t.chip.rd off = ((s.chip.rd off &&& ~~~ wd row.rw) ||| (v &&& wd row.rw)) &&& ~~~ (v &&& wd row.w1c) := by
  obtain ⟨k, hk⟩ := plainPage_isSome hp
  obtain ⟨c, hw, hc, hrd⟩ := State.regWrite_plain v ha hm hp ho hk hr (.inl he)
  have hpl := plainPage_place hp
  refine .of_calm ha (congrArg (ran s) hw) hc ⟨onlyChip_chip s c, ?_⟩
  rw [hrd off ho (by omega), Chip.rd_store_same _ _ _ he, and_allowedBits_and k row ho v (.inl rfl),
    and_allowedBits_and k row ho v (.inr (.inl rfl))]

theorem regWrite_staged_completes (v : Word) (he : row.rwe ≠ 0) (hs : s.chip.staging = true) :
    Completes (.regWrite a off 15 v) s fun t => OnlyChip s t ∧
      t.chip.rdE (!s.chip.bankB) off = ((s.chip.rdE (!s.chip.bankB) off &&& ~~~ wd row.rwe) ||| (v &&& wd row.rwe)) ∧
      t.chip.rdE s.chip.bankB off = s.chip.rdE s.chip.bankB off := by
  obtain ⟨k, hk⟩ := plainPage_isSome hp
  obtain ⟨c, hw, hc, hrd⟩ := State.regWrite_plain v ha hm hp ho hk hr (.inr hs)
  have hpl := plainPage_place hp
  have hbank : ∀ b, c.rdE b off = (s.chip.store row off (v &&& allowedBits k row (off % 65536))).rd (bankKey b off) := fun b =>
    hrd _ (by unfold bankKey; split <;> omega) (by unfold bankKey; split <;> omega)
  refine .of_calm ha (congrArg (ran s) hw) hc ⟨onlyChip_chip s c, ?_, ?_⟩
  · rw [hbank, Chip.store_staging _ _ he hs, Chip.rd_wr_same, and_allowedBits_and k row ho v (.inr (.inr rfl))]
  · rw [hbank, Chip.store_staging _ _ he hs, Chip.rd_wr_ne _ _ (bankKey_ne _ _)]
    rfl

theorem regWrite_partial_completes (v : Word) (be : Fin 16) (hbe : be.val ≠ 15) : Completes (.regWrite a off be v) s fun t =>
    OnlyChip s t ∧ t.chip.rd off = s.chip.rd off ∧ t.chip.rdB (Reg.INT_CAUSE (off / 65536)) 28 = true := by
  obtain ⟨k, hk⟩ := plainPage_isSome hp
  have hpl := plainPage_place hp
  refine .of_calm ha (congrArg (ran s) (State.regWrite_plain_partial v ha hm hp ho hk hr hbe)) (ha.calm.accErr _ _ _)
    ⟨onlyChip_chip s _, ?_, ?_⟩
  · exact Chip.rd_accErr_page _ _ _ _ ho (by omega)
  · exact Chip.rdB_accErr_cause _ _ _ _ (by simp [hk])

end Write

/-! ## RC_READ, COUNTER_LO_READ -/

section Read
variable {s : State} {a : Agent} {off : Nat} {row : Reg.Row} {k : Reg.Kind} (ha : Active s) (hm : MayRead s a (off / 65536))
  (hp : plainPage (off / 65536) = true) (ho : 0x100 ≤ off % 65536) (hr : Reg.rowAt off = some row)
  (hk : Reg.kindOf (off / 65536) = some k)
include ha hm hp ho hr hk

theorem rcRead_completes (hh : row.half = 0) : Completes (.rcRead a off) s fun t => OnlyChip s t ∧
    t.chip.rd off = s.chip.rd off &&& ~~~ wd row.rc ∧ t.chip.out = s.chip.out ++ [.read a.num off (s.peek k row off)] := by
  have hg := State.get_eq ha hm hk hr
    ((State.readReg_plain s a.num row hp hk).trans (congrArg readOk (State.plainRead_single s a.num k off hh)))
  refine .of_calm ha (congrArg (ran s) hg) ((ha.calm.afterRead row (calmKey_plain hp ho)).emit _) ⟨onlyChip_chip s _, ?_, ?_⟩
  · rw [Chip.rd_emit, Chip.rd_afterRead]
  · rw [Chip.emit_out, Chip.afterRead_out]

theorem counterLoRead_completes (hh : row.half = 1) : Completes (.counterLoRead a off) s fun t => OnlyChip s t ∧
    t.chip.rd off = 0 ∧ t.chip.rd (off + 4) = 0 ∧ mget t.chip.shadow (shadowKey a.num off) = some (s.chip.rd (off + 4)) ∧
    t.chip.out = s.chip.out ++ [.read a.num off (s.peek k row off)] := by
  have hrc := Reg.rc_of_half row (Reg.rowAt_mem hk ho hr) hh
  have hg := State.get_eq ha hm hk hr
    ((State.readReg_plain s a.num row hp hk).trans (congrArg readOk (State.plainRead_low s a.num k off hh hrc)))
  have hcalm := ha.calm.afterPairRead a.num (calmKey_plain hp ho) (calmKey_plain_add_four hp ho)
  refine .of_calm ha (congrArg (ran s) hg) (hcalm.emit _) ⟨onlyChip_chip s _, ?_, ?_, ?_, rfl⟩
  · rw [Chip.rd_emit, Chip.afterPairRead, Chip.rd_wr_ne _ _ (by omega), Chip.rd_wr_same]
  · rw [Chip.rd_emit, Chip.afterPairRead, Chip.rd_wr_same]
  · simp [Chip.afterPairRead]

end Read

/-! ## INT_CAUSE, INT_FORCE, ERR_ADDR -/

section Header
variable {s : State} {a : Agent} {pg : Nat} {k : Reg.Kind} (ha : Active s) (hm : MayWrite s a pg) (hk : Reg.kindOf pg = some k)
include ha hm hk

theorem intCauseClear_completes {v : Word} (hv : v &&& ~~~ wd (0xF0000000 + Reg.evMask k + Reg.levelMask k) = 0) :
    Completes (.intCauseClear a pg v) s fun t => OnlyChip s t ∧
      t.chip.rd (Reg.INT_CAUSE pg) = s.chip.rd (Reg.INT_CAUSE pg) &&& ~~~ v := by
  have hw := State.put_header (v := v) ha hm hk (off := 0x10) (by decide) rfl rfl hv
  rw [State.headerWrite, Reg.at_mod (by decide), Reg.at_div (by decide)] at hw
  have hcalm := ha.calm.wr (calmKey_header pg (off := 0x10) (by decide) (by decide)) (s.chip.rd (Reg.at_ pg 0x10) &&& ~~~ v)
  refine .of_calm ha (congrArg (ran s) hw) (hcalm.firstSettle pg) ⟨onlyChip_chip s _, ?_⟩
  exact (Chip.rd_firstSettle_cause _ pg).trans (Chip.rd_wr_same _ _ _)

theorem intForce_completes {v : Word} (hv : v &&& ~~~ wd (0xF0000000 + Reg.evMask k + Reg.levelMask k) = 0) :
    Completes (.intForce a pg v) s fun t => OnlyChip s t ∧
      t.chip.rd (Reg.INT_CAUSE pg) = s.chip.rd (Reg.INT_CAUSE pg) ||| (v &&& wd (0xF0000000 + Reg.evMask k)) := by
  have hw := State.put_header (v := v) ha hm hk (off := 0x18) (by decide) rfl rfl hv
  rw [State.headerWrite, Reg.at_mod (by decide), Reg.at_div (by decide)] at hw
  exact .of_calm ha (congrArg (ran s) hw) (ha.calm.raiseM pg _)
    ⟨onlyChip_chip s _, Chip.cause_raiseM _ pg _ (Reg.INT_CAUSE_ne_INT_FIRST pg)⟩

theorem errAddrRearm_completes : Completes (.errAddrRearm a pg) s fun t => OnlyChip s t ∧ t.chip.rdB (Reg.ERR_ADDR pg) 31 = false := by
  have hw := State.put_header (v := 0x80000000) ha hm hk (off := 0x28) (by decide) rfl rfl
    (by rw [allowedBits, if_neg (by decide)]; decide)
  rw [State.headerWrite, Reg.at_mod (by decide)] at hw
  have hkey : ∀ b, calmKey (bankKey b (Reg.at_ pg 0x28)) := by
    intro b
    simp only [bankKey, calmKey, Reg.life_FRZ_CTL, Reg.at_, Reg.pg_life]
    split <;> omega
  exact .of_calm ha (congrArg (ran s) hw) (ha.calm.store _ _ hkey)
    ⟨onlyChip_chip s _, Chip.rdB_store_w1c _ _ rfl (by decide) (by decide) (by decide)⟩

end Header

/-! ## ACC_INFO, VEC_REARM -/

section Chip
variable {s : State} {a : Agent} (ha : Active s) (hm : MayWrite s a 0)
include ha hm

theorem accInfoRearm_completes : Completes (.accInfoRearm a) s fun t => OnlyChip s t ∧ t.chip.rdB Reg.chip_ACC_INFO 31 = false := by
  have hw := State.put_eq (v := 0x80000000) (off := Reg.chip_ACC_INFO) ha hm rfl rfl (.inl rfl) rfl rfl
  have hkey : ∀ b, calmKey (bankKey b Reg.chip_ACC_INFO) := by unfold calmKey; decide
  refine .of_calm ha (congrArg (ran s) hw) (ha.calm.plainWrite _ _ hkey) ⟨onlyChip_chip s _, ?_⟩
  rw [Chip.rdB, Chip.rd_plainWrite_ne _ _ _ _ (by decide)]
  exact Chip.rdB_store_w1c _ _ rfl (by decide) (by decide) (by decide)

theorem vecRearm_completes {v : Word} (hv : v &&& ~~~ 0x0007007F = 0) : Completes (.vecRearm a v) s fun t => OnlyChip s t ∧
    t.chip.out = s.chip.out ++
      (if s.chip.vecPending (fld v 18 16, fld v 6 0) ∧ ¬ s.chip.dma.masked.contains (128 * fld v 18 16 + fld v 6 0) then
        [.msix (fld v 18 16) (fld v 6 0)] else []) := by
  have hw := State.put_eq (v := v) (off := Reg.chip_VEC_REARM) ha hm rfl rfl (.inl rfl) hv rfl
  exact .of_calm ha (congrArg (ran s) hw) (ha.calm.vecRearm v) ⟨onlyChip_chip s _, Chip.vecRearm_out _ v⟩

end Chip

/-- Settles O1: each clause is the completion of its command. -/
theorem registerAccessCompletes : Obligations.RegisterAccessCompletes := by
  unfold Obligations.RegisterAccessCompletes
  intro s a ha
  refine ⟨fun off v hm hp ho row hr => ⟨?_, ?_, ?_⟩, fun off hm hp ho row hr k hk => ⟨?_, ?_⟩, fun pg v hm k hk hv => ⟨?_, ?_⟩,
    fun pg hm hk => ?_, accInfoRearm_completes ha, fun v hm hv => vecRearm_completes ha hm hv⟩
  · exact regWrite_ordinary_completes ha hm hp ho hr v
  · exact regWrite_staged_completes ha hm hp ho hr v
  · exact regWrite_partial_completes ha hm hp ho hr v
  · exact fun hh _ => rcRead_completes ha hm hp ho hr hk hh
  · exact counterLoRead_completes ha hm hp ho hr hk
  · exact intCauseClear_completes ha hm hk hv
  · exact intForce_completes ha hm hk hv
  · obtain ⟨k, hk⟩ := Option.isSome_iff_exists.mp hk
    exact errAddrRearm_completes ha hm hk

end Sys2Proof.Machine
end

section
/-!
SUPPORT. Words that a command register takes: their fields, their reserved bits, and one bit of a field written.
-/
namespace Sys2Proof.Machine

/-! ## One bit written -/

theorem bit_setFld_one (w : Word) {i : Nat} (hi : i < 32) : bit (setFld w i i 1) i = true := by
  simp only [bit, setFld, BitVec.getLsbD_or, BitVec.getLsbD_ofNat, hi, decide_true, Bool.true_and]
  simp

theorem bit_setFld_zero (w : Word) {i : Nat} (hi : i < 32) : bit (setFld w i i 0) i = false := by
  simp only [bit, setFld, fldMask, BitVec.getLsbD_or, BitVec.getLsbD_and, BitVec.getLsbD_not, BitVec.getLsbD_ofNat, hi, decide_true,
    Bool.true_and]
  simp

/-! ## Fields and reserved bits -/

theorem wd_toNat {n : Nat} (h : n < 4294967296) : (wd n).toNat = n := by
  simp only [wd, BitVec.toNat_ofNat]; omega

theorem wd_and_not_eq_zero {n m : Nat} (h : ∀ i, n.testBit i = true → m.testBit i = true) : wd n &&& ~~~ wd m = 0 := by
  refine BitVec.eq_of_getLsbD_eq fun i hi => ?_
  simp only [wd, BitVec.getLsbD_and, BitVec.getLsbD_not, BitVec.getLsbD_ofNat, hi, decide_true, Bool.true_and]
  cases hn : n.testBit i with
  | false => simp
  | true => simp [h i hn]

/-- Two numbers side by side have their bits where two wider masks side by side have ones. -/
theorem testBit_add_of_masks {s x y p q : Nat} (hy : y < 2 ^ s) (hq : q < 2 ^ s) (hx : ∀ i, x.testBit i = true → p.testBit i = true)
    (hyq : ∀ i, y.testBit i = true → q.testBit i = true) (i : Nat) :
    (2 ^ s * x + y).testBit i = true → (2 ^ s * p + q).testBit i = true := by
  rw [Nat.testBit_two_pow_mul_add _ hy, Nat.testBit_two_pow_mul_add _ hq]
  split
  · exact hyq i
  · exact hx _

theorem testBit_low_mask {x j : Nat} (h : x < 2 ^ j) (i : Nat) (hi : x.testBit i = true) : (2 ^ j - 1).testBit i = true := by
  rw [Nat.testBit_two_pow_sub_one, decide_eq_true_eq]
  refine Nat.lt_of_not_le fun hji => ?_
  rw [Nat.testBit_lt_two_pow (Nat.lt_of_lt_of_le h (Nat.pow_le_pow_right (by decide) hji))] at hi
  cases hi

theorem goWord_toNat {op arg : Nat} (ho : op < 16) (ha : arg < 0x1000000) :
    (goWord op arg).toNat = 0x80000000 + op * 0x1000000 + arg := wd_toNat (by omega)

theorem bit_goWord {op arg : Nat} (ho : op < 16) (ha : arg < 0x1000000) : bit (goWord op arg) 31 = true := by
  rw [bit, BitVec.getLsbD, goWord_toNat ho ha, Nat.testBit_eq_decide_div_mod_eq, decide_eq_true_eq]
  omega

theorem fld_goWord_op {op arg : Nat} (ho : op < 16) (ha : arg < 0x1000000) : fld (goWord op arg) 27 24 = op := by
  simp only [fld, goWord_toNat ho ha, Nat.shiftRight_eq_div_pow]
  omega

theorem fld_goWord_arg {op arg hi : Nat} (ho : op < 16) (hh : hi < 24) (ha : arg < 2 ^ (hi + 1)) : fld (goWord op arg) hi 0 = arg := by
  have h24 : 2 ^ (hi + 1) ∣ 2 ^ 24 := Nat.pow_dvd_pow 2 (by omega)
  have hlt : arg < 0x1000000 := Nat.lt_of_lt_of_le ha (Nat.le_of_dvd (by decide) h24)
  obtain ⟨n, hn⟩ := h24
  have hsum : 0x80000000 + op * 0x1000000 + arg = arg + 2 ^ (hi + 1) * (n * (128 + op)) := by
    rw [← Nat.mul_assoc, ← hn]; omega
  simp only [fld, goWord_toNat ho hlt, hsum, Nat.shiftRight_zero, Nat.sub_zero, Nat.add_mul_mod_self_left, Nat.mod_eq_of_lt ha]

/-- A GO word sets GO, OP and an argument of `j` bits. -/
theorem goWord_no_rsv {op arg j : Nat} (ho : op < 16) (hj : j < 24) (ha : arg < 2 ^ j) :
    goWord op arg &&& ~~~ wd (2 ^ 24 * 0x8F + (2 ^ j - 1)) = 0 := by
  have hpow : 2 ^ j < 2 ^ 24 := Nat.pow_lt_pow_right (by decide) hj
  have hop : ∀ op < 16, (128 + op) ||| 0x8F = 0x8F := by decide
  have hsum : 0x80000000 + op * 0x1000000 + arg = 2 ^ 24 * (128 + op) + arg := by omega
  rw [goWord, hsum]
  refine wd_and_not_eq_zero (testBit_add_of_masks (by omega) (by omega) (fun i hi => ?_) (testBit_low_mask ha))
  rw [← hop op ho, Nat.testBit_or, hi, Bool.true_or]

end Sys2Proof.Machine
end

section
/-!
O11: the PFC watchdog (R271), QCMD (R275) and MC_CMD (R278).
-/
namespace Sys2Proof.Machine

/-! ## What raises and pending bits leave -/

theorem Chip.onlyRegs.sw_eq {c d : Chip} (h : c.onlyRegs d) : d.sw = c.sw := by rw [show d = _ from h]
theorem Chip.onlyRegs.ep_eq {c d : Chip} (h : c.onlyRegs d) : d.ep = c.ep := by rw [show d = _ from h]

@[simp] theorem Chip.raise_sw (c : Chip) (pg i : Nat) : (c.raise pg i).sw = c.sw := (Chip.onlyRegs_raise c pg i).sw_eq
@[simp] theorem Chip.raise_ep (c : Chip) (pg i : Nat) : (c.raise pg i).ep = c.ep := (Chip.onlyRegs_raise c pg i).ep_eq

/-- A pending bit changes its own register and INT_FIRST of its page. -/
theorem Chip.rd_pend (c : Chip) {pg x : Nat} (a : Nat) (m : Word) (i : Nat) (h : x ≠ Reg.INT_FIRST pg) :
    (c.pend pg a m i).rd x = (c.orW a m).rd x := by
  unfold Chip.pend
  rw [Chip.rd_congr (Chip.settle_regs _ _ _)]
  split
  · rfl
  · split
    · exact Chip.rd_firstCause_ne _ _ h
    · rfl

theorem Chip.anySet_of_ne_zero (c : Chip) {a n j : Nat} (hj : j < n) (h : c.rd (a + 4 * j) ≠ 0) : c.anySet a n = true := by
  induction n generalizing a j with
  | zero => omega
  | succ n ih =>
    rw [Chip.anySet, Bool.or_eq_true, bne_iff_ne]
    cases j with
    | zero => exact .inl h
    | succ j =>
      refine .inr (ih (a := a + 4) (j := j) (by omega) ?_)
      rwa [show a + 4 + 4 * j = a + 4 * (j + 1) by omega]

/-- A storm bit that waits shows in INT_CAUSE of the switch page (R276). -/
theorem Chip.bit_cause_storm (c : Chip) {j : Nat} (hj : j < 36) (h : c.rd (Reg.switch_WD_PEND j) ≠ 0) :
    bit (c.cause 0x220) 26 = true := by
  have hset : c.anySet (Reg.switch_WD_PEND 0) 36 = true :=
    c.anySet_of_ne_zero hj (by rwa [show Reg.switch_WD_PEND 0 + 4 * j = Reg.switch_WD_PEND j from (Nat.add_assoc _ _ _)])
  have hl : c.levelCause 0x220 =
      (if c.anySet (Reg.switch_FLUSH_DONE_PEND 0) 36 then oneBit 27 else 0) |||
        (if c.anySet (Reg.switch_WD_PEND 0) 36 then oneBit 26 else 0) := rfl
  have hbit : bit (oneBit 26) 26 = true := by decide
  rw [Chip.cause, hl, hset, if_pos rfl, bit_or, bit_or, hbit, Bool.or_true, Bool.or_true]

theorem oneBit_ne_zero {i : Nat} (h : i < 32) : oneBit i ≠ 0 := by
  have table : ∀ i < 32, oneBit i ≠ 0 := by decide
  exact table i h

theorem calmKey_switch {off : Nat} (h : off < 65536) (h8 : off ≠ 8) : calmKey (Reg.at_ Reg.pg_switch off) :=
  calmKey_at h h8 (by decide) (by decide)

theorem calmKey_mcast {off : Nat} (h : off < 65536) (h8 : off ≠ 8) : calmKey (Reg.at_ Reg.pg_mcast off) :=
  calmKey_at h h8 (by decide) (by decide)

/-! ## The PFC watchdog (R271) -/

/-- What ends a storm: the bit of PSTAT clears, and WD_RESTORE_EV. -/
theorem Chip.wdReturn_eq (c : Chip) (lp : Fin 1152) (k : Fin 3) (hst : c.rdB (Reg.switch_PSTAT lp) (16 + k) = true) :
    c.wdReturn lp k = (c.wrF (Reg.switch_PSTAT lp) (16 + k) (16 + k) 0).raise 0x220 25 := by
  have hlt : ¬ 1152 ≤ lp.val := Nat.not_le.mpr lp.isLt
  have hk : ¬ 3 ≤ k.val := Nat.not_le.mpr k.isLt
  simp only [Chip.wdReturn, hst, hlt, hk, Bool.not_true, Bool.false_eq_true, or_self, if_false]

theorem Chip.rdB_wdReturn (c : Chip) (lp : Fin 1152) (k : Fin 3) (hst : c.rdB (Reg.switch_PSTAT lp) (16 + k) = true) :
    (c.wdReturn lp k).rdB (Reg.switch_PSTAT lp) (16 + k) = false := by
  rw [Chip.wdReturn_eq c lp k hst, Chip.rdB,
    Chip.rd_raise_ne _ _ (by simp only [Reg.switch_PSTAT, Reg.INT_CAUSE, Reg.at_, Reg.pg_switch]; omega)
      (by simp only [Reg.switch_PSTAT, Reg.INT_FIRST, Reg.at_, Reg.pg_switch]; omega), Chip.rd_wrF_same]
  exact bit_setFld_zero _ (by omega)

theorem Chip.Calm.wdReturn {c : Chip} (h : c.Calm) (lp : Fin 1152) (k : Fin 3) (hst : c.rdB (Reg.switch_PSTAT lp) (16 + k) = true) :
    (c.wdReturn lp k).Calm := by
  rw [Chip.wdReturn_eq c lp k hst]
  exact (h.wr (calmKey_switch (by omega) (by omega)) _).raise _ _

section Watchdog
variable {s : State} (ha : Active s) (lp : Fin 1152) (k : Fin 3)
include ha

theorem wdStorm_completes (hcfg : s.chip.rdB (Reg.switch_PCFG lp) 1 = true) (hacts : s.chip.slotActs lp k = true)
    (hpaused : s.chip.rxPaused lp (s.chip.slotClass lp k) = true) (hnot : s.chip.rdB (Reg.switch_PSTAT lp) (16 + k) = false)
    (hqueued : ∃ kc ∈ s.chip.sw.copies, kc.2.lp = lp ∧ kc.2.pos = .queued ∧ cClass kc.2.carry % 8 = s.chip.slotClass lp k) :
    Completes (.wdStorm lp k) s fun t => OnlyChip s t ∧ t.chip.rdB (Reg.switch_PSTAT lp) (16 + k) = true ∧
      t.chip.rd Reg.switch_WD_STORM_CNT = satAdd (s.chip.rd Reg.switch_WD_STORM_CNT) 1 ∧ bit (t.chip.cause 0x220) 26 = true := by
  have hq : (s.chip.sw.copies.any fun kc => kc.2.lp == lp.val && kc.2.pos == .queued &&
      cClass kc.2.carry % 8 == s.chip.slotClass lp k) = true := by
    obtain ⟨kc, hmem, hlp, hpos, hcls⟩ := hqueued
    exact List.any_eq_true.mpr ⟨kc, hmem, by simp [hlp, hpos, hcls]⟩
  have hlt : ¬ 1152 ≤ lp.val := Nat.not_le.mpr lp.isLt
  have hk : ¬ 3 ≤ k.val := Nat.not_le.mpr k.isLt
  have hstorm : s.chip.wdStorm lp k = ((s.chip.wrF (Reg.switch_PSTAT lp) (16 + k) (16 + k) 1).count Reg.switch_WD_STORM_CNT 1).pend
      0x220 (Reg.switch_WD_PEND (lp / 32)) (oneBit (lp % 32)) 26 := by
    simp only [Chip.wdStorm, hq, hcfg, hacts, hpaused, hnot, hlt, hk, Bool.not_true, Bool.false_eq_true, or_self, if_false]
  have hcalm : (s.chip.wdStorm lp k).Calm := by
    rw [hstorm]
    exact ((ha.calm.wr (calmKey_switch (by omega) (by omega)) _).wr (calmKey_switch (by decide) (by decide)) _).pend _
      (calmKey_switch (by omega) (by omega)) _ _
  refine .of_calm ha (congrArg (ran s) (State.onCore_chip _ ha.1)) hcalm ⟨onlyChip_chip s _, ?_, ?_, ?_⟩
  all_goals simp only [hstorm]
  · rw [Chip.rdB, Chip.rd_pend _ _ _ _ (by simp only [Reg.switch_PSTAT, Reg.INT_FIRST, Reg.at_, Reg.pg_switch]; omega),
      Chip.rd_orW_ne _ _ (by simp only [Reg.switch_PSTAT, Reg.switch_WD_PEND, Reg.at_]; omega),
      Chip.rd_count_ne _ _ (by simp only [Reg.switch_PSTAT, Reg.switch_WD_STORM_CNT, Reg.at_]; omega), Chip.rd_wrF_same]
    exact bit_setFld_one _ (by omega)
  · rw [Chip.rd_pend _ _ _ _ (by decide), Chip.rd_orW_ne _ _ (by simp only [Reg.switch_WD_STORM_CNT, Reg.switch_WD_PEND, Reg.at_]; omega),
      Chip.rd_count_same, Chip.rd_wrF_ne _ _ _ _ (by simp only [Reg.switch_PSTAT, Reg.switch_WD_STORM_CNT, Reg.at_]; omega)]
  · refine Chip.bit_cause_storm _ (j := lp / 32) (by omega) ?_
    rw [Chip.rd_pend _ _ _ _ (by simp only [Reg.switch_WD_PEND, Reg.INT_FIRST, Reg.at_, Reg.pg_switch]; omega), Chip.rd_orW_same]
    exact fun h => oneBit_ne_zero (Nat.mod_lt _ (by decide)) (BitVec.or_eq_zero_iff.mp h).2

theorem wdRestore_completes (hst : s.chip.rdB (Reg.switch_PSTAT lp) (16 + k) = true) : Completes (.wdRestore lp k) s fun t =>
    OnlyChip s t ∧ t.chip.rdB (Reg.switch_PSTAT lp) (16 + k) = decide (s.chip.rdF Reg.switch_WD_TIME 31 16 = 0) := by
  have hon := State.onCore_chip (fun c => c.wdRestore lp k) ha.1
  by_cases htime : s.chip.rdF Reg.switch_WD_TIME 31 16 = 0
  · have heq : s.chip.wdRestore lp k = s.chip := if_pos htime
    rw [heq] at hon
    exact .of_calm ha (congrArg (ran s) hon) ha.calm ⟨onlyChip_chip s _, by simp [hst, htime]⟩
  · have heq : s.chip.wdRestore lp k = s.chip.wdReturn lp k := if_neg htime
    rw [heq] at hon
    exact .of_calm ha (congrArg (ran s) hon) (ha.calm.wdReturn lp k hst)
      ⟨onlyChip_chip s _, by simp [Chip.rdB_wdReturn s.chip lp k hst, htime]⟩

theorem wdClr_completes {a : Agent} (hm : MayWrite s a 0x220) (hst : s.chip.rdB (Reg.switch_PSTAT lp) (16 + k) = true) :
    Completes (.wdClr a lp k) s fun t => OnlyChip s t ∧ t.chip.rdB (Reg.switch_PSTAT lp) (16 + k) = false ∧
      t.chip.rdB (Reg.INT_CAUSE 0x220) 25 = true := by
  have hn : (wd (k * 65536 + lp)).toNat = k * 65536 + lp := wd_toNat (by omega)
  have hlp : fld (wd (k * 65536 + lp)) 10 0 = lp := by simp only [fld, hn]; omega
  have hk : fld (wd (k * 65536 + lp)) 17 16 = k := by simp only [fld, hn, Nat.shiftRight_eq_div_pow]; omega
  have hrsv : wd (k * 65536 + lp) &&& ~~~ wd 0x307FF = 0 := by
    refine wd_and_not_eq_zero fun i => ?_
    have hmask := testBit_add_of_masks (s := 16) (x := k) (y := lp) (p := 2 ^ 2 - 1) (q := 2 ^ 11 - 1) (by omega) (by decide)
      (testBit_low_mask (by omega)) (testBit_low_mask (by omega)) i
    rwa [Nat.mul_comm _ k.val] at hmask
  have hput := State.put_eq (off := Reg.switch_WD_CLR) ha hm rfl rfl (.inl rfl) hrsv rfl
  rw [show s.chip.wdClr (wd (k * 65536 + lp)) = s.chip.wdReturn lp k by rw [Chip.wdClr, hlp, hk]] at hput
  refine .of_calm ha (congrArg (ran s) hput) (ha.calm.wdReturn lp k hst) ⟨onlyChip_chip s _, Chip.rdB_wdReturn s.chip lp k hst, ?_⟩
  simp only [Chip.wdReturn_eq s.chip lp k hst]
  exact Chip.rdB_cause_raise _ 0x220 (i := 25) (by decide)

end Watchdog

/-! ## QCMD (R275) -/

/-- The end of a queue command writes QSTATUS, and raises its cause. -/
theorem Chip.rd_qDone_ne (c : Chip) (st : Nat) {a : Nat} (h : a ∉ [Reg.switch_QSTATUS, Reg.INT_CAUSE 0x220, Reg.INT_FIRST 0x220]) :
    (c.qDone st).rd a = c.rd a := by
  simp only [List.mem_cons, List.not_mem_nil, or_false, not_or] at h
  obtain ⟨hs, hc, hf⟩ := h
  rw [Chip.qDone, Chip.rd_raise_ne _ _ hc hf, Chip.rd_wr_ne _ _ hs]

@[simp] theorem Chip.rd_qDone_status (c : Chip) (st : Nat) : (c.qDone st).rd Reg.switch_QSTATUS = wd st := by
  rw [Chip.qDone, Chip.rd_raise_ne _ _ (by decide) (by decide), Chip.rd_wr_same]

@[simp] theorem Chip.qDone_sw (c : Chip) (st : Nat) : (c.qDone st).sw = c.sw := by rw [Chip.qDone, Chip.raise_sw, Chip.wr_sw]

theorem Chip.queue_congr {c d : Chip} (h : c.sw = d.sw) (q : Nat) : c.queue q = d.queue q := by rw [Chip.queue, Chip.queue, h]

@[simp] theorem Chip.queue_qDone (c : Chip) (st q : Nat) : (c.qDone st).queue q = c.queue q := Chip.queue_congr (c.qDone_sw st) q

@[simp] theorem Chip.queue_onQueue (c : Chip) (q : Nat) (f : Queue → Queue) : (c.onQueue q f).queue q = f (c.queue q) :=
  mrd_mset_same ({} : Queue) c.sw.queues q (f (c.queue q))

theorem Chip.Calm.qDone {c : Chip} (h : c.Calm) (st : Nat) : (c.qDone st).Calm :=
  (h.wr (a := Reg.switch_QSTATUS) (calmKey_switch (by decide) (by decide)) _).raise _ _

theorem Chip.Calm.qShow {c : Chip} (h : c.Calm) (q : Nat) : (c.qShow q).Calm :=
  (((h.wr (a := Reg.switch_QDATA0) (calmKey_switch (by decide) (by decide)) _).wr (a := Reg.switch_QDATA1)
    (calmKey_switch (by decide) (by decide)) _).wr (a := Reg.switch_QDATA2) (calmKey_switch (by decide) (by decide)) _).wr
    (a := Reg.switch_QDATA3) (calmKey_switch (by decide) (by decide)) _

theorem Chip.Calm.onQueue {c : Chip} (h : c.Calm) (q : Nat) (f : Queue → Queue) : (c.onQueue q f).Calm := h.congr rfl rfl rfl

/-- QDATA as `qShow` loads it. -/
theorem Chip.rd_qShow (c : Chip) (q : Nat) : (c.qShow q).rd Reg.switch_QDATA0 = wd (c.queue q).qmax ∧
    (c.qShow q).rd Reg.switch_QDATA1 = wd (c.qDepth q % 16777216) ∧
    (c.qShow q).rd Reg.switch_QDATA2 = wd (c.queue q).entries.length ∧ (c.qShow q).rd Reg.switch_QDATA3 = wd (c.queue q).drops := by
  refine ⟨?_, ?_, ?_, ?_⟩ <;> simp (disch := decide) only [Chip.qShow, Chip.rd_wr_ne, Chip.rd_wr_same]

/-- The chip as a queue command finds it: QCMD holds the command without GO. -/
def Chip.qTaken (c : Chip) (op q : Nat) : Chip := c.wr Reg.switch_QCMD (goWord op q &&& 0x0F007FFF)

theorem Chip.Calm.qTaken {c : Chip} (h : c.Calm) (op q : Nat) : (c.qTaken op q).Calm :=
  h.wr (a := Reg.switch_QCMD) (calmKey_switch (by decide) (by decide)) _

/-- QCMD with GO and a legal operation, by operation. -/
theorem Chip.qCmd_goWord (c : Chip) (q : Fin 23056) {op : Nat} (h1 : 1 ≤ op) (h3 : op ≤ 3) : c.qCmd (goWord op q) =
    if op = 2 ∧ 0x800000 < c.rdF Reg.switch_QDATA0 23 0 then (c.qTaken op q).qDone stBadArg
    else if op = 1 then ((c.qTaken op q).qShow q).qDone stOk
    else if op = 2 then ((c.qTaken op q).onQueue q fun x => { x with qmax := c.rdF Reg.switch_QDATA0 23 0 }).qDone stOk
    else (((c.qTaken op q).qShow q).onQueue q fun x => { x with drops := 0 }).qDone stOk := by
  have hq : ¬ 23055 < q.val := by omega
  have hdata : (c.wr Reg.switch_QCMD (goWord op q &&& 0x0F007FFF)).rdF Reg.switch_QDATA0 23 0 = c.rdF Reg.switch_QDATA0 23 0 := by
    rw [Chip.rdF, Chip.rd_wr_ne _ _ (by decide), Chip.rdF]
  unfold Chip.qCmd Chip.qTaken
  simp only [bit_goWord (op := op) (arg := q) (by omega) (by omega), fld_goWord_op (op := op) (arg := q) (by omega) (by omega),
    fld_goWord_arg (op := op) (arg := q) (hi := 14) (by omega) (by decide) (by omega), hdata, hq, Nat.not_lt.mpr h1,
    Nat.not_lt.mpr h3, Bool.not_true, Bool.false_eq_true, if_false, false_or]

section Queue
variable {s : State} (ha : Active s) {a : Agent} (hm : MayWrite s a 0x220) (q : Fin 23056)
include ha hm

theorem put_qCmd {op : Nat} (ho : op < 16) :
    s.put a Reg.switch_QCMD (goWord op q) = { s with chip := s.chip.qCmd (goWord op q) } :=
  State.put_eq (off := Reg.switch_QCMD) ha hm rfl rfl (.inl rfl) (goWord_no_rsv (j := 15) ho (by decide) (by omega)) rfl

theorem qcmdRead_completes : Completes (.qcmdRead a q) s fun t => OnlyChip s t ∧ t.chip.sw = s.chip.sw ∧
    t.chip.rd Reg.switch_QSTATUS = wd stOk ∧ t.chip.rd Reg.switch_QDATA0 = wd (s.chip.queue q).qmax ∧
    t.chip.rd Reg.switch_QDATA1 = wd (s.chip.qDepth q % 16777216) ∧
    t.chip.rd Reg.switch_QDATA2 = wd (s.chip.queue q).entries.length ∧ t.chip.rd Reg.switch_QDATA3 = wd (s.chip.queue q).drops := by
  have hput := put_qCmd ha hm q (op := 1) (by decide)
  rw [Chip.qCmd_goWord s.chip q (by decide) (by decide), if_neg (by omega), if_pos rfl] at hput
  obtain ⟨h0, h1, h2, h3⟩ := Chip.rd_qShow (s.chip.qTaken 1 q) q
  refine .of_calm ha (congrArg (ran s) hput) (((ha.calm.qTaken 1 q).qShow q).qDone _)
    ⟨onlyChip_chip s _, Chip.qDone_sw _ _, Chip.rd_qDone_status _ _, ?_, ?_, ?_, ?_⟩
  · exact (Chip.rd_qDone_ne _ _ (by decide)).trans h0
  · exact (Chip.rd_qDone_ne _ _ (by decide)).trans h1
  · exact (Chip.rd_qDone_ne _ _ (by decide)).trans h2
  · exact (Chip.rd_qDone_ne _ _ (by decide)).trans h3

theorem qcmdReadClear_completes : Completes (.qcmdReadClear a q) s fun t => OnlyChip s t ∧ t.chip.rd Reg.switch_QSTATUS = wd stOk ∧
    t.chip.rd Reg.switch_QDATA3 = wd (s.chip.queue q).drops ∧ (t.chip.queue q).drops = 0 ∧
    (t.chip.queue q).entries = (s.chip.queue q).entries ∧ (t.chip.queue q).qmax = (s.chip.queue q).qmax := by
  have hput := put_qCmd ha hm q (op := 3) (by decide)
  rw [Chip.qCmd_goWord s.chip q (by decide) (by decide), if_neg (by omega), if_neg (by decide), if_neg (by decide)] at hput
  obtain ⟨-, -, -, h3⟩ := Chip.rd_qShow (s.chip.qTaken 3 q) q
  have hq := (Chip.queue_qDone _ stOk q).trans (((s.chip.qTaken 3 q).qShow q).queue_onQueue q fun x => { x with drops := 0 })
  exact .of_calm ha (congrArg (ran s) hput) ((((ha.calm.qTaken 3 q).qShow q).onQueue q _).qDone _)
    ⟨onlyChip_chip s _, Chip.rd_qDone_status _ _, (Chip.rd_qDone_ne _ _ (by decide)).trans h3, congrArg Queue.drops hq,
      (congrArg Queue.entries hq).trans rfl, (congrArg Queue.qmax hq).trans rfl⟩

theorem qcmdWrite_completes : Completes (.qcmdWrite a q) s fun t => OnlyChip s t ∧
    (t.chip.queue q).entries = (s.chip.queue q).entries ∧
    if s.chip.rdF Reg.switch_QDATA0 23 0 ≤ 0x800000 then
      t.chip.rd Reg.switch_QSTATUS = wd stOk ∧ (t.chip.queue q).qmax = s.chip.rdF Reg.switch_QDATA0 23 0
    else t.chip.rd Reg.switch_QSTATUS = wd stBadArg ∧ t.chip.sw = s.chip.sw := by
  have hput := put_qCmd ha hm q (op := 2) (by decide)
  rw [Chip.qCmd_goWord s.chip q (by decide) (by decide)] at hput
  by_cases hmax : s.chip.rdF Reg.switch_QDATA0 23 0 ≤ 0x800000
  · rw [if_neg (by omega), if_neg (by decide), if_pos rfl] at hput
    refine .of_calm ha (congrArg (ran s) hput) (((ha.calm.qTaken 2 q).onQueue q _).qDone _) ⟨onlyChip_chip s _, ?_, ?_⟩
    · rw [Chip.queue_qDone, Chip.queue_onQueue]; rfl
    · rw [if_pos hmax, Chip.queue_qDone, Chip.queue_onQueue]
      exact ⟨Chip.rd_qDone_status _ _, rfl⟩
  · rw [if_pos (by omega)] at hput
    refine .of_calm ha (congrArg (ran s) hput) ((ha.calm.qTaken 2 q).qDone _) ⟨onlyChip_chip s _, ?_, ?_⟩
    · rw [Chip.queue_qDone]; rfl
    · rw [if_neg hmax]
      exact ⟨Chip.rd_qDone_status _ _, Chip.qDone_sw _ _⟩

end Queue

/-! ## MC_CMD (R277, R278) -/

/-- The end of a multicast table command writes MC_STATUS, and raises its cause. -/
theorem Chip.rd_mcDone_ne (c : Chip) (st : Nat) {a : Nat} (h : a ∉ [Reg.mcast_MC_STATUS, Reg.INT_CAUSE 0x222, Reg.INT_FIRST 0x222]) :
    (c.mcDone st).rd a = c.rd a := by
  simp only [List.mem_cons, List.not_mem_nil, or_false, not_or] at h
  obtain ⟨hs, hc, hf⟩ := h
  rw [Chip.mcDone, Chip.rd_raise_ne _ _ hc hf, Chip.rd_wr_ne _ _ hs]

@[simp] theorem Chip.rd_mcDone_status (c : Chip) (st : Nat) : (c.mcDone st).rd Reg.mcast_MC_STATUS = wd st := by
  rw [Chip.mcDone, Chip.rd_raise_ne _ _ (by decide) (by decide), Chip.rd_wr_same]

@[simp] theorem Chip.mcDone_sw (c : Chip) (st : Nat) : (c.mcDone st).sw = c.sw := by rw [Chip.mcDone, Chip.raise_sw, Chip.wr_sw]

@[simp] theorem Chip.mcDone_ep (c : Chip) (st : Nat) : (c.mcDone st).ep = c.ep := by rw [Chip.mcDone, Chip.raise_ep, Chip.wr_ep]

theorem Chip.Calm.mcDone {c : Chip} (h : c.Calm) (st : Nat) : (c.mcDone st).Calm :=
  (h.wr (a := Reg.mcast_MC_STATUS) (calmKey_mcast (by decide) (by decide)) _).raise _ _

/-- The group table or the member table. -/
def Chip.mcTable (c : Chip) (group : Bool) : SMap Word := if group then c.sw.groups else c.sw.members

theorem Chip.mcTable_congr {c d : Chip} (h : c.sw = d.sw) (group : Bool) : c.mcTable group = d.mcTable group := by
  rw [Chip.mcTable, Chip.mcTable, h]

/-- A word of a table stored. -/
def Chip.mcStore (c : Chip) (group : Bool) (i : Nat) (d : Word) : Chip :=
  if group then { c with sw := { c.sw with groups := mset 0 c.sw.groups i d } }
  else { c with sw := { c.sw with members := mset 0 c.sw.members i d } }

theorem Chip.mcTable_mcStore_same (c : Chip) (group : Bool) (i : Nat) (d : Word) :
    (c.mcStore group i d).mcTable group = mset 0 (c.mcTable group) i d := by
  cases group <;> rfl

theorem Chip.mcTable_mcStore_not (c : Chip) (group : Bool) (i : Nat) (d : Word) :
    (c.mcStore group i d).mcTable (!group) = c.mcTable (!group) := by
  cases group <;> rfl

theorem Chip.mcStore_sw_congr {c d : Chip} (h : c.sw = d.sw) (group : Bool) (i : Nat) (w : Word) :
    (c.mcStore group i w).sw = (d.mcStore group i w).sw := by
  cases group <;> simp [Chip.mcStore, h]

theorem Chip.Calm.mcStore {c : Chip} (h : c.Calm) (group : Bool) (i : Nat) (d : Word) : (c.mcStore group i d).Calm := by
  cases group <;> exact h.congr rfl rfl rfl

/-- A rewrite changes the upsets alone (R480). -/
theorem Chip.rewrite_upsets (c : Chip) (pg mem word : Nat) : ∃ u, c.rewrite pg mem word = { c with upsets := u } := by
  unfold Chip.rewrite
  split
  · exact ⟨_, rfl⟩
  · split <;> exact ⟨_, rfl⟩

/-- A chip with one more record of the journal reserved (R446). -/
def Chip.jnlHold (c : Chip) : Chip := { c with ep := { c.ep with reserved := c.ep.reserved + 1 } }

theorem Chip.jnlTake_free {c : Chip} (agent : Nat) (hrep : c.rdB Reg.epoch_JNL_STAT 30 = false)
    (hfree : c.ep.journal.length + c.ep.reserved < jnlMax) : c.jnlTake agent = (stOk, true, c.jnlHold) := by
  simp [Chip.jnlTake, Chip.jnlHold, hrep, hfree]

/-- The chip as a command finds it: MC_CMD holds the command without GO. -/
def Chip.mcTaken (c : Chip) (op i : Nat) : Chip := c.wr Reg.mcast_MC_CMD (goWord op i &&& 0x0F01FFFF)

@[simp] theorem Chip.mcTaken_sw (c : Chip) (op i : Nat) : (c.mcTaken op i).sw = c.sw := Chip.wr_sw _ _ _
@[simp] theorem Chip.mcTaken_upsets (c : Chip) (op i : Nat) : (c.mcTaken op i).upsets = c.upsets := Chip.wr_upsets _ _ _
@[simp] theorem Chip.mcTaken_ep (c : Chip) (op i : Nat) : (c.mcTaken op i).ep = c.ep := Chip.wr_ep _ _ _

theorem Chip.Calm.mcTaken {c : Chip} (h : c.Calm) (op i : Nat) : (c.mcTaken op i).Calm :=
  h.wr (a := Reg.mcast_MC_CMD) (calmKey_mcast (by decide) (by decide)) _

theorem Chip.rd_mcTaken_ne (c : Chip) (op i : Nat) {a : Nat} (h : a ≠ Reg.mcast_MC_CMD) : (c.mcTaken op i).rd a = c.rd a :=
  Chip.rd_wr_ne c _ h

/-- The operations WRITE_GROUP and WRITE_MEMBER. -/
def mcWriteOp (group : Bool) : Nat := if group then 1 else 3

/-- The operations READ_GROUP and READ_MEMBER. -/
def mcReadOp (group : Bool) : Nat := if group then 2 else 4

theorem Chip.mcCmd_write (c : Chip) (k : Clk) (agent : Nat) (group : Bool) {i : Nat} (hi : i < 131072) (hf : c.faulted 0x222 = false) :
    c.mcCmd k agent (goWord (mcWriteOp group) i) = (c.mcTaken (mcWriteOp group) i).mcWrite k agent group i := by
  have hop : mcWriteOp group < 16 := by cases group <;> decide
  unfold Chip.mcCmd Chip.mcTaken
  simp only [bit_goWord hop (show i < 0x1000000 by omega), fld_goWord_op hop (show i < 0x1000000 by omega),
    fld_goWord_arg (hi := 16) hop (by decide) hi, hf, Bool.not_true, Bool.false_eq_true, if_false]
  cases group <;> rfl

theorem Chip.mcCmd_read (c : Chip) (k : Clk) (agent : Nat) (group : Bool) {i : Nat} (hi : i < 131072) (hg : group = true → i < 16384)
    (hf : c.faulted 0x222 = false) : c.mcCmd k agent (goWord (mcReadOp group) i) =
      (c.mcTaken (mcReadOp group) i).mcRead (if group then 0 else 1) i (mrd 0 (c.mcTable group) i) := by
  have hop : mcReadOp group < 16 := by cases group <;> decide
  unfold Chip.mcCmd Chip.mcTaken
  simp only [bit_goWord hop (show i < 0x1000000 by omega), fld_goWord_op hop (show i < 0x1000000 by omega),
    fld_goWord_arg (hi := 16) hop (by decide) hi, hf, Bool.not_true, Bool.false_eq_true, if_false]
  cases group with
  | true => exact if_neg (by have := hg rfl; omega)
  | false => rfl

theorem Chip.mcWrite_bad {c : Chip} (k : Clk) (agent : Nat) {group : Bool} {i : Nat} (h : mcBad group i (c.rd Reg.mcast_MC_DATA) = true) :
    c.mcWrite k agent group i = c.mcDone stBadArg := if_pos h

/-- A legal word with a free record: the word is stored and one record is journalled (R278, R445). -/
theorem Chip.mcWrite_ok {c : Chip} (k : Clk) (agent : Nat) {group : Bool} {i : Nat} (h : mcBad group i (c.rd Reg.mcast_MC_DATA) = false)
    (hrep : c.rdB Reg.epoch_JNL_STAT 30 = false) (hfree : c.ep.journal.length + c.ep.reserved < jnlMax) :
    ∃ d : Chip, c.mcWrite k agent group i = d.mcDone stOk ∧ (c.Calm → d.Calm) ∧
      d.ep.journal.length = c.ep.journal.length + 1 ∧ d.sw = (c.mcStore group i (c.rd Reg.mcast_MC_DATA)).sw := by
  obtain ⟨u, hu⟩ := (c.jnlHold.mcStore group i (c.rd Reg.mcast_MC_DATA)).rewrite_upsets 0x222 (if group then 0 else 1) i
  refine ⟨((c.jnlHold.mcStore group i (c.rd Reg.mcast_MC_DATA)).rewrite 0x222 (if group then 0 else 1) i).jnlAdd k true 6
    (if group then 1 else 3) agent true (mcImage (mrd 0 (c.jnlHold.mcTable group) i) i), ?_, fun hc => ?_, ?_, ?_⟩
  · unfold Chip.mcWrite
    simp only [h, Bool.false_eq_true, if_false, Chip.jnlTake_free agent hrep hfree]
    cases group <;> rfl
  all_goals rw [hu]
  · exact (Chip.Calm.mcStore (hc.congr (d := c.jnlHold) rfl rfl rfl) group i (c.rd Reg.mcast_MC_DATA)).congr rfl rfl rfl
  · cases group <;> exact List.length_append
  · cases group <;> rfl

theorem Chip.mcRead_clean {c : Chip} {mem i : Nat} (w : Word) (h : mget c.upsets (upKey 0x222 mem i) = none) :
    c.mcRead mem i w = (c.wr Reg.mcast_MC_DATA w).mcDone stOk := by
  simp [Chip.mcRead, Chip.ecc, h]

section Multicast
variable {s : State} (ha : Active s) {a : Agent} (hm : MayWrite s a 0x222) (hf : s.chip.faulted 0x222 = false) (ix : BitVec 17)
include ha hm

theorem put_mcCmd {op : Nat} (ho : op < 16) :
    s.put a Reg.mcast_MC_CMD (goWord op ix.toNat) = { s with chip := s.chip.mcCmd s.clk a.num (goWord op ix.toNat) } :=
  State.put_eq (off := Reg.mcast_MC_CMD) ha hm rfl rfl (.inl rfl) (goWord_no_rsv (j := 17) ho (by decide) ix.isLt) rfl

include hf

theorem mcWrite_bad_completes {group : Bool} {i : Instr}
    (hi : exec i s = ran s (s.put a Reg.mcast_MC_CMD (goWord (mcWriteOp group) ix.toNat)))
    (hbad : mcBad group ix.toNat (s.chip.rd Reg.mcast_MC_DATA) = true) :
    Completes i s fun t => OnlyChip s t ∧ t.chip.rd Reg.mcast_MC_STATUS = wd stBadArg ∧ t.chip.sw = s.chip.sw := by
  have hdata := s.chip.rd_mcTaken_ne (mcWriteOp group) ix.toNat (a := Reg.mcast_MC_DATA) (by decide)
  rw [put_mcCmd ha hm ix (by cases group <;> decide), Chip.mcCmd_write _ _ _ _ ix.isLt hf, Chip.mcWrite_bad _ _ (by rwa [hdata])] at hi
  exact .of_calm ha hi ((ha.calm.mcTaken _ _).mcDone _) ⟨onlyChip_chip s _, Chip.rd_mcDone_status _ _,
    (Chip.mcDone_sw _ _).trans (Chip.mcTaken_sw _ _ _)⟩

theorem mcWrite_ok_completes {group : Bool} {i : Instr}
    (hi : exec i s = ran s (s.put a Reg.mcast_MC_CMD (goWord (mcWriteOp group) ix.toNat)))
    (hrep : s.chip.rdB Reg.epoch_JNL_STAT 30 = false) (hfree : s.chip.ep.journal.length + s.chip.ep.reserved < jnlMax)
    (hok : mcBad group ix.toNat (s.chip.rd Reg.mcast_MC_DATA) = false) :
    Completes i s fun t => OnlyChip s t ∧ t.chip.rd Reg.mcast_MC_STATUS = wd stOk ∧
      t.chip.ep.journal.length = s.chip.ep.journal.length + 1 ∧ t.chip.mcTable (!group) = s.chip.mcTable (!group) ∧
      ∀ j : BitVec 17, mrd 0 (t.chip.mcTable group) j.toNat =
        if j = ix then s.chip.rd Reg.mcast_MC_DATA else mrd 0 (s.chip.mcTable group) j.toNat := by
  have hdata := s.chip.rd_mcTaken_ne (mcWriteOp group) ix.toNat (a := Reg.mcast_MC_DATA) (by decide)
  have hstat := s.chip.rd_mcTaken_ne (mcWriteOp group) ix.toNat (a := Reg.epoch_JNL_STAT) (by decide)
  obtain ⟨d, hw, hcalm, hjnl, hsw⟩ := Chip.mcWrite_ok (c := s.chip.mcTaken (mcWriteOp group) ix.toNat) s.clk a.num (group := group)
    (by rwa [hdata]) (by rwa [Chip.rdB, hstat]) (by rwa [Chip.mcTaken_ep])
  rw [put_mcCmd ha hm ix (by cases group <;> decide), Chip.mcCmd_write _ _ _ _ ix.isLt hf, hw] at hi
  have htable : ∀ g, (d.mcDone stOk).mcTable g = (s.chip.mcStore group ix.toNat (s.chip.rd Reg.mcast_MC_DATA)).mcTable g := by
    intro g
    refine Chip.mcTable_congr ?_ g
    rw [Chip.mcDone_sw, hsw, hdata]
    exact Chip.mcStore_sw_congr (Chip.mcTaken_sw _ _ _) _ _ _
  refine .of_calm ha hi ((hcalm (ha.calm.mcTaken _ _)).mcDone _) ⟨onlyChip_chip s _, Chip.rd_mcDone_status _ _, ?_, ?_, fun j => ?_⟩
  · simp only [Chip.mcDone_ep, hjnl, Chip.mcTaken_ep]
  · exact (htable _).trans (Chip.mcTable_mcStore_not _ _ _ _)
  · simp only [htable, Chip.mcTable_mcStore_same]
    split
    case isTrue hj => rw [hj, mrd_mset_same]
    case isFalse hj => exact mrd_mset_ne _ _ _ fun h => hj (BitVec.eq_of_toNat_eq h)

theorem mcRead_completes {group : Bool} {i : Instr}
    (hi : exec i s = ran s (s.put a Reg.mcast_MC_CMD (goWord (mcReadOp group) ix.toNat))) (hg : group = true → ix.toNat < 16384)
    (hup : mget s.chip.upsets (upKey 0x222 (if group then 0 else 1) ix.toNat) = none) :
    Completes i s fun t => OnlyChip s t ∧ t.chip.rd Reg.mcast_MC_STATUS = wd stOk ∧ t.chip.sw = s.chip.sw ∧
      t.chip.rd Reg.mcast_MC_DATA = mrd 0 (s.chip.mcTable group) ix.toNat := by
  rw [put_mcCmd ha hm ix (by cases group <;> decide), Chip.mcCmd_read _ _ _ _ ix.isLt hg hf,
    Chip.mcRead_clean (c := s.chip.mcTaken (mcReadOp group) ix.toNat) _ (by rwa [Chip.mcTaken_upsets])] at hi
  refine .of_calm ha hi (((ha.calm.mcTaken _ _).wr (a := Reg.mcast_MC_DATA) (calmKey_mcast (by decide) (by decide)) _).mcDone _)
    ⟨onlyChip_chip s _, Chip.rd_mcDone_status _ _, ?_, ?_⟩
  · exact (Chip.mcDone_sw _ _).trans ((Chip.wr_sw _ _ _).trans (Chip.mcTaken_sw _ _ _))
  · exact (Chip.rd_mcDone_ne _ _ (by decide)).trans (Chip.rd_wr_same _ _ _)

end Multicast

/-- Settles O11: each clause is the completion of its command. -/
theorem switchCommandsComplete : Obligations.SwitchCommandsComplete := by
  unfold Obligations.SwitchCommandsComplete
  intro s ha
  refine ⟨fun lp k => ⟨?_, fun hst => ⟨?_, fun a hm => ?_⟩⟩, fun a q hm => ⟨?_, ?_, ?_⟩,
    fun a ix hm hf => ⟨?_, ?_, fun hrep hfree => ⟨?_, ?_⟩, ?_, ?_⟩⟩
  · exact wdStorm_completes ha lp k
  · exact wdRestore_completes ha lp k hst
  · exact wdClr_completes ha lp k hm hst
  · exact qcmdRead_completes ha hm q
  · exact qcmdReadClear_completes ha hm q
  · exact qcmdWrite_completes ha hm q
  · exact mcWrite_bad_completes ha hm hf ix (group := true) rfl
  · exact mcWrite_bad_completes ha hm hf ix (group := false) rfl
  · exact mcWrite_ok_completes ha hm hf ix (group := true) rfl hrep hfree
  · exact mcWrite_ok_completes ha hm hf ix (group := false) rfl hrep hfree
  · exact fun hix hup => mcRead_completes ha hm hf ix (group := true) rfl (fun _ => hix) hup
  · exact fun hup => mcRead_completes ha hm hf ix (group := false) rfl nofun hup

end Sys2Proof.Machine
end

section
/-!
O14: POOL_EMPTY_GRANT (R236) may cost a frame its buffers. A granted chain asks at once for the next buffer that its bytes need
(R231), and that request may exceed the headroom of its slot (R247): the frame is dropped in the same command.
-/
namespace Sys2Proof.Machine

/-- A port frame of 3,000 bytes, all arrived, without a valid length: it takes a chain of two POOL2 buffers, charged to headroom. -/
def chainFrame : Frame :=
  { inLp := 0, bytes := List.replicate 3000 0, arrived := 3000, ended := true, pos := .queue, asked := true, headroom := some 0
    stored := 3000 }

/-- The request of that frame for its first buffer, on the pool-empty path. -/
def chainFrameRequest : BufReq := { fid := 0, pool := 2, since := 0, patient := false }

/-- The device after reset with that frame in the header queue of reach 0, and room for one POOL2 buffer (16 units) in its slot. -/
def headroomForOne : State :=
  { State.reset with chip := { State.reset.chip with
      regs := [(0x00010010, 0x02000000#32), (0x0001001C, 0x80000019#32), (Reg.port_HDRM_TH 0 0 0, 16#32), (0x02210008, 0x00000001#32)]
      frames := [(0, chainFrame)]
      nextFrame := 1
      reaches := { hq := [0] } :: List.replicate 15 {}
      buf := { waiting := [chainFrameRequest] } } }

theorem headroomForOne_active : Active headroomForOne := ⟨by decide, rfl, by decide⟩

theorem headroomForOne_ready : headroomForOne.chip.reqReady chainFrameRequest = true := by decide

/-- The grant itself succeeds: the frame holds buffer 0 of POOL2. -/
theorem headroomForOne_grant :
    mget (headroomForOne.chip.grant 0 2).frames 0 = some { chainFrame with bufs := [(2, 0)], units := 16 } := rfl

/-- Its second request is refused for want of headroom, and the frame leaves the device. -/
theorem headroomForOne_drops :
    mget ((headroomForOne.onCore fun c => c.poolGrant headroomForOne.clk 2).finish headroomForOne).chip.frames 0 = none := by decide

/-- Refutes O14: in `headroomForOne` POOL_EMPTY_GRANT of pool 2 ends with the granted frame dropped HEADROOM_EXCEEDED, so that no frame
that waited holds more buffers than before. -/
theorem not_ingressCommandsComplete : ¬ Obligations.IngressCommandsComplete := by
  unfold Obligations.IngressCommandsComplete
  intro h
  obtain ⟨-, -, -, hgrant, -, -⟩ := h headroomForOne headroomForOne_active
  obtain ⟨t, ht, -, r, hr, -, hmore⟩ := hgrant 2 ⟨chainFrameRequest, List.mem_singleton_self _, rfl, headroomForOne_ready⟩ rfl
    fun r hr => by rw [List.mem_singleton.mp hr]; rfl
  have hfid : r = chainFrameRequest := List.mem_singleton.mp hr
  have hgone : mget t.chip.frames 0 = none := by
    cases ht
    exact headroomForOne_drops
  rw [hfid, show chainFrameRequest.fid = 0 from rfl, hgone] at hmore
  cases hmore

end Sys2Proof.Machine
end

section
/-!
SUPPORT. What the ways of a packet leave alone. Counts, events, drops, frees and scrub captures write registers of the reaches' pages
and above, and the block's outputs only grow (`Chip.Follows`); most of them leave copies, queues and wires as they are too
(`Chip.Beside`).
-/
namespace Sys2Proof.Machine

/-! ## Fields of a carry -/

theorem beNat_lt (l : List Byte) : beNat l < 256 ^ l.length := by
  induction l with
  | nil => decide
  | cons b l ih =>
    have hb : b.toNat + 1 ≤ 256 := b.isLt
    calc beNat (b :: l) < b.toNat * 256 ^ l.length + 256 ^ l.length := Nat.add_lt_add_left ih _
      _ = (b.toNat + 1) * 256 ^ l.length := (Nat.succ_mul _ _).symm
      _ ≤ 256 * 256 ^ l.length := Nat.mul_le_mul_right _ hb
      _ = 256 ^ (b :: l).length := (Nat.pow_succ').symm

theorem tFlags_lt (m : SMap Byte) : tFlags m < 65536 := by
  simpa [cfld, cbytes] using beNat_lt (cbytes m 0x2D2 2)

/-! ## The relations -/

/-- A register of a reach's page or above, at which a write keeps a chip calm. -/
def pathKey (a : Nat) : Prop := calmKey a ∧ 0x1200000 ≤ a

theorem pathKey_at {pg off : Nat} (ho : off < 65536) (h8 : off ≠ 8) (hp : 0x120 ≤ pg) (h3 : pg % 16 ≠ 3) : pathKey (Reg.at_ pg off) :=
  ⟨calmKey_at ho h8 (by omega) h3, by simp only [Reg.at_]; omega⟩

theorem pathKey_header {pg off : Nat} (h : off < 0x100) (h8 : off ≠ 8) (hp : 0x120 ≤ pg) : pathKey (Reg.at_ pg off) :=
  ⟨calmKey_header pg h h8, by simp only [Reg.at_]; omega⟩

/-- `d` comes after `c`: still calm, with every output sent before, and with the registers below the reaches' pages as they were. -/
structure Chip.Follows (c d : Chip) : Prop where
  calm : c.Calm → d.Calm
  sent : c.out ⊆ d.out
  low : ∀ a < 0x1200000, d.rd a = c.rd a

/-- `d` comes after `c` with the same copies, copies on a wire and copies held. -/
structure Chip.Near (c d : Chip) : Prop extends Chip.Follows c d where
  copies : d.sw.copies = c.sw.copies
  sending : d.sw.sending = c.sw.sending
  hold : d.sw.hold = c.sw.hold

/-- `d` comes after `c` with the same queues too. -/
structure Chip.Beside (c d : Chip) : Prop extends Chip.Near c d where
  queues : d.sw.queues = c.sw.queues

namespace Chip

theorem Follows.refl (c : Chip) : c.Follows c := ⟨id, List.Subset.refl _, fun _ _ => rfl⟩

theorem Follows.trans {c d e : Chip} (h : c.Follows d) (h' : d.Follows e) : c.Follows e :=
  ⟨h'.calm ∘ h.calm, List.Subset.trans h.sent h'.sent, fun a ha => (h'.low a ha).trans (h.low a ha)⟩

theorem Near.trans {c d e : Chip} (h : c.Near d) (h' : d.Near e) : c.Near e :=
  ⟨h.toFollows.trans h'.toFollows, h'.copies.trans h.copies, h'.sending.trans h.sending, h'.hold.trans h.hold⟩

theorem Beside.refl (c : Chip) : c.Beside c := ⟨⟨.refl c, rfl, rfl, rfl⟩, rfl⟩

theorem Beside.trans {c d e : Chip} (h : c.Beside d) (h' : d.Beside e) : c.Beside e :=
  ⟨h.toNear.trans h'.toNear, h'.queues.trans h.queues⟩

/-- A change outside registers, DMA, sluices and outputs. -/
theorem Follows.of_eq {c d : Chip} (hr : d.regs = c.regs) (hd : d.dma = c.dma) (hs : d.slu = c.slu) (ho : d.out = c.out) :
    c.Follows d :=
  ⟨fun h => h.congr hr hd hs, ho ▸ List.Subset.refl _, fun a _ => Chip.rd_congr hr a⟩

/-- A change outside registers, DMA, sluices, outputs and the switch. -/
theorem Beside.of_eq {c d : Chip} (hr : d.regs = c.regs) (hd : d.dma = c.dma) (hs : d.slu = c.slu) (ho : d.out = c.out)
    (hw : d.sw = c.sw) : c.Beside d :=
  ⟨⟨.of_eq hr hd hs ho, by rw [hw], by rw [hw], by rw [hw]⟩, by rw [hw]⟩

/-! ## Registers, outputs and events -/

theorem Beside.wr {c d : Chip} (h : c.Beside d) {a : Nat} (ha : pathKey a) (v : Word) : c.Beside (d.wr a v) :=
  h.trans ⟨⟨⟨fun hc => hc.wr ha.1 v, List.Subset.refl _, fun x hx => d.rd_wr_ne v (by have := ha.2; omega)⟩, rfl, rfl, rfl⟩, rfl⟩

theorem Beside.emit {c d : Chip} (h : c.Beside d) (o : Output) : c.Beside (d.emit o) :=
  h.trans ⟨⟨⟨fun hc => hc.emit o, List.subset_append_left _ _, fun _ _ => rfl⟩, rfl, rfl, rfl⟩, rfl⟩

theorem Beside.message {c d : Chip} (h : c.Beside d) (fv : Nat × Nat) : c.Beside (d.message fv) := by
  unfold Chip.message; split
  · exact h
  · exact h.emit _

theorem Beside.settle {c d : Chip} (h : c.Beside d) (e : Chip) (pg : Nat) : c.Beside (e.settle d pg) := by
  rcases Chip.settle_cases e d pg with he | ⟨fv, he⟩
  · rwa [he]
  · rw [he]; exact h.message fv

theorem Beside.firstCause {c d : Chip} (h : c.Beside d) {pg : Nat} (hp : 0x120 ≤ pg) (i : Nat) : c.Beside (d.firstCause pg i) := by
  unfold Chip.firstCause; split
  · exact h
  · exact h.wr (pathKey_header (by decide) (by decide) hp) _

theorem Beside.raise {c d : Chip} (h : c.Beside d) {pg : Nat} (hp : 0x120 ≤ pg) (i : Nat) : c.Beside (d.raise pg i) := by
  have h1 : c.Beside (d.orW (Reg.INT_CAUSE pg) (oneBit i)) := h.wr (pathKey_header (by decide) (by decide) hp) _
  unfold Chip.raise Chip.raiseM
  refine Beside.settle ?_ d pg
  split
  · exact h1.firstCause hp _
  · exact h1

theorem Beside.raiseIf {c d : Chip} (h : c.Beside d) {pg : Nat} (hp : 0x120 ≤ pg) (i : Nat) (p : Prop) [Decidable p] :
    c.Beside (if p then d.raise pg i else d) := by
  split
  · exact h.raise hp i
  · exact h

theorem Beside.pend {c d : Chip} (h : c.Beside d) {pg a : Nat} (hp : 0x120 ≤ pg) (ha : pathKey a) (m : Word) (i : Nat) :
    c.Beside (d.pend pg a m i) := by
  have h1 : c.Beside (d.orW a m) := h.wr ha _
  unfold Chip.pend
  refine Beside.settle ?_ d pg
  split
  · exact h1
  · split
    · exact h1.firstCause hp _
    · exact h1

theorem Beside.onFrame {c d : Chip} (h : c.Beside d) (fid : Nat) (f : Frame → Frame) : c.Beside (d.onFrame fid f) := by
  refine h.trans ?_
  unfold Chip.onFrame; split
  · exact .of_eq rfl rfl rfl rfl rfl
  · exact .refl d

/-! ## Storage errors (R46) -/

theorem beside_correctable (c : Chip) {pg : Nat} (hp : 0x120 ≤ pg) (mem word : Nat) (u : Upset) : c.Beside (c.correctable pg mem word u) := by
  have h1 : c.Beside (c.count (Reg.ERR_CE_CNT pg) 1) := (Beside.refl c).wr (pathKey_header (by decide) (by decide) hp) _
  have h2 : ∀ d, c.Beside d → c.Beside (if d.rdB (Reg.ERR_ADDR pg) 31 then d else
      (d.wr (Reg.ERR_ADDR pg) (wd (0x80000000 + mem * 0x1000000 + word))).wr (Reg.ERR_SYND pg) (wd (u.bitpos * 65536 + u.synd))) := by
    intro d hd
    split
    · exact hd
    · exact (hd.wr (pathKey_header (by decide) (by decide) hp) _).wr (pathKey_header (by decide) (by decide) hp) _
  unfold Chip.correctable
  exact h2 _ (h1.raiseIf hp _ _)

theorem beside_uncorrectable (c : Chip) {pg : Nat} (hp : 0x120 ≤ pg) (mem word : Nat) (u : Upset) : c.Beside (c.uncorrectable pg mem word u) := by
  have h1 : c.Beside ((c.count (Reg.ERR_UE_CNT pg) 1).raise pg 30) :=
    ((Beside.refl c).wr (pathKey_header (by decide) (by decide) hp) _).raise hp _
  unfold Chip.uncorrectable
  simp only []
  split
  · exact h1
  · exact (h1.wr (pathKey_header (by decide) (by decide) hp) _).wr (pathKey_header (by decide) (by decide) hp) _

theorem beside_ecc (c : Chip) {pg : Nat} (hp : 0x120 ≤ pg) (mem word : Nat) : c.Beside (c.ecc pg mem word).2 := by
  unfold Chip.ecc; split
  · exact .refl c
  · split
    · exact c.beside_uncorrectable hp mem word _
    · exact c.beside_correctable hp mem word _

theorem beside_rewrite (c : Chip) (pg mem word : Nat) : c.Beside (c.rewrite pg mem word) := by
  obtain ⟨u, hu⟩ := c.rewrite_upsets pg mem word
  rw [hu]
  exact .of_eq rfl rfl rfl rfl rfl

/-! ## Drops and fates (R272, R273, R369 to R377) -/

theorem beside_countDrop (c : Chip) (code inLp egLp : Nat) : c.Beside (c.countDrop code inLp egLp) := by
  unfold Chip.countDrop
  split
  · exact .refl c
  case isFalse h =>
    have h1 : c.Beside (c.count (Reg.switch_DROP_CNT (code - 1)) 1) :=
      (Beside.refl c).wr (a := Reg.switch_DROP_CNT (code - 1)) (pathKey_at (by omega) (by omega) (by decide) (by decide)) _
    simp only []
    split
    · exact (h1.wr (a := Reg.switch_DROP_LAST) (pathKey_at (by decide) (by decide) (by decide) (by decide)) _).raise (by decide) _
    · exact h1

theorem beside_offerSample (c : Chip) (reach : Nat) (m : SMap Byte) (code : Nat) (frame : List Byte) :
    c.Beside (c.offerSample reach m code frame) := by
  have h1 : c.Beside (c.count (Reg.trace_SMP_OFFER_CNT reach) 1) := (Beside.refl c).wr (a := Reg.trace_SMP_OFFER_CNT reach)
    (pathKey_at (by decide) (by decide) (by simp only [Reg.pg_trace]; omega) (by simp only [Reg.pg_trace]; omega)) _
  unfold Chip.offerSample
  simp only []
  split
  · exact .refl c
  · split
    · exact (h1.wr (a := Reg.telemetry_SMPQ_DROP_CNT) (pathKey_at (by decide) (by decide) (by decide) (by decide)) _).raise (by decide) _
    · exact h1.trans (.of_eq rfl rfl rfl rfl rfl)

theorem beside_capBucket (c : Chip) (k : Clk) (f : Nat) : c.Beside (c.capBucket k f).2 := by
  unfold Chip.capBucket
  simp only []
  split
  · exact .refl c
  · exact .of_eq rfl rfl rfl rfl rfl

theorem beside_captureLost (c : Chip) : c.Beside c.captureLost :=
  (((Beside.refl c).wr (a := Reg.telemetry_CAP_LOSS_CNT) (pathKey_at (by decide) (by decide) (by decide) (by decide)) _).wr
    (a := Reg.ledger_LOSS_ACC) (pathKey_at (by decide) (by decide) (by decide) (by decide)) _).raise (by decide) _

/-- The filter that an offer to the capture FIFO is counted on. -/
theorem captureFilter_lt (c : Chip) (m : SMap Byte) (b : Bool) :
    (if b then c.rdF Reg.telemetry_DROP_CAP_CTL 4 0 else tFlags m / 2048) < 32 := by
  split
  · exact Nat.mod_lt _ (by decide)
  · have := tFlags_lt m
    omega

theorem beside_offerCapture (c : Chip) (k : Clk) (m : SMap Byte) (code : Nat) (frame : List Byte) (len : Nat) :
    c.Beside (c.offerCapture k m code frame len) := by
  have hf := c.captureFilter_lt m (c.dropCap code)
  unfold Chip.offerCapture
  simp only []
  generalize (if c.dropCap code = true then c.rdF Reg.telemetry_DROP_CAP_CTL 4 0 else tFlags m / 2048) = f at hf ⊢
  have hb := c.beside_capBucket k f
  split
  · exact .refl c
  · split
    next c1 he =>
      rw [he] at hb
      exact hb.wr (a := Reg.telemetry_CAP_LIM_CNT f) (pathKey_at (by omega) (by omega) (by decide) (by decide)) _
    next c1 he =>
      rw [he] at hb
      have h2 : c.Beside (c1.count (Reg.telemetry_CAP_CNT f) 1) :=
        hb.wr (a := Reg.telemetry_CAP_CNT f) (pathKey_at (by omega) (by omega) (by decide) (by decide)) _
      split
      · exact h2.trans (beside_captureLost _)
      · exact h2.trans (.of_eq rfl rfl rfl rfl rfl)

theorem beside_fate (c : Chip) (k : Clk) (reach : Nat) (m : SMap Byte) (tsErr : Bool) (code : Nat) (frame : List Byte) (len : Nat) :
    c.Beside (c.fate k reach m tsErr code frame len) :=
  (c.beside_offerSample _ _ _ _).trans (beside_offerCapture _ _ _ _ _ _)

theorem beside_copyFate (c : Chip) (k : Clk) (cp : Copy) (code : Nat) : c.Beside (c.copyFate k cp code) := by
  unfold Chip.copyFate; split
  · exact c.beside_fate _ _ _ _ _ _ _
  · exact .refl c

/-! ## Buffers given back (R237 to R242, R267) -/

theorem beside_freeErr (c : Chip) (kind p n req held tag : Nat) : c.Beside (c.freeErr kind p n req held tag) := by
  have h1 : c.Beside ((c.count Reg.bufmgr_FREE_ERR_CNT 1).raise 0x221 27) :=
    ((Beside.refl c).wr (a := Reg.bufmgr_FREE_ERR_CNT) (pathKey_at (by decide) (by decide) (by decide) (by decide)) _).raise (by decide) _
  unfold Chip.freeErr
  simp only []
  split
  · exact h1
  · exact (h1.wr (a := Reg.bufmgr_FREE_ERR_BUF) (pathKey_at (by decide) (by decide) (by decide) (by decide)) _).wr
      (a := Reg.bufmgr_FREE_ERR_REQ) (pathKey_at (by decide) (by decide) (by decide) (by decide)) _

theorem beside_fbPool (c : Chip) (p : Nat) : c.Beside (c.fbPool p) := by
  have h1 : ∀ l, c.Beside { c with buf := { c.buf with levels := l } } := fun l => .of_eq rfl rfl rfl rfl rfl
  exact ((h1 _).raiseIf (by decide) _ _).raiseIf (by decide) _ _

theorem beside_fbGroupUpd (c : Chip) (g : Nat) : c.Beside (c.fbGroupUpd g) := by
  have h1 : ∀ l, c.Beside { c with buf := { c.buf with levels := l } } := fun l => .of_eq rfl rfl rfl rfl rfl
  unfold Chip.fbGroupUpd
  simp only []
  split
  · exact .refl c
  · split
    · exact (h1 _).pend (by decide) (a := Reg.bufmgr_FBG_WARN_PEND) (pathKey_at (by decide) (by decide) (by decide) (by decide)) _ _
    · exact h1 _

theorem beside_bufRead (c : Chip) (p n : Nat) : c.Beside (c.bufRead p n) := by
  have he := c.beside_ecc (pg := 0x221) (by decide) 1 (bufKey p n)
  unfold Chip.bufRead
  split
  next c1 h =>
    rw [h] at he
    refine (he.trans ?_).trans (beside_rewrite _ _ _ _)
    split
    · exact .of_eq rfl rfl rfl rfl rfl
    · exact .refl c1
  next r c1 _ h =>
    rw [h] at he
    exact he

theorem beside_freeBuf (c : Chip) (p n tag req : Nat) : c.Beside (c.freeBuf p n tag req).2 := by
  have h1 := c.beside_bufRead p n
  unfold Chip.freeBuf
  simp only []
  split
  · exact h1.trans (beside_freeErr _ _ _ _ _ _ _)
  · split
    · exact h1.trans (beside_freeErr _ _ _ _ _ _ _)
    · have h2 : (c.bufRead p n).Beside { c.bufRead p n with buf := { (c.bufRead p n).buf with bufs := merase (c.bufRead p n).buf.bufs (bufKey p n) } } :=
        .of_eq rfl rfl rfl rfl rfl
      exact ((h1.trans h2).trans (beside_fbPool _ _)).trans (beside_fbGroupUpd _ _)

theorem beside_freeAll (c : Chip) (tag req : Nat) (l : List (Nat × Nat)) : c.Beside (c.freeAll tag req l) := by
  induction l generalizing c with
  | nil => exact .refl c
  | cons b l ih => exact (c.beside_freeBuf b.1 b.2 tag req).trans (ih _)

theorem beside_freeFrame (c : Chip) (fid req : Nat) : c.Beside (c.freeFrame fid req) := by
  unfold Chip.freeFrame
  split
  · exact .refl c
  · exact ((c.beside_freeAll _ _ _).onFrame _ _).trans (.of_eq rfl rfl rfl rfl rfl)

theorem beside_reap (c : Chip) (fid req : Nat) : c.Beside (c.reap fid req) := by
  have h1 := c.beside_freeFrame fid req
  unfold Chip.reap
  split
  · exact .refl c
  · simp only []
    split
    · split
      · exact h1.trans (.of_eq rfl rfl rfl rfl rfl)
      · exact h1
    · exact .refl c

end Chip

end Sys2Proof.Machine
end

section
/-!
SUPPORT. The end of a copy (R261 to R269): what leaves the stores of the switch with it, and what it leaves alone.
-/
namespace Sys2Proof.Machine

/-! ## Entries of a store -/

theorem merase_eq_self {α : Type} {m : SMap α} {a : Nat} (h : mget m a = none) : merase m a = m := by
  induction m with
  | nil => rfl
  | cons kv m ih =>
    rw [mget_cons] at h
    split at h
    case isTrue => cases h
    case isFalse hk => simp only [merase, hk, if_false, ih h]

theorem key_ne_of_mem_merase {α : Type} {m : SMap α} {a : Nat} {kv : Nat × α} (h : kv ∈ merase m a) : kv.1 ≠ a := by
  induction m with
  | nil => cases h
  | cons e m ih =>
    by_cases hk : e.1 = a
    · simp only [merase, hk, if_true] at h
      exact ih h
    · simp only [merase, hk, if_false] at h
      rcases List.mem_cons.mp h with rfl | hm
      · exact hk
      · exact ih hm

theorem mem_foldl_merase {α : Type} {m : SMap α} {l : List Nat} {kv : Nat × α} (h : kv ∈ l.foldl merase m) : kv ∈ m ∧ kv.1 ∉ l := by
  induction l generalizing m with
  | nil => exact ⟨h, List.not_mem_nil⟩
  | cons a l ih =>
    obtain ⟨hm, hl⟩ := ih h
    exact ⟨mem_merase hm, List.not_mem_cons_of_ne_of_not_mem (key_ne_of_mem_merase hm) hl⟩

namespace Chip

/-! ## A register cleared -/

/-- Zero arms no trigger and watches no page, wherever it is written. -/
theorem Calm.wr_zero {c : Chip} (h : c.Calm) (a : Nat) : (c.wr a 0).Calm := by
  have hrd : ∀ x i, c.rdB x i = false → (c.wr a 0).rdB x i = false := fun x i hx => by
    rw [Chip.rdB, Chip.rd_wr]
    split
    · simp [bit]
    · exact hx
  refine ⟨h.lists, h.injects, fun r hr i hi => hrd _ _ (h.unwatched r hr i hi), fun kv hkv => ?_, hrd _ _ h.unfrozen⟩
  by_cases hz : (0 : Word) = rstVal a
  · exact h.untriggered kv (mem_merase (by simpa only [Chip.wr, hz, if_true, mput] using hkv))
  · rcases mem_minsert (by simpa only [Chip.wr, hz, if_false, mput] using hkv) with rfl | hm
    · exact fun _ _ => by simp [bit]
    · exact h.untriggered kv (mem_merase hm)

/-! ## Queues -/

theorem queue_onQueue_ne (c : Chip) {q x : Nat} (f : Queue → Queue) (h : x ≠ q) : (c.onQueue q f).queue x = c.queue x :=
  mrd_mset_ne ({} : Queue) c.sw.queues (f (c.queue q)) h

theorem near_onQueue (c : Chip) (q : Nat) (f : Queue → Queue) : c.Near (c.onQueue q f) := ⟨.of_eq rfl rfl rfl rfl, rfl, rfl, rfl⟩

theorem near_unlink (c : Chip) (cid q : Nat) : c.Near (c.unlink cid q) := by
  unfold Chip.unlink
  split
  · simp only []
    have h1 := c.near_onQueue q fun x => { x with entries := x.entries.filter (· != cid) }
    split
    · refine h1.trans ⟨⟨fun hc => hc.wr_zero _, List.Subset.refl _, fun a ha => Chip.rd_wr_ne _ _ ?_⟩, rfl, rfl, rfl⟩
      simp only [Reg.sched_DEFICIT, Reg.at_, Reg.pg_sched]
      omega
    · exact h1
  · exact ⟨.refl c, rfl, rfl, rfl⟩

theorem drops_unlink (c : Chip) (cid q x : Nat) : ((c.unlink cid q).queue x).drops = (c.queue x).drops := by
  have h1 : ((c.onQueue q fun y => { y with entries := y.entries.filter (· != cid) }).queue x).drops = (c.queue x).drops := by
    by_cases hx : x = q
    · subst hx; rw [Chip.queue_onQueue]
    · rw [c.queue_onQueue_ne _ hx]
  unfold Chip.unlink
  split
  · simp only []
    split
    · exact (congrArg Queue.drops (Chip.queue_congr (Chip.wr_sw _ _ _) x)).trans h1
    · exact h1
  · rfl

theorem Beside.queue_eq {c d : Chip} (h : c.Beside d) (q : Nat) : d.queue q = c.queue q := by
  rw [Chip.queue, Chip.queue, h.queues]

/-! ## Spill space (R316) -/

theorem beside_spillFree (c : Chip) (q : Nat) (l : List (Nat × Nat × Nat)) : c.Beside (c.spillFree q l) := by
  induction l generalizing c with
  | nil => exact .refl c
  | cons x l ih =>
    obtain ⟨pg, first, n⟩ := x
    rw [Chip.spillFree]
    refine Beside.trans ?_ (ih _)
    exact .of_eq rfl rfl rfl rfl rfl

theorem beside_spillRelease (c : Chip) (cp : Copy) : c.Beside (c.spillRelease cp) := by
  unfold Chip.spillRelease
  split
  · exact c.beside_spillFree _ _
  · exact c.beside_spillFree _ _
  · exact .refl c

/-! ## Ended copies -/

/-- `d` comes after `c`, and between them copy `cid`, held as `cp`, has reached its fate. -/
structure Ended (cid : Nat) (cp : Copy) (c d : Chip) : Prop extends c.Follows d where
  copies : d.sw.copies = merase c.sw.copies cid
  sending : d.sw.sending = if mget c.sw.sending cp.lp = some cid then merase c.sw.sending cp.lp else c.sw.sending
  hold : d.sw.hold = c.sw.hold.filter (· != cid)

theorem Near.ended {c b d : Chip} {cid : Nat} {cp : Copy} (h : c.Near b) (he : Ended cid cp b d) : Ended cid cp c d :=
  ⟨h.toFollows.trans he.toFollows, by rw [he.copies, h.copies], by rw [he.sending, h.sending], by rw [he.hold, h.hold]⟩

theorem Ended.beside {b c d : Chip} {cid : Nat} {cp : Copy} (he : Ended cid cp b c) (h : c.Beside d) : Ended cid cp b d :=
  ⟨he.toFollows.trans h.toFollows, h.copies.trans he.copies, h.sending.trans he.sending, h.hold.trans he.hold⟩

/-- The stores of the switch without a copy. -/
def withoutCopy (c : Chip) (cid : Nat) (cp : Copy) : Chip :=
  { c with sw := { c.sw with
    copies := merase c.sw.copies cid
    sending := if mget c.sw.sending cp.lp = some cid then merase c.sw.sending cp.lp else c.sw.sending
    hold := c.sw.hold.filter (· != cid) } }

theorem ended_withoutCopy (c : Chip) (cid : Nat) (cp : Copy) : Ended cid cp c (c.withoutCopy cid cp) :=
  ⟨.of_eq rfl rfl rfl rfl, rfl, rfl, rfl⟩

/-- Before the copy leaves the stores: out of its queue, its spill space free, its fate recorded. -/
def copyLeft (c : Chip) (k : Clk) (cid : Nat) (cp : Copy) (code : Nat) : Chip :=
  ((c.unlink cid cp.q).spillRelease cp).copyFate k cp code

theorem endCopy_eq {c : Chip} (k : Clk) {cid : Nat} (code : Nat) {cp : Copy} (h : mget c.sw.copies cid = some cp) :
    c.endCopy k cid code =
      (((c.copyLeft k cid cp code).withoutCopy cid cp).onFrame cp.fid fun f => { f with refs := f.refs - 1 }).reap cp.fid cp.freeReq := by
  simp only [Chip.endCopy, h]
  rfl

theorem endCopy_none {c : Chip} (k : Clk) {cid : Nat} (code : Nat) (h : mget c.sw.copies cid = none) : c.endCopy k cid code = c := by
  simp only [Chip.endCopy, h]

theorem near_copyLeft (c : Chip) (k : Clk) (cid : Nat) (cp : Copy) (code : Nat) : c.Near (c.copyLeft k cid cp code) :=
  (c.near_unlink cid cp.q).trans ((beside_spillRelease _ cp).trans (beside_copyFate _ k cp code)).toNear

theorem beside_released (c : Chip) (cp : Copy) :
    c.Beside ((c.onFrame cp.fid fun f => { f with refs := f.refs - 1 }).reap cp.fid cp.freeReq) :=
  ((Beside.refl c).onFrame _ _).trans (beside_reap _ _ _)

theorem ended_endCopy {c : Chip} (k : Clk) {cid : Nat} (code : Nat) {cp : Copy} (h : mget c.sw.copies cid = some cp) :
    Ended cid cp c (c.endCopy k cid code) := by
  rw [endCopy_eq k code h]
  exact (c.near_copyLeft k cid cp code).ended ((ended_withoutCopy _ cid cp).beside (beside_released _ cp))

theorem drops_endCopy (c : Chip) (k : Clk) (cid code q : Nat) : ((c.endCopy k cid code).queue q).drops = (c.queue q).drops := by
  cases h : mget c.sw.copies cid with
  | none => rw [endCopy_none k code h]
  | some cp =>
    have hleft := (beside_spillRelease (c.unlink cid cp.q) cp).trans (beside_copyFate _ k cp code)
    rw [endCopy_eq k code h, (beside_released _ cp).queue_eq, Chip.queue_congr (d := (c.copyLeft k cid cp code).withoutCopy cid cp) rfl,
      show ((c.copyLeft k cid cp code).withoutCopy cid cp).queue q = (c.copyLeft k cid cp code).queue q from rfl, Chip.copyLeft,
      hleft.queue_eq, c.drops_unlink]

/-- A drop counted on a queue (R274 QDATA[3]). -/
def countOnQueue (c : Chip) (q : Nat) (onQueue : Bool) : Chip :=
  if onQueue then c.onQueue q fun x => { x with drops := clampTo 0xFFFFFFFF (x.drops + 1) } else c

theorem near_countOnQueue (c : Chip) (q : Nat) (onQueue : Bool) : c.Near (c.countOnQueue q onQueue) := by
  unfold countOnQueue; split
  · exact c.near_onQueue q _
  · exact (Beside.refl c).toNear

/-- A dropped copy ends after its drop is counted, on the switch page and on its queue. -/
theorem dropCopy_eq {c : Chip} (k : Clk) {cid : Nat} (code : Nat) (onQueue : Bool) {cp : Copy} (h : mget c.sw.copies cid = some cp) :
    ∃ inLp, c.dropCopy k cid code onQueue = ((c.countDrop code inLp cp.lp).countOnQueue cp.q onQueue).endCopy k cid code :=
  ⟨match mget c.frames cp.fid with | some f => f.inLp | none => 0x7FF, by simp only [Chip.dropCopy, h]; rfl⟩

theorem ended_dropCopy {c : Chip} (k : Clk) {cid : Nat} (code : Nat) (onQueue : Bool) {cp : Copy} (h : mget c.sw.copies cid = some cp) :
    Ended cid cp c (c.dropCopy k cid code onQueue) := by
  obtain ⟨inLp, he⟩ := dropCopy_eq k code onQueue h
  have hnear : c.Near ((c.countDrop code inLp cp.lp).countOnQueue cp.q onQueue) :=
    (c.beside_countDrop code inLp cp.lp).toNear.trans (near_countOnQueue _ cp.q onQueue)
  rw [he]
  exact hnear.ended (ended_endCopy k code (by rwa [hnear.copies]))

/-- A drop counted on the copy's queue counts one. -/
theorem drops_dropCopy {c : Chip} (k : Clk) {cid : Nat} (code : Nat) {cp : Copy} (h : mget c.sw.copies cid = some cp) :
    ((c.dropCopy k cid code true).queue cp.q).drops = clampTo 0xFFFFFFFF ((c.queue cp.q).drops + 1) := by
  obtain ⟨inLp, he⟩ := dropCopy_eq k code true h
  rw [he, drops_endCopy, Chip.countOnQueue, if_pos rfl, Chip.queue_onQueue, (c.beside_countDrop code inLp cp.lp).queue_eq]

theorem ended_stompCopy {c : Chip} (k : Clk) {cid : Nat} (code : Nat) {cp : Copy} (h : mget c.sw.copies cid = some cp) :
    Ended cid cp c (c.stompCopy k cid code) := by
  have hb : c.Beside (((c.emit (.frame cp.lp (stompedFrame (cp.out.take (c.sentBytes k cp))) true)).count Reg.switch_STOMP_CNT 1).raise
      0x220 22) :=
    (((Beside.refl c).emit _).wr (a := Reg.switch_STOMP_CNT) (pathKey_at (by decide) (by decide) (by decide) (by decide)) _).raise
      (by decide) _
  simp only [Chip.stompCopy, h]
  exact hb.toNear.ended (ended_dropCopy k code false (by rwa [hb.copies]))

theorem ended_killCopy {c : Chip} (k : Clk) {cid : Nat} (code : Nat) (onQueue : Bool) {cp : Copy} (h : mget c.sw.copies cid = some cp) :
    Ended cid cp c (c.killCopy k cid code onQueue) := by
  simp only [Chip.killCopy, h]
  split
  · exact ended_stompCopy k code h
  · exact ended_dropCopy k code onQueue h

theorem killCopy_none {c : Chip} (k : Clk) {cid : Nat} (code : Nat) (onQueue : Bool) (h : mget c.sw.copies cid = none) :
    c.killCopy k cid code onQueue = c := by
  simp only [Chip.killCopy, h]

theorem follows_killCopy (c : Chip) (k : Clk) (cid code : Nat) (onQueue : Bool) : c.Follows (c.killCopy k cid code onQueue) := by
  cases h : mget c.sw.copies cid with
  | none => rw [killCopy_none k code onQueue h]; exact .refl c
  | some cp => exact (ended_killCopy k code onQueue h).toFollows

theorem copies_killCopy (c : Chip) (k : Clk) (cid code : Nat) (onQueue : Bool) :
    (c.killCopy k cid code onQueue).sw.copies = merase c.sw.copies cid := by
  cases h : mget c.sw.copies cid with
  | none => rw [killCopy_none k code onQueue h, merase_eq_self h]
  | some cp => exact (ended_killCopy k code onQueue h).copies

theorem foldl_killCopy (c : Chip) (k : Clk) (code : Nat) (onQueue : Bool) (l : List Nat) :
    c.Follows (l.foldl (fun x cid => x.killCopy k cid code onQueue) c) ∧
      (l.foldl (fun x cid => x.killCopy k cid code onQueue) c).sw.copies = l.foldl merase c.sw.copies := by
  induction l generalizing c with
  | nil => exact ⟨.refl c, rfl⟩
  | cons cid l ih =>
    obtain ⟨hf, hc⟩ := ih (c.killCopy k cid code onQueue)
    refine ⟨(c.follows_killCopy k cid code onQueue).trans hf, ?_⟩
    rw [List.foldl_cons, List.foldl_cons, hc, copies_killCopy]

theorem follows_killCopies (c : Chip) (k : Clk) (f : Copy → Bool) (code : Nat) (onQueue : Bool) :
    c.Follows (c.killCopies k f code onQueue) := (c.foldl_killCopy k code onQueue _).1

/-- No copy that meets the test is left, and no new one is there. -/
theorem mem_killCopies {c : Chip} {k : Clk} {f : Copy → Bool} {code : Nat} {onQueue : Bool} {kc : Nat × Copy}
    (h : kc ∈ (c.killCopies k f code onQueue).sw.copies) : kc ∈ c.sw.copies ∧ f kc.2 = false := by
  rw [Chip.killCopies, (c.foldl_killCopy k code onQueue _).2] at h
  obtain ⟨hm, hl⟩ := mem_foldl_merase h
  exact ⟨hm, Bool.eq_false_iff.mpr fun hf => hl (List.mem_map_of_mem (List.mem_filter.mpr ⟨hm, hf⟩))⟩

end Chip

end Sys2Proof.Machine
end

section
/-!
O15: a copy's way out. Linking (R258, R313), transmission and its end (R263, R283, R337), the level hold (R358, R359) and the port-down
flush (R269).
-/
namespace Sys2Proof.Machine

namespace Chip

/-! ## What scheduling leaves alone -/

/-- A change of the switch outside its copies, queues, wires and hold buffers. -/
theorem beside_sw (c : Chip) {w : SwitchSt} (hc : w.copies = c.sw.copies) (hs : w.sending = c.sw.sending) (hh : w.hold = c.sw.hold)
    (hq : w.queues = c.sw.queues) : c.Beside { c with sw := w } := ⟨⟨.of_eq rfl rfl rfl rfl, hc, hs, hh⟩, hq⟩

theorem beside_offWheel (c : Chip) (r idx : Nat) (port : Bool) : c.Beside (c.offWheel r idx port) := c.beside_sw rfl rfl rfl rfl

theorem beside_place (c : Chip) (r idx : Nat) (port : Bool) (t : Nat) : c.Beside (c.place r idx port t) := by
  have h1 := c.beside_offWheel r idx port
  have h2 : ∀ far : Bool, c.Beside (if far then (c.offWheel r idx port).count (Reg.wheel_WHEEL_FAR_CNT r) 1 else c.offWheel r idx port) := by
    intro far
    split
    · exact h1.wr (a := Reg.wheel_WHEEL_FAR_CNT r)
        (pathKey_at (by decide) (by decide) (by simp only [Reg.pg_wheel]; omega) (by simp only [Reg.pg_wheel]; omega)) _
    · exact h1
  unfold Chip.place
  -- only `split` here: a tactic that evaluates the arithmetic of the wheel leaves the kernel numbers too large to unfold
  split
  split
  · exact h1
  · extract_lets c1 e
    split
    · exact h1
    · split
      exact (h2 _).trans (beside_sw _ rfl rfl rfl rfl)

theorem beside_placeBacklog (c : Chip) (k : Clk) (q : Nat) : c.Beside (c.placeBacklog k q) := by
  have hplace : ∀ (d : Chip) (p : Prop) [Decidable p] (r idx : Nat) (port : Bool),
      d.Beside (if p then d else d.place r idx port k.tod) := by
    intro d p _ r idx port
    split
    · exact .refl d
    · exact d.beside_place _ _ _ _
  exact (hplace c _ _ _ _).trans (hplace _ _ _ _ _)

theorem beside_recharge (c : Chip) (r idx : Nat) (port : Bool) (t : Nat) (bytes : Int) : c.Beside (c.recharge r idx port t bytes) := by
  unfold Chip.recharge
  simp only []
  split
  · exact .refl c
  · split
    · exact .refl c
    · split
      · refine Beside.trans ?_ (beside_place _ _ _ _ _)
        exact c.beside_sw rfl rfl rfl rfl
      · exact c.beside_sw rfl rfl rfl rfl

/-- A member of the weighted group has its DEFICIT among those of its reach. -/
theorem queueLoc_lt_of_weighted {c : Chip} {q : Nat} (h : c.weighted (queueLoc q).1 (localOf (lpk q).1) (lpk q).2 = true) :
    (queueLoc q).2 < 1456 := by
  unfold queueLoc lpk at *
  split
  · omega
  case isFalse hq =>
    simp only [hq, if_false] at h
    have hlp : localOf 1152 = 72 := rfl
    simp only [Chip.weighted, Chip.mqWeighted, hlp, bne_self_eq_false, Bool.false_and, Bool.and_false, Bool.or_false,
      Bool.and_eq_true, decide_eq_true_eq] at h
    omega

theorem beside_settleCopy (c : Chip) (k : Clk) (cp : Copy) (actual : Nat) : c.Beside (c.settleCopy k cp actual) := by
  have hgrow : ∀ (p : Prop) [Decidable p] (r : Nat),
      c.Beside (if p then (c.count (Reg.sched_GROW_EXCEED_CNT r) 1).raise (Reg.pg_sched r) 25 else c) := by
    intro p _ r
    split
    · exact ((Beside.refl c).wr (a := Reg.sched_GROW_EXCEED_CNT r) (pathKey_at (by decide) (by decide)
        (by simp only [Reg.pg_sched]; omega) (by simp only [Reg.pg_sched]; omega)) _).raise (by simp only [Reg.pg_sched]; omega) _
    · exact .refl c
  have hdeficit : ∀ (d : Chip) (b : Bool) (v : Int), d.Beside
      (if (d.weighted (queueLoc cp.q).1 (localOf (lpk cp.q).1) (lpk cp.q).2 && b) = true then
        d.setDeficit (queueLoc cp.q).1 (queueLoc cp.q).2 v else d) := by
    intro d b v
    split
    case isTrue h =>
      have hlt := queueLoc_lt_of_weighted (Bool.and_eq_true_iff.mp h).1
      exact (Beside.refl d).wr (a := Reg.sched_DEFICIT (queueLoc cp.q).1 (queueLoc cp.q).2)
        (pathKey_at (by omega) (by omega) (by simp only [Reg.pg_sched]; omega) (by simp only [Reg.pg_sched]; omega)) _
    case isFalse => exact .refl d
  unfold Chip.settleCopy
  exact ((((hgrow (cp.lc < actual) _).trans (hdeficit _ _ _)).trans (beside_recharge _ _ _ _ _ _)).trans
    (beside_recharge _ _ _ _ _ _)).trans (beside_sw _ rfl rfl rfl rfl)

theorem beside_overrun (c : Chip) (r : Nat) : c.Beside (c.overrun r) :=
  ((Beside.refl c).wr (a := Reg.sched_GATE_OVERRUN_CNT r) (pathKey_at (by decide) (by decide) (by simp only [Reg.pg_sched]; omega)
    (by simp only [Reg.pg_sched]; omega)) _).raise (by simp only [Reg.pg_sched]; omega) _

theorem pathKey_level {r off : Nat} (ho : off < 65536) (h8 : off ≠ 8) : pathKey (Reg.at_ (Reg.pg_level r) off) :=
  pathKey_at ho h8 (by simp only [Reg.pg_level]; omega) (by simp only [Reg.pg_level]; omega)

theorem beside_levelSent (c : Chip) (cp : Copy) : c.Beside (c.levelSent cp) := by
  unfold Chip.levelSent
  split
  · exact .refl c
  · exact (((Beside.refl c).wr (a := Reg.level_LR_SENT_CNT_LO (reachOf cp.lp)) (pathKey_level (by decide) (by decide)) _).wr
      (a := Reg.level_LR_SENT_CNT_HI (reachOf cp.lp)) (pathKey_level (by decide) (by decide)) _).wr
      (a := Reg.level_LR_DEV_MAX (reachOf cp.lp)) (pathKey_level (by decide) (by decide)) _

/-! ## A copy's record changed -/

theorem follows_onCopy (c : Chip) (cid : Nat) (f : Copy → Copy) : c.Follows (c.onCopy cid f) := by
  unfold Chip.onCopy; split
  · exact .of_eq rfl rfl rfl rfl
  · exact .refl c

theorem mget_onCopy (c : Chip) (cid : Nat) (f : Copy → Copy) :
    mget (c.onCopy cid f).sw.copies cid = (mget c.sw.copies cid).map f := by
  unfold Chip.onCopy
  split
  next x h => rw [mget_mput_same, h, Option.map_some]
  next h => rw [h, Option.map_none]

@[simp] theorem onCopy_queues (c : Chip) (cid : Nat) (f : Copy → Copy) : (c.onCopy cid f).sw.queues = c.sw.queues := by
  unfold Chip.onCopy; split <;> rfl
@[simp] theorem onCopy_hold (c : Chip) (cid : Nat) (f : Copy → Copy) : (c.onCopy cid f).sw.hold = c.sw.hold := by
  unfold Chip.onCopy; split <;> rfl

/-! ## Linking (R258, R313) -/

theorem beside_markSpill (c : Chip) (cp : Copy) : c.Beside (c.markSpill cp).2 := by
  unfold Chip.markSpill
  split
  · split
    · exact .refl c
    · split
      · exact .refl c
      · split
        · exact .refl c
        · split
          · exact ((Beside.refl c).wr (a := Reg.spill_SPILL_CTX_CNT) (pathKey_at (by decide) (by decide) (by decide) (by decide)) _).raise
              (by decide) _
          · exact .of_eq rfl rfl rfl rfl rfl
  · exact .refl c

theorem linkNext_eq {c : Chip} (k : Clk) {cid : Nat} {cp : Copy} (hl : c.toLink = some cid) (hc : mget c.sw.copies cid = some cp) :
    c.linkNext k = (c.linkCopy k cid).placeBacklog k cp.q := by
  simp only [Chip.linkNext, hl, hc]

theorem linkCopy_down {c : Chip} (k : Clk) {cid : Nat} {cp : Copy} (hc : mget c.sw.copies cid = some cp) (hup : c.fwdUp cp.lp = false) :
    c.linkCopy k cid = c.dropCopy k cid drPortDown true := by
  simp only [Chip.linkCopy, hc, hup, Bool.not_false, if_true]

/-- A copy linked at the tail of its queue. -/
theorem linkCopy_up {c : Chip} (k : Clk) {cid : Nat} {cp : Copy} (hc : mget c.sw.copies cid = some cp) (hup : c.fwdUp cp.lp = true) :
    c.Follows (c.linkCopy k cid) ∧ ((c.linkCopy k cid).queue cp.q).entries = (c.queue cp.q).entries ++ [cid] ∧
      (mget (c.linkCopy k cid).sw.copies cid).any (fun x => x.pos == .queued && x.linkTime == k.tod) = true := by
  have hm := c.beside_markSpill cp
  simp only [Chip.linkCopy, hc, hup, Bool.not_true, Bool.false_eq_true, if_false]
  refine ⟨(hm.toFollows.trans (follows_onCopy _ _ _)).trans (near_onQueue _ _ _).toFollows, ?_, ?_⟩
  · rw [Chip.queue_onQueue, Chip.queue, onCopy_queues, hm.queues, ← Chip.queue]
  · have hcopy : ∀ (d : Chip) (f : Queue → Queue), (d.onQueue cp.q f).sw.copies = d.sw.copies := fun _ _ => rfl
    rw [hcopy, mget_onCopy, hm.copies, hc]
    simp

end Chip

/-! ## Commands of an active device -/

/-- A command that changes the chip while the core clock runs, as every command of a packet does. -/
theorem Completes.of_follows {i : Instr} {s : State} {f : Chip → Chip} {P : State → Prop} (ha : Active s)
    (h : exec i s = ran s (s.onCore f)) (hf : s.chip.Follows (f s.chip)) (hp : P { s with chip := f s.chip }) : Completes i s P :=
  .of_calm ha (h.trans (congrArg (ran s) (State.onCore_chip f ha.1))) (hf.calm ha.calm) hp

section Egress
variable {s : State} (ha : Active s)
include ha

theorem copyLink_completes {cid : Nat} {cp : Copy} (hl : s.chip.toLink = some cid) (hc : mget s.chip.sw.copies cid = some cp) :
    Completes .copyLink s fun t => OnlyChip s t ∧
      if s.chip.fwdUp cp.lp then
        (t.chip.queue cp.q).entries = (s.chip.queue cp.q).entries ++ [cid] ∧
        (mget t.chip.sw.copies cid).any (fun x => x.pos == .queued && x.linkTime == s.clk.tod) = true
      else mget t.chip.sw.copies cid = none ∧ (t.chip.queue cp.q).drops = clampTo 0xFFFFFFFF ((s.chip.queue cp.q).drops + 1) := by
  have hplace := (s.chip.linkCopy s.clk cid).beside_placeBacklog s.clk cp.q
  have hnext := Chip.linkNext_eq s.clk hl hc
  cases hup : s.chip.fwdUp cp.lp with
  | true =>
    obtain ⟨hf, hq, hx⟩ := Chip.linkCopy_up s.clk hc hup
    refine .of_follows ha rfl (hnext ▸ hf.trans hplace.toFollows) ⟨onlyChip_chip s _, ?_⟩
    simp only [hnext, if_true, hplace.queue_eq, hplace.copies]
    exact ⟨hq, hx⟩
  | false =>
    rw [Chip.linkCopy_down s.clk hc hup] at hplace hnext
    have he := Chip.ended_dropCopy s.clk drPortDown true hc
    refine .of_follows ha rfl (hnext ▸ he.toFollows.trans hplace.toFollows) ⟨onlyChip_chip s _, ?_⟩
    simp only [hnext, Bool.false_eq_true, if_false, hplace.queue_eq, hplace.copies, he.copies, mget_merase_same, true_and]
    exact Chip.drops_dropCopy s.clk drPortDown hc

end Egress

/-! ## Transmission (R263, R283, R337) -/

/-- A port without MACsec transmits a frame's bytes as they are (R414). -/
theorem mscTransmit_off {cv : CV} {lp : Nat} (hlp : lp < 1152) (h : cv.1.mscTx lp = false) (body : List Byte) :
    mscTransmit cv lp body = (some body, cv) := by
  have hbit : cv.1.msc lp 31 31 < 2 := Nat.mod_lt _ (by decide)
  have hoff : cv.1.msc lp 31 31 = 0 := by
    simp only [Chip.mscTx, hlp, decide_true, Bool.true_and, beq_eq_false_iff_ne] at h
    omega
  simp only [mscTransmit, hoff, true_or, or_true, if_true]

namespace Chip

theorem ecc_clean {c : Chip} (h : c.upsets = []) (pg mem word : Nat) : c.ecc pg mem word = (.clean, c) := by
  simp only [Chip.ecc, h, mget_nil]

theorem readBufs_clean {c : Chip} (h : c.upsets = []) (l : List (Nat × Nat)) : c.readBufs l = (false, c) := by
  induction l with
  | nil => rfl
  | cons b l ih => simp only [Chip.readBufs, ecc_clean h, ih]

/-- A frame without a PTP message leaves as it is (R337). -/
theorem ptpAct_none {c : Chip} {b : List Byte} (h : ptpHeader b = none) (lp inLp tOut tIn : Nat) :
    c.ptpAct lp inLp tOut tIn b = { body := b } := by
  simp only [Chip.ptpAct, h]

theorem follows_startWire (c : Chip) (cid lp tIn : Nat) (tOut : Int) (tsErr : Bool) (out : List Byte) :
    c.Follows (c.startWire cid lp tIn tOut tsErr out) :=
  (c.follows_onCopy cid _).trans (.of_eq rfl rfl rfl rfl)

theorem sending_startWire (c : Chip) (cid lp tIn : Nat) (tOut : Int) (tsErr : Bool) (out : List Byte) :
    mget (c.startWire cid lp tIn tOut tsErr out).sw.sending lp = some cid := by
  simp only [Chip.startWire, mget_mput_same]

theorem copy_startWire {c : Chip} {cid : Nat} {cp : Copy} (h : mget c.sw.copies cid = some cp) (lp tIn : Nat) (tOut : Int) (tsErr : Bool)
    (out : List Byte) : (mget (c.startWire cid lp tIn tOut tsErr out).sw.copies cid).any
      (fun y => y.pos == .sending && y.out == out) = true := by
  have hcopies : (c.startWire cid lp tIn tOut tsErr out).sw.copies =
      (c.onCopy cid fun x => { x with pos := .sending, out, tOut, carry := outTrace x.carry tOut tIn tsErr }).sw.copies := rfl
  rw [hcopies, mget_onCopy, h]
  simp

end Chip

/-- The stamp of a copy that starts now, or the start it was placed at (R337, R358). -/
def State.outStamp (s : State) (lp : Nat) (cp : Copy) : Nat :=
  if cp.level.isSome && cp.tOut ≠ 0 then (roundQI cp.tOut).toNat else roundQ (s.clk.tod + s.chip.txDly lp)

/-- Where neither MACsec, PTP nor an error acts, a copy starts with its bytes as they are and a new FCS. -/
theorem State.startCopy_plain {s : State} {lp cid : Nat} {cp : Copy} {f : Frame} {body : List Byte} (hlp : lp < 1152)
    (hmsc : s.chip.mscTx lp = false) (hbody : cp.out.take (cp.out.length - 4) = body) (hptp : ptpHeader body = none)
    (hup : s.chip.upsets = []) (hf : f.failed = none) : s.startCopy lp cid cp f =
      { s with chip := s.chip.startWire cid lp f.tIn (s.outStamp lp cp) (s.chip.stampErr s.clk lp) (body ++ fcsOf body) } := by
  have htx := mscTransmit_off hlp (cv := (s.chip, s.vault)) hmsc body
  simp only [State.startCopy, hbody, Chip.ecc_clean hup, Chip.readBufs_clean hup, Chip.ptpAct_none hptp, hf, Bool.false_eq_true,
    if_false, htx]
  rfl

namespace Chip

/-! ## The end of a transmission (R283, R297, R365) -/

/-- The chip that counts a frame sent, before the copy is settled. -/
def frameSent (c : Chip) (lp : Nat) (out : List Byte) : Chip :=
  (c.emit (.frame lp out false)).count64 (Reg.port_TX_OK_CNT_LO (lp / 8) (lp % 8)) (Reg.port_TX_OK_CNT_HI (lp / 8) (lp % 8)) 1

theorem calmKey_txOk (p : Nat) {i : Nat} (hi : i < 8) :
    calmKey (Reg.port_TX_OK_CNT_LO p i) ∧ calmKey (Reg.port_TX_OK_CNT_HI p i) := by
  simp only [calmKey, Reg.port_TX_OK_CNT_LO, Reg.port_TX_OK_CNT_HI, Reg.life_FRZ_CTL, Reg.at_, Reg.pg_port, Reg.pg_life]
  omega

theorem Calm.frameSent {c : Chip} (h : c.Calm) (lp : Nat) (out : List Byte) : (c.frameSent lp out).Calm := by
  obtain ⟨hlo, hhi⟩ := calmKey_txOk (lp / 8) (Nat.mod_lt lp (by decide))
  exact ((h.emit _).wr hlo _).wr hhi _

/-- The low half of a counter pair counts modulo 2^32 (R36). -/
theorem rd_count64_low (c : Chip) {lo hi : Nat} (h : lo ≠ hi) : (c.count64 lo hi 1).rd lo = c.rd lo + 1 := by
  rw [Chip.count64, Chip.rd_wr_ne _ _ h, Chip.rd_wr_same]
  refine BitVec.eq_of_toNat_eq ?_
  rw [wd_toNat (by omega), BitVec.toNat_add]
  have hone : (1 : Word).toNat = 1 := rfl
  omega

theorem rd_frameSent (c : Chip) (lp : Nat) (out : List Byte) :
    (c.frameSent lp out).rd (Reg.port_TX_OK_CNT_LO (lp / 8) (lp % 8)) = c.rd (Reg.port_TX_OK_CNT_LO (lp / 8) (lp % 8)) + 1 :=
  rd_count64_low _ (by simp only [Reg.port_TX_OK_CNT_LO, Reg.port_TX_OK_CNT_HI, Reg.at_]; omega)

/-- A transmission ends: the frame is sent and counted, the copy settled, and its copy ended. -/
theorem ended_transmitEnd {c : Chip} (k : Clk) {lp cid : Nat} {cp : Copy} (hs : mget c.sw.sending lp = some cid)
    (hc : mget c.sw.copies cid = some cp) : Ended cid cp (c.frameSent lp cp.out) (c.transmitEnd k lp) := by
  have h2 := ((c.frameSent lp cp.out).beside_settleCopy k cp cp.out.length).trans (beside_levelSent _ cp)
  have h3 : ∀ p : Bool, (c.frameSent lp cp.out).Beside
      (if p then (((c.frameSent lp cp.out).settleCopy k cp cp.out.length).levelSent cp).overrun (reachOf lp)
        else ((c.frameSent lp cp.out).settleCopy k cp cp.out.length).levelSent cp) := by
    intro p
    split
    · exact h2.trans (beside_overrun _ _)
    · exact h2
  simp only [Chip.transmitEnd, hs, hc]
  exact (h3 _).toNear.ended (ended_endCopy k 0 (by rw [(h3 _).copies]; exact hc))

/-! ## The level hold (R358, R359, R366) -/

theorem ended_levelLate {c : Chip} (k : Clk) {cid : Nat} {cp : Copy} (stage : Nat) (h : mget c.sw.copies cid = some cp) :
    Ended cid cp c (c.levelLate k cid stage) := by
  have h1 : c.Beside ((c.count (Reg.level_LR_LATE_CNT (reachOf cp.lp)) 1).raise (Reg.pg_level (reachOf cp.lp)) 27) :=
    ((Beside.refl c).wr (a := Reg.level_LR_LATE_CNT (reachOf cp.lp)) (pathKey_level (by decide) (by decide)) _).raise
      (by simp only [Reg.pg_level]; omega) _
  have h2 : ∀ (p : Bool) (v : Word), c.Beside
      (if p then (c.count (Reg.level_LR_LATE_CNT (reachOf cp.lp)) 1).raise (Reg.pg_level (reachOf cp.lp)) 27
        else ((c.count (Reg.level_LR_LATE_CNT (reachOf cp.lp)) 1).raise (Reg.pg_level (reachOf cp.lp)) 27).wr
          (Reg.level_LR_LATE_LAST (reachOf cp.lp)) v) := by
    intro p v
    split
    · exact h1
    · exact h1.wr (a := Reg.level_LR_LATE_LAST (reachOf cp.lp)) (pathKey_level (by decide) (by decide)) v
  simp only [Chip.levelLate, h]
  exact (h2 _ _).toNear.ended (ended_dropCopy k drLevel false (by rw [(h2 _ _).copies]; exact h))

/-- What LEVEL_HOLD_RELEASE leaves of a copy: not in the hold, and ready where it still exists. -/
structure OutOfHold (cid : Nat) (c d : Chip) : Prop extends c.Follows d where
  gone : d.sw.hold.contains cid = false
  ready : (mget d.sw.copies cid).all (fun y => y.pos == .ready) = true

theorem contains_filter_ne (l : List Nat) (a : Nat) : (l.filter (· != a)).contains a = false := by
  simp

theorem Ended.outOfHold {cid : Nat} {cp : Copy} {c d : Chip} (h : Ended cid cp c d) : OutOfHold cid c d :=
  ⟨h.toFollows, by rw [h.hold, contains_filter_ne], by rw [h.copies, mget_merase_same]; rfl⟩

theorem outOfHold_place64 {c : Chip} (k : Clk) {cid : Nat} {cp : Copy} (lp : Nat) (t : Int) (h : mget c.sw.copies cid = some cp) :
    OutOfHold cid c (c.place64 k cid lp t) := by
  unfold Chip.place64
  extract_lets arrive resid u blocks sw c1
  split
  · exact (ended_levelLate k 3 h).outOfHold
  · have hf : c.Follows c1 := .of_eq rfl rfl rfl rfl
    refine ⟨hf.trans (follows_onCopy _ _ _), ?_, ?_⟩
    · rw [onCopy_hold]
      exact contains_filter_ne _ _
    · rw [mget_onCopy, show c1.sw.copies = c.sw.copies from rfl, h]
      simp

theorem outOfHold_holdRelease {c : Chip} (k : Clk) {lp : Nat} {x : Nat × Copy} {g : Nat × Int} (hx : c.heldCopy lp = some x)
    (hg : x.2.level = some g) (hc : mget c.sw.copies x.1 = some x.2)
    (hdue : g.2 < ((k.tod + c.delta k lp : Nat) : Int) + 2 * (c.beatT k : Nat)) : OutOfHold x.1 c (c.holdRelease k lp) := by
  have he := c.beside_ecc (pg := Reg.pg_level (reachOf lp)) (by simp only [Reg.pg_level]; omega) 0 ((c.sw.hold.idxOf? x.1).getD 0)
  have hlift : ∀ {d e : Chip}, c.Beside d → OutOfHold x.1 d e → OutOfHold x.1 c e := fun hb ho =>
    ⟨hb.toFollows.trans ho.toFollows, ho.gone, ho.ready⟩
  simp only [Chip.holdRelease, hx, hg, if_neg (Int.not_le.mpr hdue)]
  split
  next c1 h =>
    rw [h] at he
    exact hlift he (ended_dropCopy k drData false (by rwa [he.copies])).outOfHold
  next r c1 _ h =>
    rw [h] at he
    exact hlift he (outOfHold_place64 k lp g.2 (by rwa [he.copies]))

/-! ## The port-down flush (R269, R276) -/

/-- A flush that has ended shows in INT_CAUSE of the switch page (R276). -/
theorem bit_cause_flushDone (c : Chip) {j : Nat} (hj : j < 36) (h : c.rd (Reg.switch_FLUSH_DONE_PEND j) ≠ 0) :
    bit (c.cause 0x220) 27 = true := by
  have hset : c.anySet (Reg.switch_FLUSH_DONE_PEND 0) 36 = true := c.anySet_of_ne_zero hj
    (by rwa [show Reg.switch_FLUSH_DONE_PEND 0 + 4 * j = Reg.switch_FLUSH_DONE_PEND j from (Nat.add_assoc _ _ _)])
  have hl : c.levelCause 0x220 =
      (if c.anySet (Reg.switch_FLUSH_DONE_PEND 0) 36 then oneBit 27 else 0) |||
        (if c.anySet (Reg.switch_WD_PEND 0) 36 then oneBit 26 else 0) := rfl
  have hbit : bit (oneBit 27) 27 = true := by decide
  rw [Chip.cause, hl, hset, if_pos rfl, bit_or, bit_or, hbit, Bool.true_or, Bool.or_true]

/-- The copies that a flush ends have ended. -/
def flushed (c : Chip) (k : Clk) (lp : Nat) : Chip :=
  (c.killCopies k (fun cp => cp.lp == lp && cp.pos == .queued) drPortDown true).killCopies k (fun cp => cp.lp == lp && cp.begun)
    drPortDown false

theorem follows_flushed (c : Chip) (k : Clk) (lp : Nat) : c.Follows (c.flushed k lp) :=
  (c.follows_killCopies k _ _ _).trans (follows_killCopies _ k _ _ _)

theorem mem_flushed {c : Chip} {k : Clk} {lp : Nat} {kc : Nat × Copy} (h : kc ∈ (c.flushed k lp).sw.copies) (hlp : kc.2.lp = lp) :
    kc.2.pos ≠ .queued ∧ kc.2.begun = false := by
  obtain ⟨hm, hbegun⟩ := mem_killCopies h
  obtain ⟨-, hqueued⟩ := mem_killCopies hm
  simpa [hlp] using And.intro hqueued hbegun

/-- The end of a flush: FLUSHING clears and its completion is pending. -/
def flushEnd (c : Chip) (lp : Nat) : Chip :=
  (c.wrF (Reg.switch_PSTAT lp) 8 8 0).pend 0x220 (Reg.switch_FLUSH_DONE_PEND (lp / 32)) (oneBit (lp % 32)) 27

theorem flushDone_eq {c : Chip} (k : Clk) {lp : Nat} (hlp : lp < 1152) (h : c.flushing lp = true) :
    c.flushDone k lp = (c.flushed k lp).flushEnd lp := by
  have hnot : ¬ (1152 ≤ lp ∨ (!c.flushing lp) = true) := by simp [h, hlp]
  rw [Chip.flushDone, if_neg hnot]
  rfl

theorem pathKey_switch {off : Nat} (ho : off < 65536) (h8 : off ≠ 8) : pathKey (Reg.at_ Reg.pg_switch off) :=
  pathKey_at ho h8 (by decide) (by decide)

theorem beside_flushEnd (c : Chip) {lp : Nat} (hlp : lp < 1152) : c.Beside (c.flushEnd lp) :=
  ((Beside.refl c).wr (a := Reg.switch_PSTAT lp) (pathKey_switch (by omega) (by omega)) _).pend (by decide)
    (a := Reg.switch_FLUSH_DONE_PEND (lp / 32)) (pathKey_switch (by omega) (by omega)) _ _

theorem flushing_flushEnd (c : Chip) {lp : Nat} (hlp : lp < 1152) : (c.flushEnd lp).flushing lp = false := by
  rw [Chip.flushing, Chip.rdB, Chip.flushEnd,
    Chip.rd_pend _ _ _ _ (by simp only [Reg.switch_PSTAT, Reg.INT_FIRST, Reg.at_, Reg.pg_switch]; omega),
    Chip.rd_orW_ne _ _ (by simp only [Reg.switch_PSTAT, Reg.switch_FLUSH_DONE_PEND, Reg.at_]; omega), Chip.rd_wrF_same]
  exact bit_setFld_zero _ (by decide)

theorem bit_cause_flushEnd (c : Chip) {lp : Nat} (hlp : lp < 1152) : bit ((c.flushEnd lp).cause 0x220) 27 = true := by
  refine bit_cause_flushDone _ (j := lp / 32) (by omega) ?_
  rw [Chip.flushEnd, Chip.rd_pend _ _ _ _ (by simp only [Reg.switch_FLUSH_DONE_PEND, Reg.INT_FIRST, Reg.at_, Reg.pg_switch]; omega),
    Chip.rd_orW_same]
  exact fun h => oneBit_ne_zero (Nat.mod_lt _ (by decide)) (BitVec.or_eq_zero_iff.mp h).2

end Chip

section Egress
variable {s : State} (ha : Active s) (lp : Fin 1152)
include ha

theorem transmitStart_completes {x : Nat × Copy} {f : Frame} (hx : s.chip.nextOut lp = some x) (hf : mget s.chip.frames x.2.fid = some f)
    (hc : mget s.chip.sw.copies x.1 = some x.2) (hpos : x.2.pos = .ready) (hact : s.chip.lpActive lp = true)
    (hawake : s.chip.asleep lp = false) (hlev : s.chip.levelOf x.2 = none) (hfree : mget s.chip.sw.sending lp = none)
    (hmsc : s.chip.mscTx lp = false) (hptp : ptpHeader (x.2.out.take (x.2.out.length - 4)) = none) (hup : s.chip.upsets = [])
    (hok : f.failed = none) :
    Completes (.transmitStart lp) s fun t => OnlyChip s t ∧ mget t.chip.sw.sending lp = some x.1 ∧
      (mget t.chip.sw.copies x.1).any (fun y => y.pos == .sending &&
        y.out == x.2.out.take (x.2.out.length - 4) ++ fcsOf (x.2.out.take (x.2.out.length - 4))) = true := by
  have hlp : ¬ 1152 ≤ lp.val := Nat.not_le.mpr lp.isLt
  have hstart : s.transmitStart lp = s.startCopy lp x.1 x.2 f := by
    simp only [State.transmitStart, hx, hf, hpos, hlp, hact, hawake, hlev, hfree, Option.isSome_none, ne_eq, not_true_eq_false,
      Bool.not_true, Bool.false_eq_true, or_self, Bool.false_and, if_false]
  have hrun : exec (.transmitStart lp) s = ran s (s.transmitStart lp) := congrArg (ran s) (if_pos ha.1)
  rw [hstart, State.startCopy_plain lp.isLt hmsc rfl hptp hup hok] at hrun
  exact .of_calm ha hrun ((Chip.follows_startWire _ _ _ _ _ _ _).calm ha.calm)
    ⟨onlyChip_chip s _, Chip.sending_startWire _ _ _ _ _ _ _, Chip.copy_startWire hc _ _ _ _ _⟩

theorem copyTransmitEnd_completes {cid : Nat} {cp : Copy} (hs : mget s.chip.sw.sending lp = some cid)
    (hc : mget s.chip.sw.copies cid = some cp) (hlp : cp.lp = lp) :
    Completes (.copyTransmitEnd lp) s fun t => OnlyChip s t ∧ mget t.chip.sw.copies cid = none ∧
      mget t.chip.sw.sending lp = none ∧ t.chip.out.contains (.frame lp cp.out false) = true ∧
      t.chip.rd (Reg.port_TX_OK_CNT_LO (lp / 8) (lp % 8)) = s.chip.rd (Reg.port_TX_OK_CNT_LO (lp / 8) (lp % 8)) + 1 := by
  have he := Chip.ended_transmitEnd s.clk hs hc
  have hsending : mget (s.chip.frameSent lp cp.out).sw.sending lp = some cid := hs
  have hlow : Reg.port_TX_OK_CNT_LO (lp / 8) (lp % 8) < 0x1200000 := by
    simp only [Reg.port_TX_OK_CNT_LO, Reg.at_, Reg.pg_port]
    omega
  refine .of_calm ha (congrArg (ran s) (State.onCore_chip _ ha.1)) (he.calm (ha.calm.frameSent lp cp.out))
    ⟨onlyChip_chip s _, ?_, ?_, ?_, ?_⟩
  · simp only [he.copies, mget_merase_same]
  · simp only [he.sending, hlp, if_pos hsending, mget_merase_same]
  · exact List.contains_iff_mem.mpr (he.sent (List.mem_append_right _ (List.mem_singleton_self _)))
  · exact (he.low _ hlow).trans (Chip.rd_frameSent _ _ _)

theorem levelHoldRelease_completes {x : Nat × Copy} {g : Nat × Int} (hx : s.chip.heldCopy lp = some x) (hg : x.2.level = some g)
    (hc : mget s.chip.sw.copies x.1 = some x.2)
    (hdue : g.2 < ((s.clk.tod + s.chip.delta s.clk lp : Nat) : Int) + 2 * (s.chip.beatT s.clk : Nat)) :
    Completes (.levelHoldRelease lp) s fun t => OnlyChip s t ∧ t.chip.sw.hold.contains x.1 = false ∧
      (mget t.chip.sw.copies x.1).all (fun y => y.pos == .ready) = true := by
  have ho := Chip.outOfHold_holdRelease s.clk hx hg hc hdue
  exact .of_follows ha rfl ho.toFollows ⟨onlyChip_chip s _, ho.gone, ho.ready⟩

theorem flushDone_completes (h : s.chip.flushing lp = true) :
    Completes (.flushDone lp) s fun t => OnlyChip s t ∧ t.chip.flushing lp = false ∧ bit (t.chip.cause 0x220) 27 = true ∧
      ∀ kc ∈ t.chip.sw.copies, kc.2.lp = lp → kc.2.pos ≠ .queued ∧ kc.2.begun = false := by
  have heq := Chip.flushDone_eq s.clk lp.isLt h
  have hend := (s.chip.flushed s.clk lp).beside_flushEnd lp.isLt
  refine .of_follows ha rfl (heq ▸ (s.chip.follows_flushed s.clk lp).trans hend.toFollows) ⟨onlyChip_chip s _, ?_⟩
  simp only [heq]
  exact ⟨Chip.flushing_flushEnd _ lp.isLt, Chip.bit_cause_flushEnd _ lp.isLt, fun kc hkc => Chip.mem_flushed (hend.copies ▸ hkc)⟩

end Egress

/-- Settles O15: each clause is the completion of its command. -/
theorem egressCommandsComplete : Obligations.EgressCommandsComplete := by
  unfold Obligations.EgressCommandsComplete
  intro s ha
  refine ⟨fun cid hl cp hc _ => copyLink_completes ha hl hc, fun lp => ⟨?_, ?_, ?_, ?_⟩⟩
  · exact fun x hx f hf hc hpos hact hawake hlev hfree hmsc hptp hup hok =>
      transmitStart_completes ha lp hx hf hc hpos hact hawake hlev hfree hmsc hptp hup hok
  · exact fun cid hs cp hc hlp => copyTransmitEnd_completes ha lp hs hc hlp
  · exact fun x hx g hg hc hdue => levelHoldRelease_completes ha lp hx hg hc hdue
  · exact fun h => flushDone_completes ha lp h

end Sys2Proof.Machine
end

section
/-!
O12: a fatal fault of the Flume (R491) may leave its page without FAULT. The fault drops every spilled copy (R321), a copy that leaves
its queue empty clears the queue's DEFICIT (R284), and a queue number past the last queue of R256 places that DEFICIT on another page.
-/
namespace Sys2Proof.Machine

/-- A number past those of the 23,056 queues, counted on from the queues of LP1152: the DEFICIT of such a queue would lie where
PAGE_STAT of the Flume controller's page does. -/
def strayQueue : Nat := 23040 + (Reg.PAGE_STAT 0x240 - Reg.sched_DEFICIT 0 1440) / 4

/-- The device after reset with one spilled copy, alone on that queue. -/
def spilledAstray : State :=
  { State.reset with chip := { State.reset.chip with
      sw := { State.reset.chip.sw with
        copies := [(0, { fid := 0, lp := 1152, q := strayQueue, pos := .queued, spill := .written [] })]
        queues := [(strayQueue, { entries := [0] })] } } }

theorem spilledAstray_active : Active spilledAstray := ⟨by decide, rfl, by decide⟩

theorem spilledAstray_not_faulted : spilledAstray.chip.faulted 0x240 = false := by decide

/-- The fault sets FAULT, and the copy dropped with it clears FAULT again. -/
theorem spilledAstray_unfaulted :
    ((spilledAstray.fatalFault 0x240 false).finish spilledAstray).chip.faulted 0x240 = false := by decide

/-- Refutes O12: in `spilledAstray` FATAL_FAULT of page 0x240, of a Flume that has no fault, ends with FAULT of the page 0. -/
theorem not_faultCommandsComplete : ¬ Obligations.FaultCommandsComplete := by
  unfold Obligations.FaultCommandsComplete
  intro h
  obtain ⟨hfatal, -, -⟩ := h spilledAstray spilledAstray_active
  obtain ⟨-, hother, -⟩ := hfatal 0x240 false .flume rfl
  obtain ⟨t, ht, hfault, -⟩ := hother (by decide) (by decide) spilledAstray_not_faulted
  cases ht
  rw [spilledAstray_unfaulted] at hfault
  cases hfault

end Sys2Proof.Machine
end

section
/-!
O48: the bytes that an ALU or a MOVE writes to a carry (R116), and the MOVE of a weir word (R121).
-/
namespace Sys2Proof.Machine

/-! ## One byte written (R116) -/

/-- What a byte of a carry reads after `b` is written to it: protected bytes and bits [7:6] of byte 0x018 stay. -/
def storedByte (a : Nat) (old b : Byte) : Byte :=
  if protectedByte a then old else if a = 0x018 then (old &&& 0xC0) ||| (b &&& 0x3F) else b

theorem cbyte_cstore_same (m : SMap Byte) (a : Nat) (b : Byte) : cbyte (cstore m a b) a = storedByte a (cbyte m a) b := by
  unfold cstore storedByte
  split
  · rfl
  · split
    · exact mrd_mset_same _ _ _ _
    · exact mrd_mset_same _ _ _ _

theorem cbyte_cstore_ne (m : SMap Byte) {a x : Nat} (b : Byte) (h : x ≠ a) : cbyte (cstore m a b) x = cbyte m x := by
  unfold cstore
  split
  · rfl
  · split
    · exact mrd_mset_ne _ _ _ h
    · exact mrd_mset_ne _ _ _ h

/-! ## A run of bytes written -/

theorem cbyte_cstores_below (m : SMap Byte) {a x : Nat} (bs : List Byte) (h : x < a) : cbyte (cstores m a bs) x = cbyte m x := by
  induction bs generalizing m a with
  | nil => rfl
  | cons b bs ih => rw [cstores, ih _ (Nat.lt_succ_of_lt h), cbyte_cstore_ne m b (Nat.ne_of_lt h)]

/-- Each byte from the first on takes the byte of the list at its place, where the list has one. -/
theorem cbyte_cstores_add (m : SMap Byte) (a : Nat) (bs : List Byte) (i : Nat) :
    cbyte (cstores m a bs) (a + i) = (bs[i]?).elim (cbyte m (a + i)) (storedByte (a + i) (cbyte m (a + i))) := by
  induction bs generalizing m a i with
  | nil => rfl
  | cons b bs ih =>
    cases i with
    | zero => exact (cbyte_cstores_below _ bs (Nat.lt_succ_self a)).trans (cbyte_cstore_same m a b)
    | succ i => rw [cstores, show a + (i + 1) = a + 1 + i by omega, ih, cbyte_cstore_ne m b (by omega), List.getElem?_cons_succ]

theorem getElem?_cbytes (m : SMap Byte) (a n i : Nat) :
    (cbytes m a n)[i]? = if i < n then some (if a + i < 768 then cbyte m (a + i) else 0) else none := by
  by_cases h : i < n <;> simp [cbytes, h]

/-! ## MOVE (R121) -/

theorem moveLane_inactive (w : BitVec 256) {l : Lane} (h : l.active = false) : moveLane w l = l := by
  simp [moveLane, h]

theorem carry_moveLane_active (w : BitVec 256) {l : Lane} (h : l.active = true) :
    (moveLane w l).carry = cstores l.carry (mwMove w / 16 % 1024)
      (cbytes l.carry (mwMove w / 16384) (min (mwMove w % 16) (768 - mwMove w / 16 % 1024))) := by
  simp [moveLane, h]

theorem moveLane_with_carry (w : BitVec 256) (l : Lane) : { moveLane w l with carry := l.carry } = l := by
  unfold moveLane
  split <;> rfl

/-- A byte of a run copied within a carry: inside the run and below byte 768 it takes the byte of the source as it was, unless R116
protects it. -/
theorem cbyte_cstores_cbytes (m : SMap Byte) (src dst len a : Nat) :
    cbyte (cstores m dst (cbytes m src (min len (768 - dst)))) a =
      if dst ≤ a ∧ a < dst + len ∧ a < 768 ∧ ¬ (a < 0x10 ∨ a = 0x17 ∨ 0x2C0 ≤ a) then
        let b := if src + (a - dst) < 768 then cbyte m (src + (a - dst)) else 0
        if a = 0x18 then (cbyte m a &&& 0xC0) ||| (b &&& 0x3F) else b
      else cbyte m a := by
  by_cases hd : dst ≤ a
  · obtain ⟨i, rfl⟩ := Nat.exists_eq_add_of_le hd
    have hrun : i < min len (768 - dst) ↔ dst + i < dst + len ∧ dst + i < 768 := by omega
    have hprot : protectedByte (dst + i) = true ↔ dst + i < 0x10 ∨ dst + i = 0x17 ∨ 0x2C0 ≤ dst + i := by
      simp [protectedByte, or_assoc]
    rw [cbyte_cstores_add, getElem?_cbytes, Nat.add_sub_cancel_left]
    by_cases hin : i < min len (768 - dst)
    · obtain ⟨hlen, h768⟩ := hrun.mp hin
      by_cases hp : protectedByte (dst + i) = true
      · simp [hin, storedByte, hp, hprot.mp hp]
      · simp only [hin, hd, hlen, h768, if_true, true_and, Option.elim_some, storedByte, hp, if_false, mt hprot.mpr hp,
          not_false_eq_true, Bool.false_eq_true]
    · rw [if_neg hin, if_neg fun h => hin (hrun.mpr ⟨h.2.1, h.2.2.1⟩), Option.elim_none]
  · rw [cbyte_cstores_below m _ (Nat.lt_of_not_le hd), if_neg fun h => hd h.1]

/-- Settles O48: a MOVE is a run of bytes copied within the carry of an active lane. -/
theorem moveCopiesCarryBytes : Obligations.MoveCopiesCarryBytes := by
  unfold Obligations.MoveCopiesCarryBytes
  intro w l _
  refine ⟨moveLane_with_carry w l, fun a => ?_⟩
  cases hact : l.active with
  | false => simp [moveLane_inactive w hact]
  | true =>
    simp only [carry_moveLane_active w hact, true_and]
    exact cbyte_cstores_cbytes l.carry _ _ _ a

end Sys2Proof.Machine
end
